-- ==== Sys2Proof/Word.lean ====
section
/-! DEFINITION. The word types of the block's registers (R9: 32-bit registers, 64-bit pairs) and the saturating counters of its tables. -/

namespace Sys2Proof

/-- One byte. -/
abbrev Byte := BitVec 8

/-- A BAR0 register (R9). -/
abbrev Word := BitVec 32

/-- A _LO and _HI pair read as one quantity (R9). -/
abbrev DWord := BitVec 64

/-- Add `n` to a counter that saturates at its all-ones value (Tables 2-14, 3-10, 6-6 and the others). -/
def satAdd {w : Nat} (x : BitVec w) (n : Nat) : BitVec w :=
  BitVec.ofNat w (min (x.toNat + n) (2 ^ w - 1))

/-- One more event on a saturating counter. -/
def satInc {w : Nat} (x : BitVec w) : BitVec w := satAdd x 1

end Sys2Proof
end

