-- ==== Sys2Proof/Machine/SMap.lean ====
section
/-! DEFINITION. Sparse tables keyed by numbers: a list of key and value pairs with rising keys. They hold the block's arrays (leaves, queues, knots, lines) as plain data; a key that is not listed has the default its reader names. -/

namespace Sys2Proof.Machine

/-- A table from numbers to values, listed by rising key. -/
abbrev SMap (α : Type) := List (Nat × α)

/-- The value listed for key `k`, if any. -/
def smFind {α : Type} : SMap α → Nat → Option α
  | [], _ => none
  | (i, v) :: r, k => if i = k then some v else smFind r k

/-- The value at key `k`, `d` where none is listed. -/
def smGet {α : Type} (d : α) (m : SMap α) (k : Nat) : α := (smFind m k).getD d

/-- The table with `v` at key `k`, in key order. -/
def smSet {α : Type} : SMap α → Nat → α → SMap α
  | [], k, v => [(k, v)]
  | (i, w) :: r, k, v =>
    if k < i then (k, v) :: (i, w) :: r
    else if i = k then (k, v) :: r
    else (i, w) :: smSet r k v

/-- The table without key `k`. -/
def smErase {α : Type} (m : SMap α) (k : Nat) : SMap α := m.filter (fun p => p.1 != k)

/-- The table with the value at `k` changed by `f` (`d` where none is listed). -/
def smUpd {α : Type} (d : α) (m : SMap α) (k : Nat) (f : α → α) : SMap α :=
  smSet m k (f (smGet d m k))

end Sys2Proof.Machine
end

