-- ==== Sys2Proof/Machine/TypesCanopy.lean ====
section
/-! DEFINITION. The canopy image as structured data (09_canopy_images.md): header, placement, leaf references, routes, programs, descriptors, quantisation entries, tables, thresholds, grafts and companion layouts. -/

namespace Sys2Proof.Machine

/-- The storage formats of Table 9-9, in code order. -/
inductive Fmt where
  | int2 | int4 | int8 | uint8 | int16 | int32 | cint8 | cint16
  | e4m3 | e5m2 | fp16 | bf16 | fp32 | cone4 | bsi8
  deriving DecidableEq, Repr

/-- An address of Table 8-2. -/
inductive Addr where
  /-- Sapwood of the bough running the operation. -/
  | sap (off : Nat)
  /-- Device HBM address. -/
  | hbm (off : Nat)
  /-- Bus address of host memory. -/
  | host (off : Nat)
  /-- Partial index in accumulator memory. -/
  | acc (idx : Nat)
  | none
  /-- An encoding that Table 8-2 does not allow. -/
  | bad
  deriving DecidableEq, Repr

/-- A value of Table 8-2. -/
inductive Val where
  | imm (n : Nat)
  | sap (off : Nat)
  | hbm (off : Nat)
  | bad
  deriving DecidableEq, Repr

/-- A level's tag (R193). -/
inductive Tag where
  | transfer | stage | eval
  deriving DecidableEq, Repr

/-- A level's dimension (Table 8-4). -/
inductive Dim where
  | none | m | k
  deriving DecidableEq, Repr

/-- Level entry (Table 8-4). -/
structure Level where
  bound : Val := .imm 0
  inStride : Int := 0
  outStride : Int := 0
  wStride : Int := 0
  body : Nat := 0
  stop : Nat := 0
  tag : Tag := .transfer
  dim : Dim := .none
  step : Nat := 0
  run : Nat := 0
  ring : Nat := 0
  skew : Nat := 0
  deriving DecidableEq, Repr

/-- Slot table entry (Table 8-3). -/
structure SlotEnt where
  present : Bool := false
  vecGroup : Nat := 0
  colBlock : Nat := 0
  rowBlock : Nat := 0
  deriving DecidableEq, Repr

/-- A descriptor's kind (Table 8-1). -/
inductive DKind where
  | transfer | drive | exchange | loc
  deriving DecidableEq, Repr

/-- Loop descriptor (R194). -/
structure Desc where
  kind : DKind := .transfer
  vecGroups : Nat := 0
  inTensor : Nat := 0
  outTensor : Nat := 0
  inBase : Addr := .none
  outBase : Addr := .none
  extentK : Val := .imm 0
  extentM : Val := .imm 0
  ptrList : Addr := .none
  /-- Sapwood offset of the row mask, if any. -/
  rowMask : Option Nat := none
  /-- Sapwood offset of the column mask, if any. -/
  colMask : Option Nat := none
  groupInStride : Int := 0
  groupOutStride : Int := 0
  auxBase : Addr := .none
  slots : List SlotEnt := []
  levels : List Level := []
  deriving DecidableEq, Repr

/-- Quantisation entry (R136, Tables 6-1 and 9-8). -/
structure Quant where
  fmt : Fmt := .int8
  /-- Exponent-carrying storage bit. -/
  expCarry : Bool := false
  /-- true = running-max mode (R148), false = learned (R147). -/
  runMax : Bool := false
  /-- N − 1. -/
  window : Nat := 0
  headroom : BitVec 16 := 0x9000#16
  sInit : Word := 0x3F800000#32
  convSatLimit : Nat := 0xFFFF
  clipLimit : Nat := 0xFFFF
  deriving DecidableEq, Repr

/-- Layer entry (Table 9-5). -/
structure Layer where
  bough : Nat := 0
  mode : Nat := 0
  slotMask : BitVec 16 := 0
  inTensor : Nat := 0
  outTensor : Nat := 0
  sW : Word := 0x3F800000#32
  deriving DecidableEq, Repr

/-- Leaf reference (Table 9-4). -/
structure LeafRef where
  bough : Nat := 0
  slot : Nat := 0
  width : Nat := 0
  rangeFirst : Nat := 0
  rangeSecond : Nat := 0
  imageOffset : Nat := 0
  digest : List Byte := []
  deriving DecidableEq, Repr

/-- Route entry (Table 9-6). -/
structure Route where
  /-- true = halo, false = combine. -/
  halo : Bool := false
  depth : Nat := 1
  receiver : Nat := 0
  bufferBytes : Nat := 0
  /-- Sender bough and the sapwood offset of its first staging buffer in the receiver. -/
  senders : List (Nat × Nat) := []
  deriving DecidableEq, Repr

/-- Program table entry with the program's operations (Table 9-7, R167). -/
structure Program where
  governMask : Nat := 0
  boughMask : BitVec 16 := 0
  govern : List Nat := []
  ops : List DWord := []
  deriving DecidableEq, Repr

/-- Nonlinear table entry (Table 9-10). -/
structure NlTable where
  boughMask : BitVec 16 := 0
  slot : Nat := 0
  nlFrac : Nat := 0
  outFmt : Fmt := .int8
  preTensor : Nat := 0
  outTensor : Nat := 0
  /-- The 257 entries y[0] to y[256]. -/
  y : List Int := []
  deriving DecidableEq, Repr

/-- Threshold entry (R221). -/
structure Threshold where
  raCtrl : Word := 0
  qntCtrl : Word := 0
  calCtrl : Word := 0
  apply : Bool := false
  deriving DecidableEq, Repr

/-- Fold-map entry (Table 10-1). -/
structure FoldEnt where
  bough : Nat := 0
  slot : Nat := 0
  rowBlock : Nat := 0
  colBlock : Nat := 0
  deriving DecidableEq, Repr

/-- Graft descriptor (Table 10-1). -/
structure Graft where
  outTensor : Nat := 0
  inTensor : Nat := 0
  n : Nat := 1
  m : Nat := 1
  rank : Nat := 1
  /-- true = Cone4 weights, false = scale-blocked INT8. -/
  cone : Bool := true
  trainable : Bool := false
  foldable : Bool := false
  alpha : Word := 0
  lr : Word := 0
  beta1 : Word := 0
  beta2 : Word := 0
  eps : Word := 0
  decay : Word := 0
  stA : Word := 0
  stB : Word := 0
  stG : Word := 0
  stM : Word := 0
  stV : Word := 0
  region : Nat := 0
  bankBytes : Nat := 0
  foldMap : List FoldEnt := []
  deriving DecidableEq, Repr

/-- Companion layout entry (Table 9-17): descriptor, operand (0 in, 1 out, 2 aux) and displacements. -/
structure Companion where
  desc : Nat := 0
  operand : Nat := 0
  compDisp : Int := 0
  sideDisp : Int := 0
  sideUnits : Nat := 0
  deriving DecidableEq, Repr

/-- A canopy image (R216). -/
structure Canopy where
  imageId : DWord := 0
  length : Nat := 0
  signed : Bool := false
  scopeStands : Bool := false
  standMask : BitVec 4 := 0
  boughUse : BitVec 16 := 0
  layers : List Layer := []
  leafRefs : List LeafRef := []
  routes : List Route := []
  programs : List Program := []
  descs : List Desc := []
  quants : List Quant := []
  tables : List NlTable := []
  thresholds : List Threshold := []
  grafts : List Graft := []
  companions : List Companion := []
  deriving DecidableEq, Repr

end Sys2Proof.Machine
end

