-- ==== Sys2Proof/Machine/TypesLeaf.lean ====
section
/-! DEFINITION. One physical leaf: cells, derived configuration, array registers, calibration table and registers, programming registers, leaf record and test state (chapters 02, 03, 04 and 14). -/

namespace Sys2Proof.Machine

/-- Role of a leaf (Table 2-11). -/
inductive Role where
  | active | spare | programming | invalid | fenced
  deriving DecidableEq, Repr

/-- A load slot of a leaf's calibration table (R67). -/
structure CalSlot where
  valid : Bool := false
  /-- Load at measurement, % of cap. -/
  load : Nat := 0
  /-- Junction temperature at measurement, °C. -/
  temp : Int := 0
  /-- Reference codes of the 32 column groups. -/
  refs : List Nat := []
  /-- Gain trim of each physical column, units of 2⁻¹⁴; 0 where not listed. -/
  trims : SMap Int := []
  deriving DecidableEq, Repr

/-- State byte of a leaf record (Table 4-2). -/
inductive RecState where
  | erased | programmed | fenced
  deriving DecidableEq, Repr

/-- LEF_ID [13:0] of physical leaf `k` (Table 2-9): stand, bough within stand, leaf. -/
def leafIdOf (k : Nat) : BitVec 14 := BitVec.ofNat 14 (4096 * (k / 72) + 256 * (k / 18 % 4) + k % 18)

/-- Leaf record (R88, Table 4-2). -/
structure LeafRec where
  leafId : BitVec 14 := 0
  state : RecState := .erased
  width : BitVec 2 := 3#2
  cycles : Nat := 0
  /-- Canonical digest, 32 bytes; all zero unless PROGRAMMED. -/
  digest : List Byte := List.replicate 32 0
  /-- LEF_REMAP_i [15:0] of spare i; 0 where not listed. -/
  remap : SMap (BitVec 16) := []
  /-- Columns to be remapped at the next programming. -/
  pendingRemap : List Nat := []
  fencedGroups : Word := 0
  /-- Copy of the 32 factory reference codes. -/
  factoryCode : List Byte := List.replicate 32 192
  deriving DecidableEq, Repr

/-- Kinds of a trunk measurement's cause (Table 3-5): cause codes 1 to 7. -/
abbrev CalCause := BitVec 3

/-- A measurement of a leaf under way or finished but not committed (R75). -/
structure Meas where
  cause : CalCause
  /-- All 128 phases ran and trims are computed. -/
  done : Bool := false
  suspended : Bool := false
  load : Nat := 0
  temp : Int := 0
  refs : List Nat := []
  trims : SMap Int := []
  /-- Squares of est (in %²) and sigma (codes²), exact. -/
  est2 : Rat := 0
  sigma2 : Rat := 0
  /-- Trim generation at the start (R81). -/
  gen : BitVec 8 := 0
  /-- The automatic trigger it serves, and the long-operation slots of the CALIBRATE operations it serves (R80, R82). -/
  auto : Option CalCause := none
  ops : List Nat := []
  deriving DecidableEq, Repr

/-- Trigger of a diagnosis (R325). -/
inductive DiagTrig where
  | check (group : Nat) (again : Bool) | bias (group : Nat) | refFault
  deriving DecidableEq, Repr

/-- The bias monitor's running values of one check group (R324). -/
structure Bias where
  sD : Int := 0
  sV : Rat := 0
  n : Nat := 0
  /-- FS of the window's last evaluation, units of output. -/
  fs : Nat := 0
  deriving DecidableEq, Repr

/-- One phase job waiting on a leaf (R55): a phase of a vector a DRIVE issued. -/
structure PhaseJob where
  epoch : Nat
  /-- Vector number within the DRIVE. -/
  vec : Nat
  /-- Descriptor slot of the DRIVE's slot table. -/
  dslot : Nat
  /-- true = second phase of a two-phase format. -/
  second : Bool
  /-- Range shift of its position at the tile's issue (R146). -/
  shift : Nat := 0
  twoPhase : Bool
  /-- Driven digit of each row, rows 0 to 1,023 (0 where not listed). -/
  digits : SMap Nat
  /-- Σu of this phase, Σ x' of the vector, Σ x² and a_o. -/
  sumU : Nat
  sumX : Nat
  sumX2 : Nat
  aO : Nat
  /-- First partial of the vector's columns (R196). -/
  outIdx : Nat
  /-- Initialise the partials (R208). -/
  init : Bool
  /-- Last-of-reduction flag holds (R208). -/
  last : Bool
  /-- Exponent tag of the vector (R127). -/
  tag : Int
  /-- Column mask bits of the slot's columns that are written. -/
  cols : List Nat
  /-- Tensor the layer writes. -/
  tensor : Nat
  deriving DecidableEq, Repr

/-- One physical leaf. -/
structure Leaf where
  /-- Level of cell row × 1,152 + column; 0 (erased) where not listed (R26). -/
  cells : SMap Nat := []
  /-- The marker row is set (R94). -/
  marker : Bool := false
  width : BitVec 2 := 3#2
  slot : BitVec 5 := 0x1F#5
  role : Role := .spare
  draining : Bool := false
  cadence : BitVec 7 := 0
  refCheckPass : Bool := false
  rangeFirst : BitVec 2 := 0
  rangeSecond : BitVec 2 := 0
  /-- Range shifts the canopy image set (R146). -/
  imgRangeFirst : BitVec 2 := 0
  imgRangeSecond : BitVec 2 := 0
  /-- Restore window of each position: phases executed and largest counted code (R146). -/
  winFirst : Nat × Nat := (0, 0)
  winSecond : Nat × Nat := (0, 0)
  /-- A raised range shift that takes effect at the twig's next tile (R146). -/
  raiseFirst : Bool := false
  raiseSecond : Bool := false
  errStatus : BitVec 5 := 0
  mismatchCnt : BitVec 16 := 0
  phaseCnt : DWord := 0
  groupFence : Word := 0
  /-- LEF_REMAP_i in force; 0 where not listed. -/
  remap : SMap (BitVec 16) := []
  factoryCode : SMap Nat := []
  lastCode : SMap Nat := []
  outOfWindow : Word := 0
  /-- Derived configuration (R89): W_j by logical column, W of checksum columns, level sums by column × 4 + quarter. -/
  derivedOk : Bool := false
  wSum : SMap Int := []
  wChk : SMap Int := []
  lsum : SMap Nat := []
  /-- A drive mismatch holds the drivers at zero scale until the next phase (R53). -/
  mismatchHold : Bool := false
  /-- Self-checks since power-up or reset have released the leaf (R53). -/
  checked : Bool := false
  /-- Executed-phase number of the last mismatch of each monitor block (R327). -/
  blockMismatch : SMap Nat := []
  /-- Phases waiting to run, oldest first. -/
  jobs : List PhaseJob := []
  /-- P̂ of the first phase of the vector under way, by logical column, then checksum columns (R36). -/
  pFirst : SMap Rat := []
  pFirstChk : SMap Rat := []
  /-- Its contribution to σ_y² (R322), whether it was marked failed, its codes by physical column and its digits by row (R338). -/
  sigFirst : Rat := 0
  firstBad : Bool := false
  codesFirst : List Byte := []
  digitsFirst : List Byte := []
  -- Calibration (chapter 03)
  cal : List CalSlot := [{}, {}, {}]
  generation : BitVec 8 := 0
  lastCause : CalCause := 0
  /-- A trigger noted while auto_recal_en was 0, and its cause, which last_cause shows while it is pending (Table 3-7). -/
  recalWanted : Bool := false
  wantedCause : CalCause := 0
  mismatchActive : Bool := false
  mismatchSeen : Bool := false
  /-- A phase ran under a mismatch in the present governor interval (R74). -/
  mismatchNow : Bool := false
  /-- Slot used by the last phase under a mismatch, its recorded load, and the trim generation of its gains. -/
  mismatchSlot : Nat := 0
  mismatchLoad : Nat := 0
  mismatchGen : BitVec 8 := 0
  /-- Trim generation under which a CAL_MISMATCH record was last written (R74). -/
  mismatchRec : Option (BitVec 8) := none
  reprogramDue : Bool := false
  /-- est of the last commit was 0.80 % or more (R76). -/
  estHigh : Bool := false
  calCtrl : Word := 0x00010A03#32
  mvmEst : BitVec 16 := 0xFFFF#16
  noiseSigma : BitVec 16 := 0
  calMismatchCnt : Word := 0
  calAutoCnt : Word := 0
  trimSel : BitVec 13 := 0
  meas : Option Meas := none
  /-- The 10 ms spacing of R78 runs; trigger causes that arose inside it. -/
  spacing : Bool := false
  deferred : List CalCause := []
  /-- Reference-drift block: phases and sum of codes per group (Table 3-5). -/
  driftN : Nat := 0
  driftSum : SMap Nat := []
  /-- Sums of the last finished block, by which a deferred trigger 3 is judged again (R78). -/
  driftLast : SMap Nat := []
  /-- Consecutive governor intervals with an empty slot's load (trigger 4), per slot. -/
  emptyRun : List Nat := [0, 0, 0]
  -- Programming (chapter 04)
  record : LeafRec := {}
  /-- Columns of pending_remap that have their spare from the programming under way (R96). -/
  remapTaken : List Nat := []
  /-- program_cycles that the attempt begun last makes when it is counted (R105). -/
  attempt : Nat := 0
  progStep : BitVec 4 := 0
  progRow : BitVec 10 := 0
  progPass : BitVec 2 := 0
  releaseKnot : Bool := false
  progStatus : Byte := 0xFF#8
  iterMax : BitVec 5 := 0
  iterMean : BitVec 16 := 0
  progGroup : BitVec 16 := 0
  progKnot : BitVec 16 := 0
  targetDigest : List Byte := []
  /-- Reference self-check due 10 s after programming (R66). -/
  refCheckDue : Bool := false
  -- Integrity (chapter 14)
  bias : SMap Bias := []
  diag : List DiagTrig := []
  /-- Trunk time of the last CHECK retirement of each check group (R325). -/
  lastCheck : SMap Nat := []
  testDue : Bool := false
  testRunning : Bool := false
  verifyRunning : Bool := false
  /-- CHECK retirements, bias trips and fences since cold reset (Table 14-9 key 9). -/
  checkRet : Nat := 0
  biasTrips : Nat := 0
  fences : Nat := 0
  deriving DecidableEq, Repr

end Sys2Proof.Machine
end

