-- ==== Sys2Proof/Machine/TypesBough.lean ====
section
/-! DEFINITION. One bough: twig, epochs, write-hold buffer, memories, quantisation engine and registers, and the tasks it runs (chapters 06, 07, 08 and 10, and the task records of chapter 11). -/

namespace Sys2Proof.Machine

/-- Statistics of one tensor (Table 6-2). -/
structure TStats where
  amax : Rat := 0
  hi : Nat := 0
  lo : Nat := 0
  clips : Nat := 0
  nonfinite : Nat := 0
  /-- A code 255 came from a phase at range shift above 0 (R140): (leaf, second position). -/
  hiAt : List (Nat × Bool) := []
  /-- amax is already in real units (R139: conversion from a floating-point source). -/
  real : Bool := false
  written : Bool := false
  deriving DecidableEq, Repr

/-- Causes of a task's end (Table 11-4). -/
inductive Cause where
  | none | check | leafState | descriptor | shape | badBlock | badScale | badGraft | noImage | badTask
  | badContext | poison | peerReset | unitFenced | ctxFaulted | reset | badDoorbell
  deriving DecidableEq, Repr

/-- A fault of a task: cause, detail and the operation (Table 11-3). -/
structure TFault where
  cause : Cause
  detail : Word := 0
  opIndex : Nat := 0
  deriving DecidableEq, Repr

/-- Scales latched at dispatch for one tensor (R151). -/
structure Scale where
  s : Word := 0x3F800000#32
  mult : Nat := 0
  shift : Nat := 0
  deriving DecidableEq, Repr

/-- A task record's fields (Table 11-2). -/
structure TaskRec where
  userTag : DWord := 0
  program : Nat := 0
  bough : Nat := 0
  flags : Byte := 0
  context : Word := 0
  signalKnot : Nat := 0
  listAddr : Addr := .none
  /-- The zero fields hold 0. -/
  zerosOk : Bool := true
  args : List Byte := []
  /-- The whole 128 bytes. -/
  bytes : List Byte := []
  deriving DecidableEq, Repr

/-- A dispatched task (chapter 11) with what it latches and gathers. -/
structure Task where
  id : Nat
  queue : Nat
  sqIndex : Nat
  trec : TaskRec
  /-- 0 SLOT, 1 BULK, 2 ADAPT, 3 MAINT. -/
  cls : Nat
  /-- true = HOLD, false = DROP. -/
  hold : Bool
  function : Nat
  /-- Context record fields read at dispatch (Table 11-5). -/
  calSel : Nat := 0
  tensorCount : Nat := 0
  scaleHist : Nat := 0
  graftState : Nat := 0
  /-- Latched scales by tensor (R151), latched graft banks: graft ↦ (enabled, bank) (R241). -/
  scales : SMap Scale := []
  grafts : SMap (Bool × Bool) := []
  /-- Doubling counts d by tensor (R142). -/
  dbl : SMap Nat := []
  /-- Statistics of retired tiles by tensor (R139); sat_persist and adapt_wanted flags set by this task. -/
  stats : SMap TStats := []
  adaptWanted : List Nat := []
  satPersist : List Nat := []
  squashTensor : SMap Nat := []
  nonfinite : Bool := false
  saturation : Bool := false
  yielded : Bool := false
  checkSquashes : Nat := 0
  satSquashes : Nat := 0
  phases : Nat := 0
  fault : Option TFault := none
  /-- Issue has begun; END has issued; a faulted or ended task issues nothing further. -/
  started : Bool := false
  issueDone : Bool := false
  /-- Δ of each GRAFT_APPLY (R240), newest first: graft, epoch, FP32 words in vector-major order. -/
  deltas : List (Nat × Nat × List Word) := []
  /-- Parts run by GRAFT_STEP, and saturations and nonfinite inputs met by graft calls (R243, R244): graft, epoch, and part or count. -/
  stepParts : List (Nat × Nat × Nat) := []
  graftClips : List (Nat × Nat × Nat) := []
  graftNonfinite : List (Nat × Nat × Nat) := []
  /-- Of graftClips and graftNonfinite, how many entries a status write of a graft has taken: graft, epoch, and the two counts (R243). -/
  graftFlushed : List (Nat × Nat × Nat × Nat) := []
  /-- A held line of the task was answered with an error (R347). -/
  lost : Bool := false
  /-- The task's results are discarded (VF FLR, R280; quarantine mode, R355). -/
  discard : Bool := false
  quarantine : Bool := false
  deriving DecidableEq, Repr

/-- What a held line does when released (R173). -/
inductive Dest where
  | sap (line : Nat)
  | hbm (line : Nat)
  | host (line : Nat)
  /-- One line of transfer number `seq` on a route from this bough: the line's index in the transfer. -/
  | xfer (route : Nat) (seq : Nat) (index : Nat) (lastLine : Bool) (tag : Int)
  | knot (n : Nat)
  | completion (task : Nat)
  /-- Pre-image of an accumulator line (R176). -/
  | preImage (line : Nat)
  deriving DecidableEq, Repr

/-- A 64-byte line of accumulator memory: 16 partials, each with its exponent tag (R127, R163). -/
structure AccLine where
  vals : List Int := []
  tags : List Int := []
  valid : Bool := false
  /-- HBM line whose poison it carries (R320). -/
  poison : Option Nat := none
  /-- Epoch that last wrote it, plus 1; 0 for none. -/
  writer : Nat := 0
  deriving DecidableEq, Repr

/-- A line of the write-hold buffer (R173). -/
structure HeldLine where
  epoch : Nat
  task : Nat
  op : Nat
  dest : Dest
  /-- Bytes written: offset in the line and value. -/
  bytes : List (Nat × Byte) := []
  /-- The accumulator line a pre-image keeps. -/
  acc : AccLine := {}
  /-- Its epoch has retired. -/
  retired : Bool := false
  poison : Option Nat := none
  /-- Ranges that its whole STORE writes (R214). -/
  span : List (Nat × Nat) := []
  /-- It holds a graft's status record, which follows every other line of its task (R245). -/
  status : Bool := false
  deriving DecidableEq, Repr

/-- Where the twig stands (R181 checkpoint). -/
structure Ckpt where
  pc : Nat := 0
  /-- Shared counters of depths 0 to 5 (R190). -/
  counters : List Nat := [0, 0, 0, 0, 0, 0]
  /-- Latched bounds of shared depths (R200). -/
  bounds : SMap Nat := []
  /-- Latched extents by descriptor: (extent_k, extent_m) (R200). -/
  extents : SMap (Nat × Nat) := []
  /-- Leaf map generation at first issue, and the leaf that served each slot (R182). -/
  mapGen : Nat := 0
  slotMap : SMap Nat := []
  deriving DecidableEq, Repr

/-- A read of the twig that awaits its data (R200, R213): a FETCH run from HBM or host memory into sapwood. -/
structure PendRead where
  epoch : Nat
  task : Nat
  op : Nat
  src : Addr
  dst : Nat
  len : Nat
  /-- Response mode of its stand when it was issued: true = poison mode (R319). -/
  poison : Bool := false
  /-- Its requests to host memory have been issued (R287). -/
  asked : Bool := false
  deriving DecidableEq, Repr

/-- Why an epoch fails (R179, R183, R184, R320). -/
inductive EpochFail where
  | check (leaf group : Nat) (d : Int) (tau : Nat) (codes digits : List Byte)
  | markedFailed (leaf : Nat)
  | parity (leaf : Nat)
  /-- A parity error of a memory read (Table 14-1 row 2), with the sapwood line. -/
  | memParity (line : Nat)
  | leafState (slot : Nat)
  | descriptor (addr : Nat)
  | poison (addr : Nat)
  | peerReset (detail : Word)
  deriving DecidableEq, Repr

/-- An epoch (R169). -/
structure Epoch where
  num : Nat
  task : Nat
  /-- Opened by a DRIVE: it is a tile. -/
  tile : Bool := false
  ckpt : Ckpt := {}
  /-- Opened at its task's start or resumption (R169). -/
  start : Bool := false
  /-- BGH_RA_CTRL.check_replay_max and BGH_QNT_CTRL as they stood at its issue (R159, R171), and malformed blocks it met (R120). -/
  replayMax : Nat := 1
  qnt : Word := 0
  badBlocks : Nat := 0
  /-- Layer boundary number at first issue (R171). -/
  layer : Nat := 0
  /-- Phases issued and not yet delivered. -/
  phasesLeft : Nat := 0
  /-- Phases executed (Table 11-5). -/
  phases : Nat := 0
  /-- Operations still executing: pending reads, waits. -/
  opsLeft : Nat := 0
  stats : SMap TStats := []
  fails : List EpochFail := []
  /-- Evaluations for the bias monitor: leaf, group, D, σ_D², FS (R324). -/
  evals : List (Nat × Nat × Int × Rat × Nat) := []
  footprint : Nat := 0
  checkFails : Nat := 0
  satSquashes : Nat := 0
  /-- Knot token held (R263) and route transfers consumed: (route, sender) (R209). -/
  token : Option Nat := none
  consumed : List (Nat × Nat) := []
  /-- Route credits consumed by sends of this epoch: route (R209). -/
  sends : List Nat := []
  /-- Accumulator lines initialised by this epoch (R163). -/
  inits : List Nat := []
  /-- Sapwood bytes its operations read: offset and length (R175). -/
  readBytes : List (Nat × Nat) := []
  /-- Gains latched for its phases: leaf ↦ column ↦ gain (R70); by leaf the slot in use with the highest recorded load, that load and the trim generation (R73); junction temperature at the tile's first phase, 1/256 °C (R323). -/
  gains : SMap (SMap Rat) := []
  mism : SMap (Nat × Nat × BitVec 8) := []
  temp : Int := 0
  deriving DecidableEq, Repr

/-- What the twig waits for at its present operation. -/
inductive TwigWait where
  | none
  /-- A run-time value in HBM (R200). -/
  | ptr
  /-- Held lines (R177). -/
  | lines
  /-- A dependency under R174, R175 or R215. -/
  | dep
  | knot (n : Nat)
  /-- An XRECV: its route, the tensor of its output and the accumulator lines that it adds into (R210). -/
  | xrecv (route tensor : Nat) (lines : List Nat)
  /-- A calibration slot of an ACTIVE leaf (R54, R69). -/
  | cal
  /-- A route credit (R209). -/
  | credit
  /-- A run-time value met an uncorrectable word at this address (Table 14-2). -/
  | ue (a : Nat)
  deriving DecidableEq, Repr

/-- A table slot of cambium (R164). -/
structure TabSlot where
  y : List Int := []
  nlFrac : Nat := 0
  outFmt : Fmt := .int8
  preTensor : Nat := 0
  outTensor : Nat := 0
  deriving DecidableEq, Repr

/-- Corrected values of one vector on one slot, waiting for their turn in the fixed order of R208. -/
structure Contrib where
  epoch : Nat
  dslot : Nat
  outIdx : Nat
  init : Bool
  last : Bool
  tag : Int
  /-- Logical columns that are written (R206). -/
  cols : List Nat
  tensor : Nat
  ys : List Int
  poison : Option Nat := none
  deriving DecidableEq, Repr

/-- A transfer released toward a receiver: lines, tags, and whether its last line has left the sender (R209). -/
structure InXfer where
  seq : Nat
  data : List Byte := []
  tags : List Int := []
  poison : Option Nat := none
  whole : Bool := false
  deriving DecidableEq, Repr

/-- A transfer that has landed in staging (R209): number and tags of its lines. -/
structure Landed where
  seq : Nat
  /-- Lines landed. -/
  lines : Nat
  tags : List Int := []
  deriving DecidableEq, Repr

/-- A task to be resumed, with its checkpoint: one that yielded (R246), or one whose first epoch was undone (R181). -/
structure Yielded where
  task : Task
  ckpt : Ckpt
  /-- A squash undid its first epoch: it is issued again before any other task (R181). -/
  redo : Bool := false
  deriving DecidableEq, Repr

/-- State field of BGH_STATUS (Table 7-6). -/
inductive BState where
  | idle | running | draining | squashing | drained | fenced | inReset
  deriving DecidableEq, Repr

/-- One bough. -/
structure Bough where
  fenced : Bool := false
  fenceCause : Nat := 0
  -- Clock and power
  freqMhz : BitVec 11 := 0
  clockStopped : Bool := false
  newFreq : Option (BitVec 11) := none
  parked : Bool := false
  -- Twig
  task : Option Task := none
  /-- Dispatched, waiting to issue, oldest first (R258, R181). -/
  waiting : List Task := []
  /-- Tasks that issue nothing more, not completed. -/
  ending : List Task := []
  /-- Tasks that yielded or drained for a test or a power-state entry, the last to drain first. -/
  yielded : List Yielded := []
  program : Nat := 0
  ck : Ckpt := {}
  wait : TwigWait := .none
  /-- The run-time values that the present operation reads from HBM have arrived (R200). -/
  ptrOk : Bool := false
  epochs : List Epoch := []
  nextEpoch : BitVec 16 := 1
  retiredEpoch : BitVec 16 := 0
  issuedEpoch : BitVec 16 := 0
  retireCnt : DWord := 0
  /-- Layer boundaries crossed (R171). -/
  layer : Nat := 0
  draining : Bool := false
  drained : Bool := false
  /-- Replay counts kept while a squashed epoch is issued again: (number, check failures, saturation squashes, slot map). -/
  replay : List (Nat × Nat × Nat × SMap Nat) := []
  reads : List PendRead := []
  -- Write-hold buffer and memories
  held : List HeldLine := []
  highWater : BitVec 13 := 0
  sapwood : List Host.Cell := []
  /-- Poisoned sapwood lines: line ↦ HBM line (R320), and lines with a parity error. -/
  sapPoison : SMap Nat := []
  sapParity : List Nat := []
  acc : SMap AccLine := []
  tables : SMap TabSlot := []
  /-- Contributions waiting for their turn. -/
  contribs : List Contrib := []
  /-- Transfers on their way to this bough, and transfers landed in staging, by route × 16 + sender (R209). -/
  inbound : SMap (List InXfer) := []
  landed : SMap (List Landed) := []
  /-- Transfers released by this bough, by route; credits in use, by route; transfers consumed, by route × 16 + sender. -/
  sent : SMap Nat := []
  credits : SMap Nat := []
  received : SMap Nat := []
  -- Registers of Tables 7-8 to 7-12
  raCtrl : Word := 0x128#32
  stalledCredit : Bool := false
  squashCnt : Word := 0
  failCnt : Word := 0
  lastSquash : Word := 0
  depStalls : BitVec 16 := 0
  holdStalls : BitVec 16 := 0
  pipeErr : BitVec 5 := 0
  -- Quantisation registers (Table 6-6)
  qntCtrl : Word := 0xC2#32
  /-- Its value at the last tile issued, by which the engine acts (R159). -/
  qntNow : Word := 0xC2#32
  qntLast : Word := 0
  convHiCnt : Word := 0
  convLoCnt : Word := 0
  clipCnt : Word := 0
  nonfiniteCnt : Word := 0
  qntSquashCnt : Word := 0
  persistCnt : Word := 0
  rangeRaised : BitVec 16 := 0
  rangeLowered : BitVec 16 := 0
  badBlockCnt : Word := 0
  -- Integrity
  /-- Stage-1 parity errors: (trunk time, leaf) (R328). -/
  parityLog : List (Nat × Nat) := []
  logicDue : Bool := false
  /-- The deferral limit has expired: stop at the next layer boundary (R332). -/
  logicStop : Bool := false
  logicRunning : Bool := false
  /-- Partner under test with this bough. -/
  logicPartner : Nat := 0
  /-- Program operations queued for the charge pump (R107): member ids in order. -/
  progQueue : List Nat := []
  deriving DecidableEq, Repr

end Sys2Proof.Machine
end

