-- ==== Sys2Proof/Machine/TypesQueue.lean ====
section
/-! DEFINITION. Queues, knots and PCIe state (chapters 11 and 12). -/

namespace Sys2Proof.Machine

/-- Queue classes (Table 11-1). -/
inductive QClass where
  | slot | bulk | adapt | maint
  deriving DecidableEq, Repr

/-- Gates of a queue (Table 11-1 policy [2:1]). -/
inductive QGate where
  | none | sync | knot
  deriving DecidableEq, Repr

/-- Software's half of a queue descriptor, bytes 0 to 31 of Table 11-1. -/
structure QDesc where
  sqBase : Addr := .none
  cqBase : Addr := .none
  sqLog2 : Nat := 1
  cqLog2 : Nat := 1
  cls : QClass := .slot
  /-- 0 to 3 = stand, 4 = trunk. -/
  owner : Nat := 0
  hold : Bool := false
  gate : QGate := .none
  gateHold : Bool := false
  irqAll : Bool := false
  irqExc : Bool := false
  maxInflight : Nat := 1
  gateKnot : Nat := 0
  msixVector : Nat := 0
  function : Nat := 0
  coalCount : Nat := 1
  coalUs : Nat := 0
  deriving DecidableEq, Repr

/-- A queue as its owner runs it: the descriptor read at ENABLE and the device-owned half (R251). A queue that is not listed is disabled. -/
structure QRun where
  desc : QDesc := {}
  sqTail : Word := 0
  sqHead : Word := 0
  cqTail : Word := 0
  cqHead : Word := 0
  dropped : Word := 0
  missed : Word := 0
  enabled : Bool := false
  halted : Bool := false
  haltCause : Byte := 0
  /-- Unused releases of a gated queue and a held edge (R260). -/
  releases : Nat := 0
  heldEdge : Bool := false
  /-- The queue waits for a token of its gate knot (R261). -/
  waitsKnot : Bool := false
  /-- Ids of its tasks dispatched and not completed. -/
  inflight : List Nat := []
  /-- Doorbell kept and not yet acted on: sq_tail and cq_head (R252). -/
  pendingDb : Option (Word × Word) := none
  /-- Completions not yet covered by an interrupt (R267). -/
  uncovered : Nat := 0
  /-- A ring read from host memory is out, and the head record it brought (R253). -/
  reading : Bool := false
  fetched : Option (List Byte) := none
  /-- DISABLE or FLUSH in progress (R251, R269). -/
  disabling : Bool := false
  flushing : Bool := false
  /-- Completions owed by outstanding long operations of a command queue (R271). -/
  owed : Nat := 0
  /-- Its descriptor is in the scheduler's cache (R256). -/
  cached : Bool := false
  /-- Stamp of its last use there, the model's own order of use. -/
  used : Nat := 0
  /-- Halted by a Function Level Reset of its function: completions are discarded (R280). -/
  flr : Bool := false
  deriving DecidableEq, Repr

/-- Who waits on a knot, in order (R263). -/
inductive KWaiter where
  | bough (b : Nat)
  | queue (q : Nat)
  /-- An armed collective entry (R300). -/
  | coll (e : Nat)
  deriving DecidableEq, Repr

/-- A knot (R262); its reset value is R265's. -/
structure Knot where
  t : BitVec 16 := 1
  l : BitVec 16 := 1
  p : BitVec 16 := 0
  k : BitVec 16 := 0
  f : Word := 0
  overflow : Bool := false
  waiters : List KWaiter := []
  deriving DecidableEq, Repr

/-- The queue engine's registers (Table 11-9). -/
structure Que where
  ctrl : Bool := false
  tableBase : DWord := 0
  ctxBase : DWord := 0
  cmdBusy : Bool := false
  cmdResult : Byte := 0
  /-- Operation and queue of the command in progress. -/
  cmdOp : BitVec 4 := 0
  cmdQueue : Nat := 0
  falling : Bool := false
  syncEn : Bool := false
  syncCnt : Word := 0
  dbErr : Word := 0
  holdCtx : BitVec 18 := 0
  holdCause : Byte := 0
  holdQueue : BitVec 20 := 0
  knotSel : BitVec 16 := 0
  opLeaf : BitVec 9 := 0
  opHandle : BitVec 16 := 0
  queues : SMap QRun := []
  knots : SMap Knot := []
  /-- Command queue served last, for the trunk's round-robin (R272). -/
  lastCmdQueue : Nat := 0
  /-- Next stamp of use of a cached descriptor, the model's own. -/
  useCtr : Nat := 0
  /-- Number of the next dispatched task, the model's own. -/
  nextTask : Nat := 1
  deriving DecidableEq, Repr

/-- An entry of an MSI-X table (R279). -/
structure MsixEnt where
  addr : DWord := 0
  data : Word := 0
  masked : Bool := true
  deriving DecidableEq, Repr

/-- One PCIe function's configuration state that this manual uses (R279, R280, R287). -/
structure PFunc where
  msixEnable : Bool := false
  busMaster : Bool := false
  relaxedOrder : Bool := true
  /-- Entries changed from the reset value. -/
  msix : SMap MsixEnt := []
  /-- PBA: vectors with a pending message. -/
  pba : List Nat := []
  deriving DecidableEq, Repr

/-- Fields of the physical function's configuration space that the device's requests obey or report with (Table 12-1), at the reset values of the PCIe Base Specification (log entry 155). -/
structure PCfg where
  /-- Max_Payload_Size and Max_Read_Request_Size in bytes. -/
  payload : Nat := 128
  readRequest : Nat := 512
  tags10 : Bool := false
  ecrcGen : Bool := false
  ecrcCheck : Bool := false
  aspmL1 : Bool := false
  ltr : Bool := false
  /-- Completion timeout: disable, and the range value. -/
  cplDisable : Bool := false
  cplRange : BitVec 4 := 0
  /-- AER holds a reported error of a device request. -/
  aer : Bool := false
  deriving DecidableEq, Repr

/-- A BAR2 access that waits for a wake (R365, Table 16-5). -/
inductive HeldAcc where
  | read (addr len : Nat)
  | write (addr : Nat) (bytes : List (Option Byte))
  /-- A write of QUE_KNOT_SIGNAL for a knot, behind the function's earlier BAR2 writes (R285). -/
  | signal (knot : Nat)
  deriving DecidableEq, Repr

/-- The PCIe block (chapter 12). -/
structure Pcie where
  width : BitVec 5 := 0
  flit : Bool := false
  refclkExt : Bool := false
  /-- The reference input runs, as the bud would detect it now (R276). -/
  refclkIn : Bool := false
  rate : BitVec 3 := 0
  linkState : BitVec 3 := 0
  errStatus : BitVec 7 := 0
  errEvent : BitVec 3 := 0
  errFunc : BitVec 5 := 0
  errAddr : DWord := 0
  dmaErr : Word := 0
  readyTime : Word := 0
  vfFlr : Word := 0
  /-- Virtual functions whose configuration reset is under way. -/
  vfEnable : Bool := false
  numVfs : Nat := 0
  ready : Bool := false
  /-- D-state of the physical function: true = D3hot. -/
  d3hot : Bool := false
  pmeEnable : Bool := false
  pmeStatus : Bool := false
  /-- BAR2 accesses held until the wake ends, oldest first. -/
  heldAcc : List HeldAcc := []
  /-- The memory-space enable and BARs are host configuration; functions by number, 0 = physical. -/
  funcs : SMap PFunc := []
  cfg : PCfg := {}
  deriving DecidableEq, Repr

end Sys2Proof.Machine
end

