-- ==== Sys2Proof/Machine/TypesOps.lean ====
section
/-! DEFINITION. Long operations of the trunk: program members, swap groups, canopy loads, calibrations, field tests, folds and dumps (chapters 03, 04, 09, 10, 11, 14 and 15). -/

namespace Sys2Proof.Machine

/-- One run of the program sequence on one leaf (R91): a PROGRAM_LEAF, or a member of a load's or fold's round. -/
structure Prog where
  /-- Slot of its own long operation; none for a member of a load or fold. -/
  op : Option Nat := none
  /-- Long-operation slot of the load or fold it belongs to. -/
  parent : Option Nat := none
  bough : Nat
  slot : Nat
  /-- Key of its swap group in the trunk's table. -/
  group : Nat
  imageAddr : Nat := 0
  expected : List Byte := []
  /-- Adoption of a SPARE leaf that already holds the digest (R226). -/
  adopt : Bool := false
  leaf : Option Nat := none
  /-- Step of Table 4-3; 1 until ACCEPT ends; 10 = committed, awaiting the swap. -/
  step : Nat := 1
  row : Nat := 0
  pass : Nat := 0
  width : BitVec 2 := 3#2
  /-- Payload bytes as read in step 4 (R93), row by row. -/
  read : List Byte := []
  /-- Columns failed in step 4 and spares that await a repair pass. -/
  failed : List Nat := []
  newSpares : List Nat := []
  /-- Columns whose spare failed in the repair pass under way (R96). -/
  repairBad : List Nat := []
  iterSum : Nat := 0
  iterMax : Nat := 0
  suspended : Bool := false
  suspendedAt : Nat := 0
  /-- Groups fenced during this programming (R96, R97). -/
  newFence : Word := 0
  /-- Full handle of the load it waits for at step 1 (R230). -/
  waitsFor : Option Nat := none
  deriving DecidableEq, Repr

/-- A swap group (R99 to R101). -/
structure Group where
  gid : Nat := 0
  size : Nat := 1
  knotMode : Bool := false
  knot : Nat := 0
  members : List Nat := []
  /-- Released: its leaf map write is issued (R100). -/
  released : Bool := false
  /-- The map write is durable: the group is committed. -/
  durable : Bool := false
  /-- Release is held for a load's or fold's own rule (R227). -/
  held : Bool := false
  deriving DecidableEq, Repr

/-- A member of a round: the slot to bring to a digest, by adoption or programming (R226). -/
structure RMember where
  bough : Nat
  slot : Nat
  /-- The spare leaf that it adopts, and the weight width of its reference (R226). -/
  adopt : Option Nat := none
  width : Nat := 0
  addr : Nat
  digest : List Byte
  deriving DecidableEq, Repr

/-- The rounds of a load or fold (R227). -/
structure Rounds where
  /-- Members of the rounds not yet started. -/
  todo : List (List RMember) := []
  rounds : Nat := 0
  round : Nat := 0
  /-- Group of the round in progress. -/
  group : Option Nat := none
  /-- Some round's map write is durable. -/
  committed : Bool := false
  quiescing : Bool := false
  quiesced : Bool := false
  /-- The final map write is issued: SWITCH waits for it. -/
  switching : Bool := false
  deriving DecidableEq, Repr

/-- LOAD_CANOPY in progress (R224, R225). -/
structure LoadOp where
  addr : Nat := 0
  mask : BitVec 4 := 0
  leafBase : Nat := 0
  expected : List Byte := []
  noProgram : Bool := false
  timeoutMs : Nat := 1
  /-- 1 VALIDATE, 2 PROGRAM, 3 QUIESCE, 4 SWITCH. -/
  step : Nat := 1
  canopy : Option Canopy := none
  run : Rounds := {}
  deriving DecidableEq, Repr

/-- CALIBRATE in progress (R79, R80). -/
structure CalibOp where
  /-- Device-wide leaves in scope. -/
  leaves : List Nat := []
  /-- 0 = CURRENT, 1 to 3 = slot 0 to 2. -/
  sel : Nat := 0
  timeoutMs : Nat := 1
  timedOut : Bool := false
  /-- Table 11-7 code of each leaf that is done. -/
  status : SMap Nat := []
  deriving DecidableEq, Repr

/-- FIELD_TEST in progress (R334). -/
structure FTestOp where
  flags : Word := 0
  /-- Parts still to start or finish: leaf part, full verify and unfence by leaf; logic part and unfence by bough. -/
  leafParts : List Nat := []
  verifies : List Nat := []
  logicParts : List Nat := []
  unfenceLeaves : List Nat := []
  unfenceBoughs : List Nat := []
  fenced : Bool := false
  unfenceFailed : Bool := false
  deriving DecidableEq, Repr

/-- FOLD_GRAFT in progress (R247, R248). -/
structure FoldOp where
  context : Nat := 0
  graft : Nat := 0
  scratch : Nat := 0
  timeoutMs : Nat := 1
  /-- Bank active at the fold's start. -/
  bank : Bool := false
  /-- Fold-map entries whose new image is formed, with their digests. -/
  entry : Nat := 0
  digests : List (List Byte) := []
  clamps : Nat := 0
  mask : BitVec 4 := 0
  run : Rounds := {}
  deriving DecidableEq, Repr

/-- A unit the dump engine reads (R352). -/
inductive DumpUnit where
  | device
  | sched (s : Nat)
  | bough (b : Nat)
  | router (s : Nat)
  | hbm (ch : Nat)
  deriving DecidableEq, Repr

/-- A dump (R352): command, or before a stand or warm reset. -/
structure DumpRun where
  /-- 0 = DUMP command, 1 = stand reset, 2 = warm reset. -/
  kind : Nat := 0
  mask : BitVec 4 := 0
  /-- Long-operation slot of a DUMP command; stand of a stand reset. -/
  op : Option Nat := none
  dest : Addr := .none
  size : Nat := 0
  left : List DumpUnit := []
  /-- Sections written so far. -/
  sections : List (List Byte) := []
  unreach : Nat := 0
  truncated : Bool := false
  cancelled : Bool := false
  recSeq : Word := 0
  deriving DecidableEq, Repr

/-- What a long operation does. -/
inductive OpBody where
  | program (pid : Nat)
  | load (l : LoadOp)
  | calib (c : CalibOp)
  | ftest (f : FTestOp)
  | fold (f : FoldOp)
  | dump
  deriving DecidableEq, Repr

/-- A long operation with its handle (R272). -/
structure LongOp where
  gen : BitVec 8 := 0
  opcode : BitVec 16 := 0
  queue : Nat := 0
  sqIndex : Word := 0
  userTag : DWord := 0
  irq : Bool := false
  suspended : Bool := false
  body : OpBody
  deriving DecidableEq, Repr

end Sys2Proof.Machine
end

