-- ==== Sys2Proof/Machine/TypesStand.lean ====
section
/-! DEFINITION. One stand: canopy registers and image in force, scheduler, reset and replay state, heartbeats, HBM controllers and xylem router group (chapters 09, 11, 14 and 15). -/

namespace Sys2Proof.Machine

/-- State of STD_CNP_STATUS (Table 9-15). -/
inductive CnpState where
  | none | loaded | loading | quiesced
  deriving DecidableEq, Repr

/-- STD_RST_STATUS.state (Table 15-9). -/
inductive RstState where
  | normal | dumping | stopping | holding | reinit | restoring | replaying | fenced
  deriving DecidableEq, Repr

/-- Verdict of a suspect (Table 15-9). -/
inductive Verdict where
  | pending | running | cleared | guilty | unresolved
  deriving DecidableEq, Repr

/-- An entry of the suspect list (R354). -/
structure Suspect where
  context : Nat
  bough : Nat
  verdict : Verdict := .pending
  attempts : Nat := 0
  /-- Its ended tasks, in dispatch order, for the replay (R355). -/
  tasks : List Task := []
  deriving DecidableEq, Repr

/-- A replay of suspects (R355). -/
structure Replay where
  bough : Nat
  /-- Index of the suspect under replay. -/
  idx : Nat := 0
  /-- Tasks of the present attempt not yet run to their end. -/
  left : List Task := []
  /-- The stand is being reset after a hang; the replay goes on afterwards. -/
  resetting : Bool := false
  /-- An uncorrectable error ended the attempt without a verdict: it is run again uncounted (Table 15-4). -/
  void : Bool := false
  /-- Every suspect is CLEARED and the boughs that software named run their logic parts (R356). -/
  testing : Bool := false
  deriving DecidableEq, Repr

/-- One stand. -/
structure Stand where
  fenced : Bool := false
  hbmFenced : Bool := false
  fenceCause : Nat := 0
  -- Canopy (chapter 09)
  canopy : Option Canopy := none
  cnpState : CnpState := .none
  cnpAddr : DWord := 0
  cnpPartial : Bool := false
  cnpRound : Byte := 0
  cnpRounds : Byte := 0
  loadStatus : Byte := 0xFF#8
  loadSection : BitVec 4 := 0
  loadEntry : BitVec 16 := 0
  loadCnt : Word := 0
  -- Scheduler (chapter 11)
  schCtrl : Word := 0x00010204#32
  missCnt : Word := 0
  yieldCnt : Word := 0
  /-- Queue served last in each class (R258), class on its turn and dispatches left in it. -/
  lastSlot : Nat := 0
  lastBulk : Nat := 0
  lastAdapt : Nat := 0
  lastMaint : Nat := 0
  turn : QClass := .bulk
  turnLeft : Nat := 4
  schedStopped : Bool := false
  routerStopped : Bool := false
  /-- Dispatch held: by a quiesce (long-operation slot), a power-state entry or a reset. -/
  holdOps : List Nat := []
  -- Reset (chapter 15)
  rstCtrl : Word := 0x40200032#32
  rstState : RstState := .normal
  rstStep : Nat := 0
  rstIgnored : Bool := false
  rstPath : BitVec 2 := 0
  rstTrigger : BitVec 2 := 0
  tablesLost : Bool := false
  writeBackFailed : Bool := false
  suspectOverflow : Bool := false
  cntFallback : BitVec 16 := 0
  cntMain : BitVec 16 := 0
  rstTime : Word := 0
  /-- Trunk time of the request in progress (R351). -/
  rstAt : Nat := 0
  /-- The reset in progress takes the fallback path. -/
  fallback : Bool := false
  /-- Values of the request in progress: dump and replay asked for. -/
  wantDump : Bool := false
  wantReplay : Bool := false
  /-- Tasks the reset ended (R346). -/
  ended : List Task := []
  suspects : List Suspect := []
  replay : Option Replay := none
  hbDispatch : Word := 0
  hbComplete : Word := 0
  -- HBM controllers (Table 14-11)
  hbmCtrl : Word := 0x00400018#32
  ueAddr : DWord := 0
  ueSeen : Byte := 0
  scrubActive : Byte := 0
  ceCnt : SMap Word := []
  ueCnt : SMap Word := []
  poisonResets : BitVec 16 := 0
  poisoned : BitVec 16 := 0
  /-- Corrected errors of the scrub pass of each channel, and whether its record was written. -/
  scrubCe : SMap Nat := []
  -- Xylem parity (Table 14-11)
  xylRetry : BitVec 16 := 0
  xylPoison : BitVec 16 := 0
  xylStatus : BitVec 3 := 0
  deriving DecidableEq, Repr

end Sys2Proof.Machine
end

