-- ==== Sys2Proof/Machine/TypesStore.lean ====
section
/-! DEFINITION. The heartwood store (chapter 17): flash sectors as data, the records they hold, the write queue, slot rings and limited-change counters. -/

namespace Sys2Proof.Machine

/-- Fence record payload (Table 17-13). -/
structure FenceRec where
  boughs : BitVec 16 := 0
  stands : BitVec 4 := 0
  hbm : BitVec 4 := 0
  boughCause : SMap Nat := []
  standCause : SMap Nat := []
  deriving DecidableEq, Repr

/-- Roles of a device (R290). -/
inductive DevRole where
  | standalone | manager | worker
  deriving DecidableEq, Repr

/-- Role record payload (Table 17-13). -/
structure RoleRec where
  role : DevRole := .standalone
  ring : Nat := 0
  position : Nat := 0
  systemId : Word := 0
  ringLen : List Nat := [0, 0, 0, 0]
  deriving DecidableEq, Repr

/-- Leaf map record payload (R88): generation and serving leaf by 16 × bough + slot; none where not listed. -/
structure LeafMap where
  gen : Word := 0
  serve : SMap Nat := []
  deriving DecidableEq, Repr

/-- Owner policy payload (Table 17-13). -/
structure Policy where
  seq : Word := 0
  requireOwnerFw : Bool := false
  requireSignedCanopy : Bool := false
  allowDebug : Bool := false
  deriving DecidableEq, Repr

/-- Slot state payload (Table 17-13). -/
structure SlotState where
  active : Nat := 1
  trial : Nat := 0
  attempts : Nat := 0
  deriving DecidableEq, Repr

/-- Factory record payload (Table 17-4, R2). -/
structure FactoryRec where
  partCode : BitVec 16
  stepping : Byte
  map : BitVec 16
  deriving DecidableEq, Repr

/-- Payload of a record by its key (Table 17-4). -/
inductive Payload where
  | factory (f : FactoryRec)
  | helper (bytes : List Byte)
  | refCodes (codes : List Nat)
  | leaf (r : LeafRec)
  | leafMap (m : LeafMap)
  | fence (f : FenceRec)
  | role (r : RoleRec)
  | ownerKey (pk : List Byte)
  | policy (p : Policy)
  | slotState (s : SlotState)
  | xmss (limit : Nat)
  | ring (value : Nat)
  | raw (bytes : List Byte)
  deriving DecidableEq, Repr

/-- A record (Table 17-3). -/
structure Rec where
  key : Nat
  seq : Word := 0
  payload : Payload
  deriving DecidableEq, Repr

/-- State byte of a sector header (Table 17-5). -/
inductive SecState where
  | erased | opened | full | reclaiming | bad
  /-- A header that is neither valid nor ERASED (after an interrupted erase or opening). -/
  | torn
  deriving DecidableEq, Repr

/-- A record's place in a sector: offset, record, and whether it is valid (R377). -/
structure Placed where
  off : Nat
  entry : Rec
  valid : Bool := true
  deriving DecidableEq, Repr

/-- A sector of the log (R375). -/
structure Sector where
  state : SecState := .erased
  seq : Nat := 0
  erases : Nat := 0
  /-- Records in offset order. -/
  recs : List Placed := []
  /-- First offset free for a record. -/
  free : Nat := 16
  /-- A RECLAIMING sector's live records have been copied (R389 step 2). -/
  copied : Bool := false
  deriving DecidableEq, Repr

/-- A slot ring (R391): value, sequence and place of its current slot. -/
structure Ring where
  value : Nat := 0
  seq : Word := 0
  sector : Nat := 0
  slot : Nat := 0
  /-- A sector was lost: the ring runs in the log (R390). -/
  inLog : Bool := false
  /-- The sector just left waits for its erase; an erase of it was interrupted. -/
  eraseDue : Bool := false
  torn : Bool := false
  erases : Nat := 0
  deriving DecidableEq, Repr

/-- Limited-change counters (Table 17-9): value, and whether the next unit is partly programmed. -/
structure Counters where
  ownership : Nat := 0
  svn : Nat := 0
  lifecycle : Nat := 0
  debug : Nat := 0
  tornUnit : Bool := false
  deriving DecidableEq, Repr

/-- Which counter an increment programs. -/
inductive CounterId where
  | ownership | svn | lifecycle | debug
  deriving DecidableEq, Repr

/-- Who is told when a write is durable or refused. -/
inductive Requester where
  | none
  /-- Step 7 of a program member, or the erase that ends one. -/
  | prog (pid : Nat)
  /-- A leaf map write with the groups it releases. -/
  | groups (g : List Nat)
  /-- A management message being served. -/
  | mgmt
  /-- A leaf record written for a reset stand's leaf or a leaf on its own. -/
  | leaf (l : Nat)
  deriving DecidableEq, Repr

/-- A queued write (R382). -/
inductive WriteReq where
  | record (r : Rec) (who : Requester)
  | ring (i : Nat) (value : Nat)
  | counter (c : CounterId) (who : Requester)
  deriving DecidableEq, Repr

/-- HWS_STATUS.state (Table 17-11). -/
inductive StoreState where
  | ready | recovering | readOnly
  deriving DecidableEq, Repr

/-- What the store is doing. -/
inductive StoreOp where
  | idle
  | write (reqs : List WriteReq)
  /-- Background erase of a log sector, or of the ring sector just left. -/
  | erase (sector : Nat)
  | compact (sector : Nat)
  | ringErase (i : Nat)
  deriving DecidableEq, Repr

/-- A firmware slot's image (Table 18-2), as written. -/
structure FwSlot where
  bytes : List Byte := []
  erased : Bool := true
  deriving DecidableEq, Repr

/-- The heartwood store. -/
structure Store where
  /-- Records of the factory section, with the validity of their CRC-32C (R3, R377). -/
  factory : List Placed := []
  log : SMap Sector := []
  rings : List Ring := [{}, {}, {}]
  counters : Counters := {}
  slotA : FwSlot := {}
  slotB : FwSlot := {}
  state : StoreState := .recovering
  busy : StoreOp := .idle
  queue : List WriteReq := []
  errStatus : BitVec 6 := 0
  ignored : Word := 0
  writeCnt : Word := 0
  scanTime : BitVec 16 := 0
  badSectors : Byte := 0
  /-- Open log sector. -/
  openSec : Option Nat := none
  /-- The last power-up recovery found something and its record is still to be written (Table 17-12). -/
  recNote : Bool := false
  /-- On-die index of current records (Table 17-7 step 6). -/
  index : SMap Rec := []
  deriving DecidableEq, Repr

end Sys2Proof.Machine
end

