-- ==== Sys2Proof/Machine/TypesTrunk.lean ====
section
/-! DEFINITION. Trunk, bud, Aetholo, management and test-port state (chapters 00, 13 to 16, 18 and 19). -/

namespace Sys2Proof.Machine

/-- Stages of start-up (Tables 18-1 and 19-8). -/
inductive BootStage where
  /-- No 12 V, or rails switched off. -/
  | off
  /-- Rails up, store recovery running. -/
  | recovering
  /-- PWR_GOOD released, PERST_N low. -/
  | waiting
  /-- PERST_N released, the trunk's reset held until the store is idle (R386). -/
  | held
  /-- Boot ROM running, chosen slot under verification. -/
  | verifying
  /-- The other slot under verification. -/
  | verifyOther
  /-- HBM training, fences, markers. -/
  | training
  | readback
  | selfCheck
  | calibrating
  | ready
  /-- Thermal trip: every island but the bud is unpowered (R373). -/
  | tripped
  deriving DecidableEq, Repr

/-- Kinds of error record (Tables 14-8, 15-10, 16-8, 17-12, 18-7 and 19-16). -/
inductive RKind where
  | factoryRecord | calMismatch | reprogramDue | markerFound | mapMarker | readbackFail | endurance | refFault
  | checkFail | bias | fence | hbmCe | hbmUe | parity | poison | holdFault | imageLost | ringDisabled | collDigest
  | ftResult | digestMismatch | diagnosis | reset | tablesLost | hangGuilty | dump | pwrRefused | throttle
  | thermalTrip | capExceeded | storeRecovery | storeBadSector | storeReadOnly | fwVerifyFail | bootRecovery
  | trialReverted | ownerChanged | debugGranted | identityFail | xmssLow | vinLow
  /-- The record of R400, to which no table gives a kind. -/
  | ownerMissing
  deriving DecidableEq, Repr

/-- An error record (Table 14-7) as data; its bytes follow from it. -/
structure ERec where
  seq : Word := 0
  severity : Nat := 0
  source : Nat := 0
  kind : RKind
  unit : Word := 0
  opcode : Byte := 0xFF#8
  signature : Bool := false
  opIndex : BitVec 16 := 0
  queue : Word := 0xFFFFFFFF#32
  context : Word := 0xFFFFFFFF#32
  cycles : DWord := 0
  hostEpoch : DWord := 0
  temp : BitVec 16 := 0
  supply : BitVec 16 := 0
  detail : Word := 0
  detail2 : DWord := 0
  repeats : BitVec 16 := 0
  lost : BitVec 16 := 0
  deriving DecidableEq, Repr

/-- Spacing state of a record kind and unit (R337). -/
structure Spacing where
  kind : RKind
  unit : Word
  /-- Trunk time of the last record delivered. -/
  at_ : Nat
  repeats : BitVec 16 := 0
  deriving DecidableEq, Repr

/-- Field-test schedule and due parts (R332, R334). -/
structure Sched where
  leafInterval : Byte := 10
  logicInterval : Byte := 60
  slotDefer : Byte := 5
  deriving DecidableEq, Repr

/-- An ended long operation as QUE_OP_STATUS shows it until its slot is used again: handle, final status, the leaves' codes of a CALIBRATE and the clamps of a FOLD_GRAFT. -/
structure OpDone where
  handle : Nat
  code : Nat
  leaves : SMap Nat := []
  /-- Clamped weights of a FOLD_GRAFT (R248). -/
  clamps : Nat := 0
  deriving DecidableEq, Repr

/-- The trunk. -/
structure Trunk where
  boot : BootStage := .off
  /-- Firmware runs: not in the boot ROM, not in reset. -/
  fwRunning : Bool := false
  recovery : Bool := false
  partId : Word := 0
  coreMap : BitVec 16 := 0
  -- Reset registers (Table 15-9)
  warmDump : Bool := true
  warmBusy : Bool := false
  lastCause : BitVec 4 := 0
  warmCount : BitVec 16 := 0
  hb0 : BitVec 16 := 0
  hb1 : BitVec 16 := 0
  hostEpoch : DWord := 0
  recBase : DWord := 0
  recEnable : Bool := false
  recVector : BitVec 11 := 0
  recIrqEn : Bool := false
  recLog2 : BitVec 5 := 0x0A#5
  recHead : Word := 0
  recTail : Word := 0
  recLost : Word := 0
  dumpBase : DWord := 0
  dumpHost : DWord := 0
  dumpHostKib : BitVec 16 := 0
  dumpBaseKib : BitVec 16 := 0
  dumpStatus : Byte := 0xFF#8
  dumpUnreach : BitVec 7 := 0
  dumpLen : BitVec 16 := 0
  /-- Dumps waiting for the engine, the one under way first. -/
  dumps : List DumpRun := []
  -- Warm reset machine (R348): step in progress, 0 = none
  warmStep : Nat := 0
  /-- Some stand of the warm reset took the fallback path. -/
  warmFell : Bool := false
  /-- A reset answered before it begins (R423): nothing further is kept. -/
  warmSys : Bool := false
  /-- The warm reset met Dormant or a wake: the boughs are powered up anew and need their start-up calibration (R72). -/
  warmPower : Bool := false
  -- Error records
  recSeq : Word := 0
  onDie : List ERec := []
  spacing : List Spacing := []
  lost : BitVec 16 := 0
  -- Long operations (R272)
  ops : SMap LongOp := []
  /-- Generation of the next use of each handle slot. -/
  opGen : SMap (BitVec 8) := []
  /-- Ended operations by slot. -/
  opDone : SMap OpDone := []
  progs : SMap Prog := []
  nextProg : Nat := 1
  groups : SMap Group := []
  nextGroup : Nat := 1
  -- Leaf map in force (R88)
  map : LeafMap := {}
  sched : Sched := {}
  -- Security (chapter 18)
  identityOk : Bool := false
  identityPk : List Byte := []
  debugActive : Bool := false
  runningSlot : Nat := 0
  bootResult : BitVec 2 := 0
  /-- Slot tried after the chosen one fails (R396). -/
  otherSlot : Nat := 0
  /-- The firmware's slot-state write after readiness is still to be made (R396). -/
  confirmDue : Bool := false
  slotASvn : Byte := 0xFF#8
  slotBSvn : Byte := 0xFF#8
  verifyTime : BitVec 16 := 0
  xmssNext : Nat := 0
  xmssLimit : Nat := 0
  /-- Height-15 subtree that is built (R404). -/
  subtree : Option Nat := none
  nonce : Option (List Byte) := none
  fwDigest : List Byte := []
  /-- Failed checks of slots tried at boot: slot and first failed check. -/
  fwFails : List (Nat × Nat) := []
  /-- Open firmware update: bytes received so far (R422). -/
  fwUpdate : Option (List Byte) := none
  /-- PUF response bytes as measured (R403). -/
  puf : List Byte := []
  /-- Trunk clock, units of 100 µs: governor intervals since power-up. -/
  time : Nat := 0
  deriving DecidableEq, Repr

/-- BUD_PWR_STATUS.state apart from SHADE, which is computed (R360). -/
inductive PwrState where
  | full | entering | dormant | waking | bare
  deriving DecidableEq, Repr

/-- Bud, governor and thermal state (Table 16-7). -/
structure Bud where
  power : PwrState := .full
  lastWake : BitVec 4 := 0
  pwrCtrl : Word := 0x000A0A01#32
  pwrMode : BitVec 2 := 0
  wakeEn : BitVec 4 := 0b1011#4
  wakeLatch : BitVec 4 := 0
  /-- A wake event without a bit in BUD_WAKE_LATCH that came during an entry: its last_wake code, 0 = none (R364). -/
  wakeOther : Nat := 0
  refused : BitVec 16 := 0
  abortedCnt : BitVec 16 := 0
  reasonAborted : Bool := false
  reason : BitVec 4 := 0
  refuseUnit : Word := 0
  bareCnt : BitVec 16 := 0
  dormantCnt : BitVec 16 := 0
  capW : BitVec 7 := 0x5A#7
  /-- Cap in force, from the last interval (R372). -/
  capNow : Nat := 90
  /-- Grant g, leaf-phases per second (R370). -/
  grant : Rat := 16000000000
  fPct : BitVec 7 := 0x64#7
  /-- Remedies applied: steps of f_b lowered, then boughs parked. -/
  fSteps : Nat := 0
  parkNext : Nat := 0
  parking : Bool := false
  cadence : BitVec 7 := 0
  working : BitVec 9 := 0
  loadPct : Byte := 0
  /-- Interval powers of the last 1 ms, 0.1 W, newest first (R369). -/
  powers : List Nat := []
  mean : BitVec 16 := 0
  peak : BitVec 16 := 0
  /-- A CAP_EXCEEDED record was written under the present cap (R371). -/
  capRecorded : Bool := false
  thermCtrl : BitVec 16 := 0x6964#16
  tripped : Bool := false
  throttling : Bool := false
  thermN : Bool := false
  hotIsland : BitVec 5 := 0
  tMax : BitVec 16 := 0
  /-- Sensors that read 115 °C or more in the last sample (R373). -/
  hotLast : List Nat := []
  /-- The trip's record has been written at a start-up (R373). -/
  tripNoted : Bool := false
  capExceed : BitVec 16 := 0
  throttleCnt : BitVec 16 := 0
  /-- Trunk time of the last throttled interval and of the last VIN below 11.4 V. -/
  lastThrottle : Option Nat := none
  lastVinLow : Option Nat := none
  /-- Junction temperature of each island, 1/256 °C (Table 19-14). -/
  temps : SMap Int := []
  hbmTemp : SMap Int := []
  vinMv : Nat := 0
  inMa : Nat := 0
  -- Power states
  entryStep : Nat := 0
  entryTarget : Nat := 0
  wakeStep : Nat := 0
  /-- A SYNC_IN edge latched for delivery at the end of a wake (R364). -/
  syncLatched : Bool := false
  -- Pins
  pwrGood : Bool := false
  /-- PERST_N level: true = asserted (low). -/
  perst : Bool := true
  railFault : Bool := false
  edgeStopped : Bool := false
  deriving DecidableEq, Repr

/-- Messages on the Aetholo links (chapter 13). -/
inductive AelMsg where
  /-- With the ring's length, which a worker's routes need (log entry 18). -/
  | discovery (n : Nat)
  /-- With the number of workers that have passed it on, which gives its place (R293, log entry 18). -/
  | discoveryAnswer (ring position : Nat) (systemId : Word) (hops : Nat)
  | arrival (dev entry : Nat) (stand : Nat) (sig : List Byte)
  /-- A worker's arrival says which run it starts; `sig` is its entry's shared fields. -/
  | resultDone (dev entry : Nat)
  | release (entry : Nat)
  /-- A transfer of a run: entry, sending device, incarnation, entry stand, toward the manager, half (0 whole, 1, 2; 3 a worker root's data, which only the manager takes), data and digest. -/
  | transfer (entry dev : Nat) (inc : BitVec 16) (stand : Nat) (up : Bool) (half : Nat) (data : List Byte) (digest : DWord)
  /-- A receiver's report of a failed digest, and the manager's order to run again or to end. -/
  | digestFail (entry dev : Nat)
  | rerun (entry : Nat)
  | endRun (entry : Nat) (status : Byte) (dev stand : Nat)
  /-- Toward the manager, or from it (R297). -/
  | signal (dev knot : Nat) (up : Bool)
  | sysReset
  | resetNotice (dev stand : Nat) (warm : Bool) (inc : BitVec 16)
  | peerNotice (dev stand : Nat) (reason : Nat) (inc : BitVec 16)
  deriving DecidableEq, Repr

/-- What a flit carries: flit `k` of a message, a replay request from a sequence number, or a credit return alone (R295, R296). -/
inductive FlitBody where
  | part (m : AelMsg) (k : Nat) (last : Bool)
  | replay (seq : BitVec 12)
  | credit
  deriving DecidableEq, Repr

/-- A flit as it was sent, which a replay sends again: sequence number, credit return, its channel and the body (Table 13-1). -/
structure SentFlit where
  seq : BitVec 12 := 0
  creditRet : Nat := 0
  creditVc : Nat := 0
  body : FlitBody
  deriving DecidableEq, Repr

/-- State of a port (Table 13-6). -/
inductive PortState where
  | down0 | training | up | down | ringDisabled
  deriving DecidableEq, Repr

/-- One link: a worker's port at ×8, or a half-link of a manager's port (R292, R295, R296). -/
structure Link where
  up : Bool := false
  /-- Sequence number of the next flit to deliver, and consecutive replays of it. -/
  rxSeq : BitVec 12 := 0
  replays : Nat := 0
  /-- Sequence number of the next flit to send; flits held for replay, oldest first. -/
  txSeq : BitVec 12 := 0
  held : List SentFlit := []
  /-- Credits held of VC0 to VC2. -/
  credits : List Nat := [32, 128, 128]
  /-- Credits to return for flits taken, by channel. -/
  owed : List Nat := [0, 0, 0]
  /-- Flits that wait for a credit or for a training link, with their channels. -/
  waiting : List (Nat × FlitBody) := []
  training : Bool := false
  /-- A flit failed before the link retrained: its replay is requested once the link is up. -/
  replayDue : Bool := false
  deriving DecidableEq, Repr

/-- One Aetholo port (Table 13-6): a worker uses `linkA` alone. -/
structure Port where
  state : PortState := .down0
  peer : BitVec 7 := 0
  fec : Word := 0
  replay : Word := 0
  retrain : Word := 0
  linkA : Link := {}
  linkB : Link := {}
  deriving DecidableEq, Repr

/-- Fields of a collective entry (Table 13-2). -/
structure CollEnt where
  op : Nat := 1
  dtype : Nat := 0
  func : Nat := 0
  ringMask : BitVec 4 := 0
  trigger : Nat := 0
  done : Nat := 0
  src : Nat := 0
  dst : Nat := 0
  bytes : Nat := 0
  root : Nat := 0
  peer : Nat := 0
  peerKnot : Nat := 0
  deriving DecidableEq, Repr

/-- A run of an armed entry on this device (R300). -/
structure CollRun where
  /-- Second attempt after a failed digest (R304). -/
  again : Bool := false
  /-- Manager: participants that have started, with their entry stands, and contributions received by ring × 2 + side. -/
  arrived : List (Nat × Nat) := []
  /-- Own start has been made (a run may hold data that came before it). -/
  started : Bool := true
  parts : SMap (List Byte) := []
  /-- Manager: workers that hold the whole result of a broadcast. -/
  confirmed : List Nat := []
  /-- Result data ready for dst. -/
  result : Option (List Byte) := none
  released : Bool := false
  /-- The run's final status once known, and the device and stand it implicates. -/
  status : Option Byte := none
  implicated : Nat := 0
  stand : Nat := 0
  /-- Order number of the run's start on this device. -/
  order : Nat := 0
  deriving DecidableEq, Repr

/-- An armed collective entry. -/
structure Armed where
  ent : CollEnt
  run : Option CollRun := none
  runs : Word := 0
  status : Byte := 0xFF#8
  /-- Device and stand of the last failure (R303). -/
  failDev : Nat := 0
  failStand : Nat := 0
  deriving DecidableEq, Repr

/-- An arrival or a transfer for an entry that is not armed yet, with the port it came by (log entry 19). -/
structure Early where
  port : Nat
  sideB : Bool
  msg : AelMsg
  deriving DecidableEq, Repr

/-- The Aetholo block (Table 13-6). -/
structure Ael where
  role : RoleRec := {}
  collEn : Bool := false
  collBase : DWord := 0
  armBusy : Bool := false
  armResult : Byte := 0
  armOp : BitVec 2 := 0
  armEntry : Nat := 0
  incarnation : BitVec 16 := 0
  noticeReason : Byte := 0
  noticeStand : BitVec 2 := 0
  noticeDev : BitVec 7 := 0
  digestCnt : Word := 0
  failCnt : Word := 0
  ports : List Port := [{}, {}, {}, {}]
  /-- Rings enabled by discovery (R293). -/
  rings : BitVec 4 := 0
  /-- Answers seen in discovery: (ring, position). -/
  answers : List (Nat × Nat) := []
  discovering : Bool := false
  armed : SMap Armed := []
  /-- Messages held for entries that are not armed yet, oldest first. -/
  early : List Early := []
  /-- Incarnation noticed for each device. -/
  incs : SMap (BitVec 16) := []
  /-- Broken links: ring and link, 0 from side a to n to side b (R298). -/
  breaks : List (Nat × Nat) := []
  /-- Length of the worker's own ring, from discovery. -/
  ringN : Nat := 0
  /-- Manager: a snapshot's cut is set, with the orders of runs before it (R306). -/
  cut : Option Nat := none
  nextOrder : Nat := 0
  /-- Stands whose sending is stopped (R308). -/
  stopped : BitVec 4 := 0
  edgeLinkStopped : Bool := false
  deriving DecidableEq, Repr

/-- Management transports (R421). -/
inductive Transport where
  | smbus | vdm
  deriving DecidableEq, Repr

/-- A management message that waits on the trunk or the store. -/
structure MgmtReq where
  via : Transport
  code : Byte
  /-- Payload of the response that awaits durable writes. -/
  answer : List Byte := []
  instance_ : BitVec 4 := 0
  /-- Store writes still to become durable. -/
  writes : Nat := 0
  /-- What follows when they are. -/
  after : Nat := 0
  deriving DecidableEq, Repr

/-- Management state (Table 19-11). -/
structure Mgmt where
  smbEid : Byte := 0
  vdmEid : Byte := 0
  smbAddr : BitVec 7 := 0x67#7
  alert : BitVec 6 := 0
  alertEn : BitVec 6 := 0x3F#6
  requests : BitVec 16 := 0
  errors : BitVec 16 := 0
  /-- Requests in progress on the trunk, oldest first. -/
  pending : List MgmtReq := []
  deriving DecidableEq, Repr

/-- Instructions of the TAP (Table 19-15). -/
inductive TapInstr where
  | extest | idcode | sample | clamp | highz | extestPulse | extestTrain | bypass
  deriving DecidableEq, Repr

/-- The test access port (R425). -/
structure Tap where
  instr : TapInstr := .idcode
  /-- Boundary register: preloaded output values, last capture. -/
  preload : List Bool := []
  captured : List Bool := []
  /-- What drives the pins: false = the device, true = the boundary register. -/
  driving : Bool := false
  highz : Bool := false
  /-- AC test running: 0 none, 1 pulse, 2 train. -/
  acTest : Nat := 0
  deriving DecidableEq, Repr

/-- What the block sends to the outside. -/
inductive OutEv where
  /-- A posted write to host memory, with the poisoned bit and the Relaxed Ordering bit (R287). -/
  | hostWrite (fn : Nat) (addr : Nat) (bytes : List Byte) (poisoned ro : Bool)
  /-- A read request to host memory, with the Relaxed Ordering bit (R287). -/
  | hostRead (fn : Nat) (addr : Nat) (len : Nat) (ro : Bool)
  | msix (fn vec : Nat) (addr : DWord) (data : Word)
  | readData (bytes : List Byte) (poisoned : Bool)
  | drs
  | cfgRetry
  | cfgDone
  /-- A configuration read completes with a field's value. -/
  | cfgData (value : Nat)
  /-- A configuration request to a function that does not exist. -/
  | cfgUnsupported
  /-- An error of a device request is reported through AER of the physical function (R288). -/
  | aer (fn : Nat) (addr : Nat)
  | pmeToAck
  | pme
  | beacon
  | mgmt (via : Transport) (code : Byte) (completion : Byte) (payload : List Byte)
  | mctp (via : Transport) (cmd : Nat) (payload : List Byte)
  | araResponse (addr : BitVec 7)
  /-- A flit of 256 bytes on a link, and what its payload says (Table 13-1). -/
  | flit (port : Nat) (sideB : Bool) (bytes : List Byte) (body : FlitBody)
  | tdo (value : Word)
  deriving DecidableEq, Repr

end Sys2Proof.Machine
end

