-- ==== Sys2Proof/Machine/TypesObs.lean ====
section
/-! DEFINITION. Operand types of the commands: what the environment or the analogue tier answers. Where the manual leaves a measured value to physics, the command carries it, and no value is chosen by the model. -/

namespace Sys2Proof.Machine

/-- Deviations of measured codes from their ideal, by pattern × 1,152 + column, for the sixteen drives; none listed = every code ideal (R75). -/
structure MeasObs where
  dev : SMap (List Int) := []
  /-- Deviation of the monitor codes of the 128 phases from their block sums, by 16 × phase + block (R52). -/
  monitor : SMap Int := []
  /-- Junction temperature of the bough, 1/256 °C. -/
  temp : Int := 0
  deriving DecidableEq, Repr

/-- What a reference self-check reads: the code of each group, and the monitors' deviations from their block sums (R44, R52). -/
structure RefObs where
  codes : List Nat
  monitor : SMap Int := []
  deriving DecidableEq, Repr

/-- What one leaf-phase measures (R41, R51, R162). -/
structure PhaseObs where
  /-- Deviation of each column's code from the ideal conversion, by physical column. -/
  dev : SMap Int := []
  /-- Deviation of each of the sixteen monitor codes from the block sum. -/
  monitor : SMap Int := []
  /-- Deviation of each group's reference code from its factory code. -/
  refDev : SMap Int := []
  codeParity : Bool := false
  driveParity : Bool := false
  deriving DecidableEq, Repr

/-- What a timed step of the program sequence finds (R92, R96). -/
structure ProgObs where
  /-- Iterations the row took. -/
  iters : Nat := 8
  /-- Physical columns whose cell failed. -/
  failed : List Nat := []
  meas : MeasObs := {}
  deriving DecidableEq, Repr

/-- What a governor interval samples (R369, Table 19-14). -/
structure GovObs where
  /-- Input power over the interval, 0.1 W. -/
  power : Nat
  /-- Junction temperatures by island, 1/256 °C; unlisted islands keep their last sample. -/
  temps : SMap Int := []
  hbmTemp : SMap Int := []
  vinMv : Nat := 12000
  inMa : Nat := 0
  /-- Leaves with phases pending in the interval. -/
  working : Nat := 0
  deriving DecidableEq, Repr

/-- Outcomes of a stage of start-up or wake. -/
structure StartObs where
  /-- Duration of the verification, µs. -/
  timeUs : BitVec 16 := 0
  /-- Stands whose HBM training fails. -/
  untrained : List Nat := []
  /-- Read-back levels that differ from the cells: leaf ↦ (row × 1,152 + column ↦ level). -/
  levels : SMap (SMap Nat) := []
  /-- Reference codes by leaf; a leaf that is not listed reads its factory codes. -/
  refs : SMap (List Nat) := []
  /-- Deviation of the self-check's monitor codes by leaf and block (R52). -/
  refMon : SMap (SMap Int) := []
  /-- Leaves whose derived configuration fails its CRC-32C (R89). -/
  crcFail : List Nat := []
  /-- Start-up measurement by leaf. -/
  meas : SMap MeasObs := []
  /-- µs from PERST_N deassertion to readiness. -/
  readyUs : Word := 0
  /-- Negotiated link: rate, width, flit mode. -/
  rate : BitVec 3 := 6#3
  width : BitVec 5 := 16#5
  flit : Bool := true
  deriving DecidableEq, Repr

/-- Outcomes of a step of a stand or warm reset. -/
structure ResetObs where
  /-- A controller failed to answer the scan path (R345). -/
  scanFail : Bool := false
  /-- Stands of a warm reset whose controllers failed to answer the scan path (R345, R348). -/
  scanStands : List Nat := []
  /-- The write-back of step 3 failed (R346). -/
  writeBackFail : Bool := false
  /-- Retraining on the fallback path failed, by stand. -/
  untrained : List Nat := []
  /-- µs from trigger to the end of step 7. -/
  timeUs : Word := 0
  refs : SMap (List Nat) := []
  refMon : SMap (SMap Int) := []
  /-- Start-up measurement by leaf, where the reset met Dormant or a wake (R72). -/
  meas : SMap MeasObs := []
  verifyUs : BitVec 16 := 0
  deriving DecidableEq, Repr

/-- A reader of HBM that is no bough (Table 14-2): the scheduler or core 0 reading a queue's ring, or another engine. -/
inductive Reader where
  | queue (q : Nat) | other
  deriving DecidableEq, Repr

/-- How a read by such a reader ends when it is not clean (R317, Table 14-1). -/
inductive EngineObs where
  | corrected
  | uncorrectable
  | parity (again : Bool)
  deriving DecidableEq, Repr

/-- How an HBM read ends (R317, Table 14-1). -/
inductive ReadObs where
  | clean
  | corrected
  /-- The n-th 8-byte word of the read. -/
  | uncorrectable (n : Nat)
  /-- A parity error on the read data; reissued. `again`: the second read fails too. -/
  | parity (again : Bool)
  /-- A read of another reader, at an HBM address. -/
  | engine (who : Reader) (addr : Nat) (o : EngineObs)
  deriving DecidableEq, Repr

/-- A part of a patrol-scrub pass (R317). -/
structure ScrubObs where
  /-- Addresses of the words corrected, and of the words found uncorrectable. -/
  ce : List Nat := []
  ue : List Nat := []
  passDone : Bool := false
  deriving DecidableEq, Repr

/-- Outcomes of the leaf part of an in-field test (R330). -/
structure LeafPartObs where
  refs : List Nat := []
  /-- Deviation of the self-check's monitor codes by block. -/
  refMon : SMap Int := []
  meas : MeasObs := {}
  /-- Columns with a cell that fails while the test image of an unfence is programmed (R96, R334). -/
  failed : List Nat := []
  /-- Monitor codes that differ from 15 by row, deviation. -/
  sweep : SMap Int := []
  /-- The sixteen rows of the spot check, and levels read that differ from the cells. -/
  rows : List Nat := []
  levels : SMap Nat := []
  deriving DecidableEq, Repr

/-- A BAR0 access (R281): function, offset, length in bytes, all byte enables set. -/
structure Bar0Acc where
  fn : Nat := 0
  off : Nat
  len : Nat := 4
  full : Bool := true
  deriving DecidableEq, Repr

/-- What allows a pending MSI-X message (R279). -/
inductive MsixAct where
  | enable | busMaster | unmask (vec : Nat)
  deriving DecidableEq, Repr

/-- What a device request to host memory was for (R287, R288). -/
inductive DmaTarget where
  /-- Head record of a task ring. -/
  | ring (q : Nat)
  /-- A FETCH of a bough. -/
  | fetch (b : Nat)
  /-- A pointer-list or run-time value of a bough. -/
  | ptr (b : Nat)
  deriving DecidableEq, Repr

/-- Wake events (Table 16-5). -/
inductive WakeKind where
  | doorbell | bar2 | syncIn | mgmt
  deriving DecidableEq, Repr

/-- A flit as received: bytes 0 to 247 of Table 13-1 as FEC leaves them, whether FEC corrected any, and what the payload says, whose format the spec does not give. -/
structure Flit where
  bytes : List Byte
  corrected : Bool := false
  body : FlitBody
  deriving DecidableEq, Repr

/-- A transfer of a collective run as it arrives (R301, R304). -/
structure Xfer where
  entry : Nat
  dev : Nat
  inc : BitVec 16
  stand : Nat := 0
  /-- Toward the manager. -/
  up : Bool
  /-- 0 = whole, 1 and 2 = halves of a broadcast. -/
  half : Nat := 0
  data : List Byte
  digest : DWord
  deriving DecidableEq, Repr

/-- A management request (R422): transport, instance and payload. -/
structure MReq where
  via : Transport
  instance_ : BitVec 4 := 0
  payload : List Byte := []
  deriving DecidableEq, Repr

/-- A security message (Table 18-4): the fields its body binds and carries, and its signature. -/
structure SecReq where
  via : Transport
  instance_ : BitVec 4 := 0
  /-- The body as sent. -/
  body : List Byte
  idHash : List Byte
  /-- The bound counter, policy_seq or security version. -/
  bind : Nat
  nonce : List Byte := []
  /-- Owner key installed, or policy flags. -/
  key : List Byte := []
  flags : Byte := 0
  signature : List Byte := []
  deriving DecidableEq, Repr

/-- Features of Table 12-1 that configuration space names. -/
inductive CfgCap where
  | l0p | sriov | msix | msi | intx | aer | ecrc | l0s | l1 | l1ss | ltr | pme | flr | drs | cplDisable | ats | pasid | pri | atomicOps | tph | ptm | resizableBar
  deriving DecidableEq, Repr

/-- Fields of configuration space that a read names (Tables 12-1, 12-2). -/
inductive CfgField where
  | ids | classCode | barSize (n : Nat) | has (c : CfgCap) | vectors | totalVfs | vfDevice | vfEnable | numVfs | busMaster | msixEnable | relaxedOrder
  | payload | readRequest | tags10 | ecrc | aspmL1 | ltr | cplTimeout | aer | pme
  deriving DecidableEq, Repr

/-- What a configuration request does. -/
inductive CfgAct where
  | read (f : CfgField)
  | vfEnable (on : Bool) (num : Nat)
  | busMaster (on : Bool)
  | msixEnable (on : Bool)
  | relaxedOrder (on : Bool)
  | pmeEnable (on : Bool)
  | pmeClear
  | payload (n : Nat)
  | readRequest (n : Nat)
  | tags10 (on : Bool)
  | ecrc (gen check : Bool)
  | aspmL1 (on : Bool)
  | ltr (on : Bool)
  | cplTimeout (disable : Bool) (range : BitVec 4)
  | aerClear
  deriving DecidableEq, Repr

end Sys2Proof.Machine
end

