-- ==== Sys2Proof/Syntax.lean ====
section
/-! DEFINITION. The commands of the block: one constructor per row of the operation and event table, with what its sender or the environment supplies. -/

namespace Sys2Proof

open Sys2Proof.Machine

/-- A command (operation or event) of the MGD-2048. -/
inductive Instr where
  /-- VIN_APPLIED (R415): The 12 V input rises to its operating level, and the bud brings up the module rails and reads the straps. -/
  | vinApplied (straps : BitVec 2)
  /-- STORE_RECOVERY_DONE (R388): Power-up recovery of the heartwood store completes, the index of current records is built and PWR_GOOD is released. -/
  | storeRecoveryDone (timeUs : BitVec 16)
  /-- LOSS_OF_12V (R415): VIN falls below the falling threshold: PWR_GOOD goes low, every rail is switched off and the derived configuration is lost. -/
  | lossOf12V (kept : Nat)
  /-- RAIL_FAULT (R415): A module rail leaves regulation, and the bud switches off every rail and behaves as after a loss of 12 V. -/
  | railFault (kept : Nat)
  /-- PERST_N_ASSERT (R349): PERST_N is asserted, which causes a cold reset, or a wake from Bare when the device is in Bare. -/
  | perstNAssert
  /-- PERST_N_DEASSERT (R277): PERST_N is deasserted: the boot ROM is released and the start-up sequence of Table 18-1 begins. -/
  | perstNDeassert (refclk : Bool) (puf : List Byte)
  /-- STARTUP_STAGE_DONE (R394): A timed stage of start-up completes (verification, HBM training, read-back, self-check or calibration), and the next stage starts or readiness is signalled. -/
  | startupStageDone (o : StartObs)
  /-- FW_SLOT_CONFIRM (R396): Running firmware writes trial = none and active = running slot within 1 s of readiness. -/
  | fwSlotConfirm
  /-- XMSS_SUBTREE_BUILD_DONE (R404): The trunk finishes building the height-15 XMSS subtree that holds the next signing index. -/
  | xmssSubtreeBuildDone
  /-- REF_SELF_CHECK (R44): The reference columns are driven at tap 15 and checked against factory_code ± 12; out-of-window groups are fenced. -/
  | refSelfCheck (b : Nat) (l : Nat) (o : RefObs)
  /-- LEAF_PHASE (R55): A granted leaf-phase drives rows, integrates, converts all columns and delivers codes and the mismatch flag across the bond. -/
  | leafPhase (b : Nat) (l : Nat) (o : PhaseObs)
  /-- GOVERNOR_INTERVAL (R369): Each 100 µs the governor samples power and temperature, updates L_now and the grant, and sets cadence and remedies. -/
  | governorInterval (o : GovObs)
  /-- REF_DRIFT_BLOCK_END (R78): A block of 1,024 executed phases ends, and the mean reference code is judged for the reference-drift trigger. -/
  | refDriftBlockEnd (b : Nat) (l : Nat)
  /-- RECAL_SPACING_END (R78): The 10 ms minimum spacing ends, and a deferred trigger whose condition still holds is acted on. -/
  | recalSpacingEnd (b : Nat) (l : Nat)
  /-- CAL_MEASUREMENT_DONE (R75): The last of the 128 calibration phases completes, and the trunk computes trims, fences untrimmable groups and forms the estimate. -/
  | calMeasurementDone (b : Nat) (l : Nat) (o : MeasObs)
  /-- CAL_COMMIT (R68): Trims are committed into the selected slot, the generation is incremented and LEF_CAL_EST is updated. -/
  | calCommit (b : Nat) (l : Nat)
  /-- CALIBRATE (R79): The CALIBRATE command measures leaves in scope at the current load or in a named slot's load band. -/
  | calibrate (q : Nat)
  /-- CALIBRATE_LOAD_TIMEOUT (R79): The load timeout expires before the load enters the band, and the leaf completes LOAD_NOT_REACHED. -/
  | calibrateLoadTimeout (h : Nat)
  /-- PROGRAM_LEAF (R106): The PROGRAM_LEAF command checks its target and group, then queues the program sequence for the bough. -/
  | programLeaf (q : Nat)
  /-- PROG_STEP_DONE (R91): A timed step of the program sequence completes (accept, marker, erase, row, repair, calibrate, record or clear), and the next step starts. -/
  | progStepDone (pid : Nat) (o : ProgObs)
  /-- SPARE_LEAF_FREED (R107): A spare leaf becomes free, and an operation waiting at step 1 proceeds. -/
  | spareLeafFreed (b : Nat)
  /-- LEAF_SWAP (R102): At its next layer boundary, a bough applies the committed swaps, and the old leaves start draining. -/
  | leafSwap (b : Nat)
  /-- SUSPEND (R273): The SUSPEND command suspends the long operation that its handle names. -/
  | suspend (q : Nat)
  /-- RESUME (R273): The RESUME command resumes a suspended long operation, restarting it where the chapter's rules require. -/
  | resume (q : Nat)
  /-- CANCEL (R273): The CANCEL command ends the long operation that its handle names. -/
  | cancel (q : Nat)
  /-- NOP (R167): The twig issues a NOP operation, which does nothing. -/
  | nop (b : Nat)
  /-- FETCH (R191): The twig issues a FETCH that moves data from HBM or host memory into sapwood. -/
  | fetch (b : Nat)
  /-- STORE (R191): The twig issues a STORE whose writes to HBM or host memory are held until retirement. -/
  | store (b : Nat)
  /-- DRIVE (R208): The twig issues a DRIVE that opens an epoch and drives activation vectors on the masked leaves into accumulator memory. -/
  | drive (b : Nat)
  /-- COMBINE3 (R429): The twig issues a COMBINE3 that forms the three-multiplication outputs from accumulator partials. -/
  | combine3 (b : Nat)
  /-- RESCALE (R130): The twig issues a RESCALE that turns accumulator partials into the output format. -/
  | rescale (b : Nat)
  /-- TABLE (R164): The twig issues a TABLE that maps INT16 pre-activations through a nonlinear table slot. -/
  | table (b : Nat)
  /-- CVT (R427): The twig issues a CVT that converts between tensors in cambium. -/
  | cvt (b : Nat)
  /-- ADD (R166): The VEC function ADD adds two sources elementwise. -/
  | add (b : Nat)
  /-- SUB (R166): The VEC function SUB subtracts two sources elementwise. -/
  | sub (b : Nat)
  /-- MUL (R166): The VEC function MUL multiplies two sources elementwise. -/
  | mul (b : Nat)
  /-- FMA (R166): The VEC function FMA forms in × aux + out elementwise. -/
  | fma (b : Nat)
  /-- MIN (R166): The VEC function MIN takes the smaller of two sources elementwise. -/
  | vmin (b : Nat)
  /-- MAX (R166): The VEC function MAX takes the larger of two sources elementwise. -/
  | vmax (b : Nat)
  /-- ABS (R166): The VEC function ABS takes the magnitude of each element. -/
  | vabs (b : Nat)
  /-- SELECT (R166): The VEC function SELECT takes in where in ≥ aux and aux otherwise. -/
  | select (b : Nat)
  /-- SHL (R166): The VEC function SHL shifts integers left with saturation. -/
  | shl (b : Nat)
  /-- SHR (R129): The VEC function SHR makes a rounded right shift of integers. -/
  | shr (b : Nat)
  /-- CMUL (R166): The VEC function CMUL forms complex products into INT32 pairs. -/
  | cmul (b : Nat)
  /-- CMULC (R166): The VEC function CMULC forms conjugate complex products into INT32 pairs. -/
  | cmulc (b : Nat)
  /-- SUM (R166): The VEC function SUM reduces the n elements of an iteration by addition in fixed order. -/
  | vsum (b : Nat)
  /-- RMAX (R166): The VEC function RMAX reduces the n elements of an iteration to their largest value. -/
  | rmax (b : Nat)
  /-- MAC (R166): The VEC function MAC accumulates in × aux into INT32. -/
  | mac (b : Nat)
  /-- GRAFT_APPLY (R239): The graft function GRAFT_APPLY computes Δ = α·B·(A·x) and writes it as FP32. -/
  | graftApply (b : Nat)
  /-- GRAFT_GRAD (R243): The graft function GRAFT_GRAD computes one part of the graft gradients and encodes them. -/
  | graftGrad (b : Nat)
  /-- GRAFT_STEP (R244): The graft function GRAFT_STEP applies the optimiser to one part and may flip the bank on the last call. -/
  | graftStep (b : Nat)
  /-- CONE (R157): The twig issues a CONE that forms Cone4 weight products by table lookup. -/
  | cone (b : Nat)
  /-- XSEND (R209): The twig issues an XSEND that sends a held halo or combine transfer against a route credit. -/
  | xsend (b : Nat)
  /-- XRECV (R210): The twig issues an XRECV that opens an epoch and waits for, and consumes, an inbound transfer. -/
  | xrecv (b : Nat)
  /-- KSIG (R262): The twig issues a KSIG, a knot signal held until its epoch retires. -/
  | ksig (b : Nat)
  /-- KWAIT (R263): The twig issues a KWAIT that opens an epoch and waits for a knot token. -/
  | kwait (b : Nat)
  /-- LOOP (R192): The twig issues a LOOP that steps a shared counter and branches to the level's body or past its end. -/
  | loop (b : Nat)
  /-- LBND (R170): The twig issues an LBND, a layer boundary where swaps apply and yields can occur. -/
  | lbnd (b : Nat)
  /-- END (R167): The twig issues an END, which ends the task and holds its completion. -/
  | endOp (b : Nat)
  /-- POINTER_VALUE_ARRIVAL (R200): A run-time bound, extent or pointer-list value arrives, and the stalled twig continues. -/
  | pointerValueArrival (b : Nat)
  /-- HOLD_LINES_FREED (R177): Enough write-hold lines are freed, and an operation waiting at issue proceeds. -/
  | holdLinesFreed (b : Nat)
  /-- EPOCH_RETIRE (R178): The oldest epoch's phases, checks and operations are complete, and it is judged and retired or squashed. -/
  | epochRetire (b : Nat)
  /-- HELD_LINE_RELEASE (R180): A held line of a retired epoch is released downstream as credits allow. -/
  | heldLineRelease (b : Nat) (accepted : Bool) (parityBad : Bool)
  /-- DRAIN_END (R186): A draining bough has no unretired epoch and no held line. -/
  | drainEnd (b : Nat)
  /-- RANGE_RESTORE_WINDOW (R146): A restore window of 4,096 phases ends, and a lowered range shift may be raised. -/
  | rangeRestoreWindow (b : Nat) (l : Nat) (second : Bool)
  /-- BIAS_WINDOW_END (R324): The bias monitor reaches 4,096 evaluations and trips or restarts. -/
  | biasWindowEnd (b : Nat) (l : Nat) (g : Nat)
  /-- XFER_LAND (R209): A transfer on a route lands in the receiver's staging buffer. -/
  | xferLand (b : Nat) (route : Nat) (sender : Nat)
  /-- HBM_READ_RESPONSE (R317): An HBM read completes clean, corrected or uncorrectable, and the response for the requester is applied. -/
  | hbmReadResponse (b : Nat) (o : ReadObs)
  /-- PATROL_SCRUB (R317): The patrol scrub reads, corrects and counts words of a channel each period. -/
  | patrolScrub (ch : Nat) (o : ScrubObs)
  /-- DIAGNOSIS_DONE (R325): A diagnosis of a leaf completes its patterns, marks suspect columns or fences, and writes a DIAGNOSIS record. -/
  | diagnosisDone (b : Nat) (l : Nat) (o : MeasObs)
  /-- LEAF_TEST_DUE (R332): A leaf's in-field test interval expires, and its leaf part starts. -/
  | leafTestDue (b : Nat) (l : Nat)
  /-- LEAF_PART_DONE (R330): The leaf part of an in-field test completes with its outcomes. -/
  | leafPartDone (b : Nat) (l : Nat) (o : LeafPartObs)
  /-- LOGIC_TEST_DUE (R332): A bough's logic-test interval expires, and the test waits for the pair to be between tasks. -/
  | logicTestDue (b : Nat)
  /-- TEST_DEFERRAL_LIMIT (R332): The deferral limit expires, and the twig stops at its next layer boundary and drains for the test. -/
  | testDeferralLimit (b : Nat)
  /-- LOGIC_PART_DONE (R331): The logic part completes, digests are compared, and boughs are fenced or rerun with a third bough. -/
  | logicPartDone (b : Nat) (d1 : DWord) (d2 : DWord) (d3 : DWord)
  /-- FULL_VERIFY_DONE (R335): A full verify completes and fences the leaf on any mismatch. -/
  | fullVerifyDone (b : Nat) (l : Nat) (levels : SMap Nat)
  /-- FIELD_TEST (R334): The FIELD_TEST command runs the selected test parts on units in scope now. -/
  | fieldTest (q : Nat)
  /-- FIELD_TEST_SCHEDULE (R334): FIELD_TEST with the schedule flag sets the test intervals and the SLOT deferral. -/
  | fieldTestSchedule (q : Nat)
  /-- LOAD_CANOPY (R224): The LOAD_CANOPY command starts validating and loading a canopy image. -/
  | loadCanopy (q : Nat)
  /-- CANOPY_VALIDATE_DONE (R223): Validation of the image completes, and the load is rejected or moves to PROGRAM. -/
  | canopyValidateDone (h : Nat)
  /-- CANOPY_QUIESCE_DONE (R227): Every task in flight on the target stands has completed, and rounds are released or the switch proceeds. -/
  | canopyQuiesceDone (h : Nat)
  /-- QUIESCE_TIMEOUT (R229): QUIESCE does not finish within the timeout: dispatch resumes and the load ends QUIESCE_TIMEOUT. -/
  | quiesceTimeout (h : Nat)
  /-- FOLD_GRAFT (R247): The FOLD_GRAFT command reads back, folds a graft into new leaf images and programs them. -/
  | foldGraft (q : Nat)
  /-- FOLD_ENTRY_READBACK_DONE (R248): Read-back of one fold-map entry completes, and the new image is formed or the fold ends READBACK_MISMATCH. -/
  | foldEntryReadbackDone (h : Nat) (levels : SMap Nat)
  /-- DOORBELL (R252): An 8-byte write to BAR4 updates sq_tail and cq_head, or is discarded and counted. -/
  | doorbell (fn : Nat) (off : Nat) (len : Nat) (data : Option DWord)
  /-- QUE_ENABLE (R251): QUE_CMD ENABLE reads and checks a queue descriptor and enables the queue. -/
  | queEnable (q : Nat)
  /-- QUE_DISABLE (R251): QUE_CMD DISABLE disables a queue once none of its tasks is in flight. -/
  | queDisable (q : Nat)
  /-- QUE_RESUME (R269): QUE_CMD RESUME clears a queue's halt. -/
  | queResume (q : Nat)
  /-- QUE_FLUSH (R269): QUE_CMD FLUSH completes undispatched records as FLUSHED, then clears the halt. -/
  | queFlush (q : Nat)
  /-- QUE_CTRL_WRITE (R252): A write of QUE_CTRL enables or holds the queue engine, and held doorbells are acted on when it is enabled. -/
  | queCtrlWrite (v : Word)
  /-- TASK_DISPATCH (R258): A bough that can accept takes a ready task chosen by class and round-robin, after the record and context checks. -/
  | taskDispatch (b : Nat)
  /-- TASK_COMPLETION (R266): A task's completion is released, the scale history and context counts are updated, and an interrupt may be raised. -/
  | taskCompletion (b : Nat)
  /-- COAL_TIMER (R267): coal_us elapse since the oldest uncovered completion, and the queue raises its vector. -/
  | coalTimer (q : Nat)
  /-- SYNC_IN_EDGE (R418): An active SYNC_IN edge is counted and gives releases to gated queues. -/
  | syncInEdge (rising : Bool)
  /-- KNOT_SIGNAL (R262): A signal is applied to a knot, may fire it, and serves token waiters and KNOT swap groups. -/
  | knotSignal (n : Nat)
  /-- QUE_KNOT_SIGNAL (R262): A write of QUE_KNOT_SIGNAL applies one signal to the selected knot. -/
  | queKnotSignal (v : Word)
  /-- QUE_KNOT_CFG (R265): A write of QUE_KNOT_CFG sets T and L and clears p. -/
  | queKnotCfg (v : Word)
  /-- QUE_KNOT_STATE (R263): A write of the token count serves knot waiters at once. -/
  | queKnotState (v : Word)
  /-- REGISTER_WRITE (R10): A BAR0 write to a register with no behaviour of its own sets RW fields, clears W1C bits or is ignored. -/
  | registerWrite (acc : Bar0Acc) (v : DWord)
  /-- REGISTER_READ_CLEAR (R12): A read of an RC field returns its value and clears it. -/
  | registerReadClear (acc : Bar0Acc)
  /-- LO_REGISTER_READ (R9): A read of a _LO register latches the _HI value. -/
  | loRegisterRead (off : Nat)
  /-- BAR0_ACCESS_TIMEOUT (R282): A unit does not answer a BAR0 access within 10 µs, and the access completes with 0xFFFF_FFFF or is discarded. -/
  | bar0AccessTimeout (acc : Bar0Acc) (isWrite : Bool)
  /-- BAR2_READ (R284): A BAR2 read returns HBM data, zeros or poisoned data. -/
  | bar2Read (addr : Nat) (len : Nat)
  /-- BAR2_WRITE (R284): A BAR2 write updates HBM, possibly by read-modify-write, or is discarded. -/
  | bar2Write (addr : Nat) (bytes : List (Option Byte))
  /-- VF_FLR (R280): A Function Level Reset of a virtual function halts its queues and resets its configuration. -/
  | vfFlr (vf : Nat)
  /-- VF_FLR_DONE (R280): The last task ended by a VF FLR ends, the PCI_VF_FLR bit clears, and a pending ENABLE takes effect. -/
  | vfFlrDone (vf : Nat)
  /-- PF_FLR (R280): A Function Level Reset of the physical function clears VF Enable and performs a warm reset. -/
  | pfFlr
  /-- MSIX_UNMASK (R279): MSI-X Enable, Bus Master Enable or an unmask allows a pending message to be sent. -/
  | msixUnmask (fn : Nat) (act : MsixAct)
  /-- DMA_REQUEST_FAILED (R288): A device request to host memory fails, and the ring, queue or task is faulted and the failure counted. -/
  | dmaRequestFailed (t : DmaTarget) (addr : Nat)
  /-- PF_D3HOT_ENTRY (R361): The physical function enters D3hot and may request Dormant. -/
  | pfD3hotEntry
  /-- PF_D0_TRANSITION (R365): The physical function returns to D0 and wakes the device from Dormant. -/
  | pfD0Transition
  /-- PME_TURN_OFF (R361): PME_Turn_Off in Dormant with d3_state 2 is acknowledged, and the device enters Bare. -/
  | pmeTurnOff
  /-- PWR_REQ_DORMANT (R362): A write of BUD_PWR_REQ target 1 requests Dormant, which is checked for refusal. -/
  | pwrReqDormant
  /-- PWR_REQ_WAKE (R365): A write of BUD_PWR_REQ target 2 wakes the device from Dormant. -/
  | pwrReqWake
  /-- DORMANT_ENTRY_STEP_DONE (R363): A step of entry to Dormant completes, and the next begins until the islands are off. -/
  | dormantEntryStepDone
  /-- ENTRY_TIMEOUT (R365): Steps 2–3 of entry exceed entry_timeout_ms, and the entry is aborted. -/
  | entryTimeout
  /-- WAKE_EVENT (R364): A wake event is latched, or starts the wake from Dormant. -/
  | wakeEvent (kind : WakeKind)
  /-- WAKE_STEP_DONE (R367): A stage of the wake from Dormant completes, ending with dispatch resumed. -/
  | wakeStepDone (o : StartObs)
  /-- SHADE_IDLE_TIMEOUT (R360): An island has been idle for its limit and stops its clock. -/
  | shadeIdleTimeout (island : Nat)
  /-- ISLAND_RESTART (R360): A stopped island restarts on an arriving word, doorbell, dispatch or trunk phase. -/
  | islandRestart (island : Nat)
  /-- CLOCK_LOCK (R358): An island's new frequency locks, and it switches without a glitch. -/
  | clockLock (island : Nat)
  /-- BUD_PWR_CAP (R372): A write of the power cap takes effect at the next interval and rescales calibration slot loads. -/
  | budPwrCap (v : Word)
  /-- STAND_RESET (R344): A write of STD_RST_CTRL.go requests a stand reset, which starts its notice and dump. -/
  | standReset (j : Nat) (v : Word)
  /-- STAND_RESET_STEP_DONE (R344): A step of the stand reset completes, and the next starts until the stand is restored. -/
  | standResetStepDone (j : Nat) (o : ResetObs)
  /-- SELF_REFRESH_TIMEOUT (R345): A channel does not confirm self-refresh within 100 µs, and the stand takes the fallback path. -/
  | selfRefreshTimeout (j : Nat)
  /-- STAND_RESET_ESCALATION (R351): A stand reset not started within 1 ms or not finished within 200 ms escalates to a warm reset. -/
  | standResetEscalation (j : Nat)
  /-- DUMP_UNIT_TIMEOUT (R352): A unit does not answer the dump engine within 20 µs and is recorded UNREACHABLE. -/
  | dumpUnitTimeout
  /-- DUMP (R352): The DUMP command reads running units into a dump. -/
  | dump (q : Nat)
  /-- DUMP_UNIT_READ (R352): The dump engine finishes reading one unit and writes its section. -/
  | dumpUnitRead (us : Word) (payload : List Byte)
  /-- REPLAY_ATTEMPT_END (R355): A quarantine replay attempt reaches END or a fault and passes. -/
  | replayAttemptEnd (j : Nat)
  /-- REPLAY_BUDGET_EXPIRY (R355): An attempt exceeds budget_ms: the suspect is GUILTY and the stand is reset again. -/
  | replayBudgetExpiry (j : Nat)
  /-- WARM_RESET (R348): A write of TRK_RST_CTRL.warm starts a warm reset. -/
  | warmReset (v : Word)
  /-- WARM_RESET_STEP_DONE (R348): A step of the warm reset completes, until warm_busy returns to 0. -/
  | warmResetStepDone (o : ResetObs)
  /-- WARM_DUMP_TIMEOUT (R348): The warm-reset dump has not ended within 5 ms, and the reset proceeds without it. -/
  | warmDumpTimeout
  /-- WARM_NOTICE_TIMEOUT (R348): The trunk does not answer within 1 ms, and the bud has the Aetholo controllers send the reset notice. -/
  | warmNoticeTimeout
  /-- COLD_RESET (R349): A write of TRK_RST_CTRL.cold takes the link down and runs start-up. -/
  | coldReset
  /-- DISCOVERY_MESSAGE (R293): A discovery message or answer arrives, and ring membership is established. -/
  | discoveryMessage (port : Nat) (sideB : Bool) (m : AelMsg)
  /-- DISCOVERY_TIMEOUT (R293): Discovery does not complete within 50 ms, so the ring stays disabled and a record is written. -/
  | discoveryTimeout (ring : Nat)
  /-- AETHOLO_FLIT_RECEIVE (R295): A flit arrives, is corrected by FEC and checked by CRC, and is delivered or replay is requested. -/
  | aetholoFlitReceive (port : Nat) (sideB : Bool) (f : Flit)
  /-- LINK_RETRAIN_DONE (R295): A retraining Aetholo link returns and traffic resumes. -/
  | linkRetrainDone (port : Nat) (sideB : Bool)
  /-- LINK_RETRAIN_TIMEOUT (R295): A retraining link does not return within 10 ms and is down. -/
  | linkRetrainTimeout (port : Nat) (sideB : Bool)
  /-- LINK_DOWN (R298): A ring link goes down, and the manager reroutes workers and sends PEER_NOTICE LINK_DOWN. -/
  | linkDown (port : Nat) (link : Nat)
  /-- COLL_ARM (R300): AEL_COLL_ARM ARM checks and arms a collective entry. -/
  | collArm (e : Nat)
  /-- COLL_DISARM (R300): AEL_COLL_ARM DISARM disarms a collective entry. -/
  | collDisarm (e : Nat)
  /-- COLLECTIVE_TRANSFER (R304): A collective transfer arrives, its digest is checked and it is combined, forwarded or written. -/
  | collectiveTransfer (port : Nat) (sideB : Bool) (x : Xfer)
  /-- COLLECTIVE_ARRIVAL (R301): A barrier or snapshot arrival reaches the manager. -/
  | collectiveArrival (dev : Nat) (e : Nat) (stand : Nat) (sig : List Byte)
  /-- COLLECTIVE_RELEASE (R306): A barrier or snapshot release arrives at a participant. -/
  | collectiveRelease (e : Nat) (status : Byte) (dev : Nat) (stand : Nat)
  /-- COLLECTIVE_RUN_END (R303): A run ends on a participant: runs and status are written and done_knot is signalled. -/
  | collectiveRunEnd (e : Nat)
  /-- AETHOLO_KNOT_SIGNAL (R301): A SIGNAL message from a peer applies one knot signal to peer_knot. -/
  | aetholoKnotSignal (knot : Nat)
  /-- AEL_SYS_RESET (R307): A write of AEL_SYS_RESET.go on the manager sends SYS_RESET and warm-resets the manager. -/
  | aelSysReset (v : Word)
  /-- SYS_RESET_NOTICE (R307): A worker receives SYS_RESET, forwards it and performs a warm reset. -/
  | sysResetNotice
  /-- RESET_NOTICE (R309): The manager receives a RESET_NOTICE and broadcasts a PEER_NOTICE. -/
  | resetNotice (dev : Nat) (stand : Nat) (warm : Bool) (inc : BitVec 16)
  /-- PEER_NOTICE (R309): A device applies a PEER_NOTICE, discarding stale transfers and ending touched runs with PEER_RESET. -/
  | peerNotice (dev : Nat) (stand : Nat) (reason : Nat) (inc : BitVec 16)
  /-- STORE_WRITE_OP_START (R382): The store controller starts a write operation with the queued records. -/
  | storeWriteOpStart
  /-- STORE_WRITE_OP_DONE (R382): A write operation's verify completes, records become durable or are retried, and requesters are told. -/
  | storeWriteOpDone (fails : List Nat)
  /-- STORE_BACKGROUND_STEP (R389): A sector erase or a compaction write operation runs as a background step. -/
  | storeBackgroundStep (ok : Bool)
  /-- POWERED_HOUR_TICK (R391): Each 60 min of bud operation updates the powered-hours slot ring. -/
  | poweredHourTick
  /-- GET_IDENTITY (R422): The management message returns identity and firmware state. -/
  | getIdentity (r : MReq)
  /-- GET_STATUS (R423): The management message returns the status registers. -/
  | getStatus (r : MReq)
  /-- GET_TELEMETRY (R424): The management message returns the selected sensor values. -/
  | getTelemetry (r : MReq)
  /-- READ_RECORDS (R422): The management message returns up to 16 on-die error records. -/
  | readRecords (r : MReq)
  /-- CLEAR_ALERT (R419): The management message clears TRK_ALERT_STATUS bits. -/
  | clearAlert (r : MReq)
  /-- MGMT_STAND_RESET (R422): The RESET message of kind stand starts a stand reset. -/
  | mgmtStandReset (r : MReq)
  /-- MGMT_WARM_RESET (R423): The RESET message of kind warm starts a warm reset after its answer. -/
  | mgmtWarmReset (r : MReq)
  /-- MGMT_COLD_RESET (R423): The RESET message of kind cold starts a cold reset after its answer. -/
  | mgmtColdReset (r : MReq)
  /-- MGMT_POWER_DORMANT (R361): The POWER message with target Dormant requests entry to Dormant. -/
  | mgmtPowerDormant (r : MReq)
  /-- MGMT_POWER_WAKE (R423): The POWER message with target wake wakes the device. -/
  | mgmtPowerWake (r : MReq)
  /-- SET_POWER_CAP (R422): The management message writes the power cap. -/
  | setPowerCap (r : MReq)
  /-- WRITE_ROLE (R290): The management message writes the role record. -/
  | writeRole (r : MReq)
  /-- GET_QUOTE (R405): The management message returns a signed attestation quote, reserving indices first. -/
  | getQuote (r : MReq)
  /-- GET_DEBUG_NONCE (R407): The management message issues a debug nonce. -/
  | getDebugNonce (r : MReq) (nonce : List Byte)
  /-- PROVISION (R402): The security message moves the lifecycle from Manufacturing to Provisioned. -/
  | provision (r : SecReq)
  /-- INSTALL_OWNER (R400): The security message installs owner 1 and moves the lifecycle to Deployed. -/
  | installOwner (r : SecReq)
  /-- TRANSFER_OWNER (R400): The security message transfers ownership to the next owner. -/
  | transferOwner (r : SecReq)
  /-- SET_POLICY (R401): The security message writes a new owner policy record. -/
  | setPolicy (r : SecReq)
  /-- SVN_COMMIT (R398): The security message raises the security version counter. -/
  | svnCommit (r : SecReq)
  /-- RELEASE (R399): The security message moves the lifecycle to Returned. -/
  | release (r : SecReq)
  /-- DEBUG_GRANT (R407): The security message grants debug, clears the identity key and opens vendor instructions. -/
  | debugGrant (r : SecReq)
  /-- FW_BEGIN (R422): The management message erases the slot that is not running to start a firmware update. -/
  | fwBegin (r : MReq)
  /-- FW_DATA (R422): The management message writes firmware bytes at an offset. -/
  | fwData (r : MReq)
  /-- FW_END (R397): The management message checks the written slot and enters it as the trial slot. -/
  | fwEnd (r : MReq)
  /-- SET_ENDPOINT_ID (R421): The MCTP control command sets the endpoint ID for its transport. -/
  | setEndpointId (via : Transport) (eid : Byte)
  /-- GET_ENDPOINT_ID (R421): The MCTP control command returns the endpoint ID. -/
  | getEndpointId (via : Transport)
  /-- GET_ENDPOINT_UUID (R421): The MCTP control command returns the UUID derived from the identity hash. -/
  | getEndpointUuid (via : Transport)
  /-- GET_MCTP_VERSION_SUPPORT (R421): The MCTP control command returns version support. -/
  | getMctpVersionSupport (via : Transport)
  /-- GET_MESSAGE_TYPE_SUPPORT (R421): The MCTP control command returns message type support. -/
  | getMessageTypeSupport (via : Transport)
  /-- GET_VENDOR_DEFINED_MSG_SUPPORT (R421): The MCTP control command returns vendor-defined message support. -/
  | getVendorDefinedMsgSupport (via : Transport)
  /-- SMBUS_ALERT_RESPONSE (R419): A read of the Alert Response Address is answered with the device's address while ALERT_N is asserted. -/
  | smbusAlertResponse
  /-- EXTEST (R425): The TAP instruction EXTEST drives the boundary register while PERST_N is low. -/
  | extest (bits : List Bool)
  /-- IDCODE (R425): The TAP instruction IDCODE selects the IDCODE register. -/
  | idcode
  /-- SAMPLE_PRELOAD (R425): The TAP instruction SAMPLE/PRELOAD samples or preloads the boundary register. -/
  | samplePreload (pins : List Bool) (bits : List Bool)
  /-- CLAMP (R425): The TAP instruction CLAMP holds outputs and selects bypass while PERST_N is low. -/
  | clamp
  /-- HIGHZ (R425): The TAP instruction HIGHZ places outputs in high impedance while PERST_N is low. -/
  | highz
  /-- EXTEST_PULSE (R425): The TAP instruction EXTEST_PULSE runs the IEEE 1149.6 AC test while PERST_N is low. -/
  | extestPulse
  /-- EXTEST_TRAIN (R425): The TAP instruction EXTEST_TRAIN runs the IEEE 1149.6 AC train test while PERST_N is low. -/
  | extestTrain
  /-- BYPASS (R425): The TAP instruction BYPASS, and every other code, selects the bypass register. -/
  | bypass (code : Byte)
  /-- REFCLK_LOSS (R276): The chosen external 100 MHz reference input stops, and the PCIe link goes down. -/
  | refclkLoss
  /-- HEARTBEAT_TICK (R343): Each 1 ms tick advances a trunk core's count in TRK_HEARTBEAT, and in Dormant the bud advances both counts. -/
  | heartbeatTick (core : Nat)
  /-- HOST_READ_COMPLETION (R287): A read completion from host memory delivers data for a FETCH, a task-ring read or a pointer-list read. -/
  | hostReadCompletion (t : DmaTarget) (data : List Byte)
  /-- CONFIGURATION_REQUEST (R277): A PCIe configuration request arrives; before readiness it is answered with Request Retry Status, and a write of VF Enable brings the virtual functions into being. -/
  | configurationRequest (fn : Nat) (act : CfgAct)
  deriving DecidableEq, Repr

end Sys2Proof
end

