-- ==== Sys2Proof/Machine/Bits.lean ====
section
/-! DEFINITION. Bit fields, byte strings, little-endian numbers, rounding and other arithmetic that every chapter uses. -/

namespace Sys2Proof.Machine

/-- Bits [hi:lo] of `x` as a number (R7). -/
def fld {w : Nat} (x : BitVec w) (hi lo : Nat) : Nat := (x.toNat >>> lo) % 2 ^ (hi + 1 - lo)

/-- Bit `i` of `x`. -/
def bit {w : Nat} (x : BitVec w) (i : Nat) : Bool := x.getLsbD i

/-- `v` placed at bit `lo`. -/
def at_ (v lo : Nat) : Nat := v <<< lo

/-- A flag as a number. -/
def b2n (b : Bool) : Nat := if b then 1 else 0

/-- A register value from a number. -/
def wordOf (n : Nat) : Word := BitVec.ofNat 32 n

/-- Signed reading of the low `w` bits of `n` (two's complement). -/
def sext (w n : Nat) : Int :=
  let m := n % 2 ^ w
  if 2 * m < 2 ^ w then (m : Int) else (m : Int) - (2 ^ w : Nat)

/-- Low `w` bits of an integer. -/
def toBits (w : Nat) (i : Int) : Nat := (i % ((2 ^ w : Nat) : Int)).toNat

/-- Clamp an integer to a range. -/
def clampI (lo hi i : Int) : Int := if i < lo then lo else if hi < i then hi else i

/-- Clamp a number to a range. -/
def clampN (lo hi n : Nat) : Nat := min hi (max lo n)

/-- A byte. -/
def byteOf (n : Nat) : Byte := BitVec.ofNat 8 n

/-- Little-endian bytes of a number. -/
def leBytes : Nat → Nat → List Byte
  | 0, _ => []
  | k + 1, n => byteOf n :: leBytes k (n / 256)

/-- The number a little-endian byte string spells. -/
def leNat : List Byte → Nat
  | [] => 0
  | b :: r => b.toNat + 256 * leNat r

/-- `n` bytes from offset `o` of a byte string; bytes past its end are 0. -/
def sub (bs : List Byte) (o n : Nat) : List Byte :=
  let t := (bs.drop o).take n
  t ++ List.replicate (n - t.length) 0

/-- The little-endian number of `n` bytes at offset `o`. -/
def le (bs : List Byte) (o n : Nat) : Nat := leNat (sub bs o n)

/-- Every byte is 0. -/
def allZero (bs : List Byte) : Bool := bs.all (· == 0)

/-- Bit positions set in `n`, below `w`, ascending. -/
def bitsSet (w n : Nat) : List Nat := (List.range w).filter (fun i => n.testBit i)

/-- Number of bits set below `w`. -/
def popCount (w n : Nat) : Nat := (bitsSet w n).length

/-- Round up to a multiple of `k`. -/
def roundUp (n k : Nat) : Nat := (n + k - 1) / k * k

/-- ⌈n / k⌉. -/
def ceilDiv (n k : Nat) : Nat := (n + k - 1) / k

/-- ⌊log₂ n⌋, 0 for 0. -/
def log2 (n : Nat) : Nat := Nat.log2 n

/-- Largest integer not above the square root, by bits from `k` down. -/
def isqrtFrom (n : Nat) : Nat → Nat → Nat
  | 0, acc => acc
  | k + 1, acc =>
    let t := acc + 2 ^ k
    isqrtFrom n k (if t * t ≤ n then t else acc)

/-- ⌊√n⌋. -/
def isqrt (n : Nat) : Nat := isqrtFrom n (log2 n / 2 + 1) 0

/-- Round a rational to the nearest integer, ties to even (round_half_even). -/
def rhe (q : Rat) : Int :=
  let f := q.floor
  let d := q - (f : Rat)
  if d < 1/2 then f else if 1/2 < d then f + 1 else if f % 2 = 0 then f else f + 1

/-- ⌈q⌉. -/
def rceil (q : Rat) : Int := - (-q).floor

/-- |q|. -/
def rabs (q : Rat) : Rat := if q < 0 then -q else q

/-- A number as an integer. -/
abbrev ni (n : Nat) : Int := (n : Int)

/-- A number as a rational. -/
abbrev nr (n : Nat) : Rat := (n : Rat)

/-- Sum of a list of rationals. -/
def rsum (l : List Rat) : Rat := l.foldl (· + ·) 0

/-- Sum of a list of integers. -/
def isum (l : List Int) : Int := l.foldl (· + ·) 0

/-- Sum of a list of numbers. -/
def nsum (l : List Nat) : Nat := l.foldl (· + ·) 0

/-- The smaller of two integers. -/
def imin (a b : Int) : Int := if a ≤ b then a else b

/-- √q with `f` fraction bits, rounded to nearest with ties to even (R128): a fixed-point square root of a non-negative rational. -/
def rsqrtFix (q : Rat) (f : Nat) : Nat :=
  let x := q * ((4 : Rat) ^ (f + 1))
  let r := isqrt x.floor.toNat
  if r % 2 = 0 then r / 2 else if decide (((r * r : Nat) : Rat) = x) && r / 2 % 2 == 0 then r / 2 else r / 2 + 1

/-- The element at index `i`, or `d`. -/
def nth {α : Type} (d : α) (l : List α) (i : Nat) : α := (l[i]?).getD d

/-- The list with element `i` changed. -/
def modAt {α : Type} (l : List α) (i : Nat) (f : α → α) : List α := l.modify i f

/-- Least number of a list above `k` in cyclic order: the first above `k`, else the first (round-robin). -/
def nextAfter (l : List Nat) (k : Nat) : List Nat :=
  l.filter (fun x => k < x) ++ l.filter (fun x => x ≤ k)

/-- Insert a number into a rising list once. -/
def insertN : List Nat → Nat → List Nat
  | [], k => [k]
  | a :: r, k => if k < a then k :: a :: r else if a = k then a :: r else a :: insertN r k

/-- Remove a number. -/
def removeN (l : List Nat) (k : Nat) : List Nat := l.filter (· != k)

/-- Repeat a change over a list of arguments. -/
def each {σ α : Type} (l : List α) (f : α → σ → σ) (s : σ) : σ := l.foldl (fun s a => f a s) s

end Sys2Proof.Machine
end

