-- ==== Sys2Proof/Machine/Formats.lean ====
section
/-! DEFINITION. Number formats and conversions (chapter 05): decoding to exact rational values, one rounding to a destination, saturation, block formats. -/

namespace Sys2Proof.Machine

/-- What an element encodes: not a number, an infinity, a zero with its sign, or an exact value. -/
inductive Num where
  | nan
  | inf (neg : Bool)
  | zero (neg : Bool)
  | fin (q : Rat)
  deriving DecidableEq, Repr

/-- 2 to an integer power. -/
def pow2 (e : Int) : Rat := if 0 ≤ e then ((2 ^ e.toNat : Nat) : Rat) else 1 / ((2 ^ (-e).toNat : Nat) : Rat)

/-- ⌊log₂ q⌋ of a positive rational. -/
def floorLog2 (q : Rat) : Int :=
  let e : Int := (log2 q.num.toNat : Int) - (log2 q.den : Int)
  if pow2 (e + 1) ≤ q then e + 1 else if pow2 e ≤ q then e else e - 1

/-- A number as a value: zero for everything that is not finite. -/
def Num.val : Num → Rat
  | .fin q => q
  | _ => 0

/-- The value is finite. -/
def Num.isFinite : Num → Bool
  | .nan | .inf _ => false
  | _ => true

/-- A number from an exact value. -/
def numOf (q : Rat) : Num := if q = 0 then .zero false else .fin q

/-- A floating-point layout (Table 5-2). -/
structure FpLayout where
  exp : Nat
  man : Nat
  bias : Int
  /-- Bits of the largest finite value. -/
  maxBits : Nat
  /-- Canonical NaN. -/
  nan : Nat
  /-- Exponent all ones encodes infinities and NaNs (all but E4M3). -/
  ieee : Bool
  deriving DecidableEq, Repr

def e4m3 : FpLayout := { exp := 4, man := 3, bias := 7, maxBits := 0x7E, nan := 0x7F, ieee := false }
def e5m2 : FpLayout := { exp := 5, man := 2, bias := 15, maxBits := 0x7B, nan := 0x7E, ieee := true }
def fp16 : FpLayout := { exp := 5, man := 10, bias := 15, maxBits := 0x7BFF, nan := 0x7E00, ieee := true }
def bf16 : FpLayout := { exp := 8, man := 7, bias := 127, maxBits := 0x7F7F, nan := 0x7FC0, ieee := true }
def fp32 : FpLayout := { exp := 8, man := 23, bias := 127, maxBits := 0x7F7FFFFF, nan := 0x7FC00000, ieee := true }

/-- Width in bits. -/
def FpLayout.width (f : FpLayout) : Nat := 1 + f.exp + f.man

/-- Decode a floating-point element (R114). -/
def FpLayout.decode (f : FpLayout) (n : Nat) : Num :=
  let m := n % 2 ^ f.man
  let e := n / 2 ^ f.man % 2 ^ f.exp
  let neg := n / 2 ^ (f.man + f.exp) % 2 == 1
  let sgn := fun (q : Rat) => if neg then -q else q
  if e + 1 = 2 ^ f.exp ∧ f.ieee then (if m = 0 then .inf neg else .nan)
  else if e + 1 = 2 ^ f.exp ∧ m + 1 = 2 ^ f.man then .nan
  else if e = 0 then
    (if m = 0 then .zero neg else .fin (sgn ((m : Rat) * pow2 (1 - f.bias - f.man))))
  else .fin (sgn (((m + 2 ^ f.man : Nat) : Rat) * pow2 ((e : Int) - f.bias - f.man)))

/-- Round a value once to a floating-point format (R128); a value past the largest finite saturates (Table 5-7). Answers the bits and whether it was clipped. -/
def FpLayout.round (f : FpLayout) (q : Rat) : Nat × Bool :=
  if q = 0 then (0, false)
  else
    let a := rabs q
    let s := if q < 0 then 2 ^ (f.exp + f.man) else 0
    let e := floorLog2 a
    let emin := 1 - f.bias
    let u := (if e < emin then emin else e) - f.man
    let n := (rhe (a * pow2 (-u))).toNat
    let bits : Int := (u + f.man + f.bias - 1) * ((2 ^ f.man : Nat) : Int) + n
    if bits ≤ f.maxBits then (s + bits.toNat, false) else (s + f.maxBits, true)

/-- Encode a number (R115, Table 5-7): bits, clipped, nonfinite event. -/
def FpLayout.encode (f : FpLayout) : Num → Nat × Bool × Bool
  | .nan => (f.nan, false, true)
  | .inf neg => ((if neg then 2 ^ (f.exp + f.man) else 0) + f.maxBits, false, true)
  | .zero neg => ((if neg then 2 ^ (f.exp + f.man) else 0), false, false)
  | .fin q => let r := f.round q; (r.1, r.2, false)

/-- FP32 bits of an exact value, rounded once. -/
def f32 (q : Rat) : Word := wordOf (fp32.round q).1

/-- FP32 number a word encodes. -/
def f32num (w : Word) : Num := fp32.decode w.toNat

/-- FP32 value a word encodes; 0 where it is not finite. -/
def f32val (w : Word) : Rat := (f32num w).val

/-- An exact value rounded to FP32, as a value. -/
def r32 (q : Rat) : Rat := (fp32.decode (fp32.round q).1).val

/-- Result of an FP32 operation: one rounding that keeps the sign of an underflow; the device produces no infinity (R115, R128). -/
def Num.to32 (x : Num) : Num := fp32.decode (fp32.encode x).1

/-- The value is a finite FP32 greater than zero (R123). -/
def f32pos (w : Word) : Bool :=
  match f32num w with
  | .fin q => decide (0 < q)
  | _ => false

/-- FP32 sum, one rounding; NaN and infinities become the canonical NaN or saturate (R115). -/
def numAdd : Num → Num → Num
  | .nan, _ => .nan
  | _, .nan => .nan
  | .inf a, .inf b => if a = b then .inf a else .nan
  | .inf a, _ => .inf a
  | _, .inf b => .inf b
  | .zero a, .zero b => .zero (a && b)
  | x, y => numOf (x.val + y.val)

/-- A number with its sign changed. -/
def numNeg : Num → Num
  | .nan => .nan
  | .inf a => .inf (!a)
  | .zero a => .zero (!a)
  | .fin q => .fin (-q)

/-- The sign of a number: true = negative. -/
def Num.neg : Num → Bool
  | .nan => false
  | .inf a | .zero a => a
  | .fin q => decide (q < 0)

/-- Exact product. -/
def numMul : Num → Num → Num
  | .nan, _ => .nan
  | _, .nan => .nan
  | x, y =>
    let sg := x.neg != y.neg
    match x, y with
    | .inf _, .zero _ => .nan
    | .zero _, .inf _ => .nan
    | .inf _, _ => .inf sg
    | _, .inf _ => .inf sg
    | .zero _, _ => .zero sg
    | _, .zero _ => .zero sg
    | x, y => .fin (x.val * y.val)

/-- Less-than on numbers with NaN aside: infinities at the ends. -/
def numLt : Num → Num → Bool
  | .nan, _ => false
  | _, .nan => false
  | .inf true, .inf true => false
  | .inf true, _ => true
  | _, .inf true => false
  | .inf false, _ => false
  | _, .inf false => true
  | x, y => decide (x.val < y.val)

/-- Correctly rounded FP32 square root of a non-negative value. -/
def sqrt32 (q : Rat) : Rat :=
  if q ≤ 0 then 0
  else
    let k := 40 - floorLog2 q / 2
    let n := (q * pow2 (2 * k)).floor.toNat
    let r := isqrt n
    let exact := decide ((r * r : Nat) = q * pow2 (2 * k))
    r32 ((ni r + (if exact then 0 else 1/2)) * pow2 (-k))

-- Integer formats (Table 5-1).

/-- Integer format of a code: width, signedness, components. -/
def Fmt.int? : Fmt → Option (Nat × Bool × Nat)
  | .int2 => some (2, true, 1)
  | .int4 => some (4, true, 1)
  | .int8 => some (8, true, 1)
  | .uint8 => some (8, false, 1)
  | .int16 => some (16, true, 1)
  | .int32 => some (32, true, 1)
  | .cint8 => some (8, true, 2)
  | .cint16 => some (16, true, 2)
  | .bsi8 => some (8, true, 1)
  | .cone4 => some (4, false, 1)
  | _ => none

/-- Floating-point layout of a code. -/
def Fmt.fp? : Fmt → Option FpLayout
  | .e4m3 => some Sys2Proof.Machine.e4m3
  | .e5m2 => some Sys2Proof.Machine.e5m2
  | .fp16 => some Sys2Proof.Machine.fp16
  | .bf16 => some Sys2Proof.Machine.bf16
  | .fp32 => some Sys2Proof.Machine.fp32
  | _ => none

/-- Format codes of Table 9-9. -/
def fmtOf : Nat → Option Fmt
  | 0 => some .int2 | 1 => some .int4 | 2 => some .int8 | 3 => some .uint8 | 4 => some .int16 | 5 => some .int32
  | 6 => some .cint8 | 7 => some .cint16 | 8 => some .e4m3 | 9 => some .e5m2 | 10 => some .fp16 | 11 => some .bf16
  | 12 => some .fp32 | 13 => some .cone4 | 14 => some .bsi8 | _ => none

/-- Bits of one real component in storage. -/
def Fmt.bits (f : Fmt) : Nat :=
  match f.int? with
  | some (w, _, _) => w
  | none => match f.fp? with
    | some l => l.width
    | none => 8

/-- Components per element (R113). -/
def Fmt.comps : Fmt → Nat
  | .cint8 | .cint16 => 2
  | _ => 1

/-- Least and largest value of an integer format. -/
def Fmt.range (f : Fmt) : Int × Int :=
  match f with
  | .bsi8 => (-127, 127)
  | _ => match f.int? with
    | some (w, true, _) => (-((2 ^ (w - 1) : Nat) : Int), ((2 ^ (w - 1) : Nat) : Int) - 1)
    | some (w, false, _) => (0, ((2 ^ w : Nat) : Int) - 1)
    | none => (0, 0)

/-- Saturate an integer to a format (Table 5-7): value and clipped. -/
def Fmt.sat (f : Fmt) (i : Int) : Int × Bool :=
  let (lo, hi) := f.range
  let c := clampI lo hi i
  (c, c != i)

/-- Saturate to INT32 (R134): value and clipped. -/
def sat32 (i : Int) : Int × Bool := Fmt.int32.sat i

/-- What a stored real component encodes, before any tensor scale or block exponent (R427's s). -/
def Fmt.decode (f : Fmt) (n : Nat) : Num :=
  match f.fp? with
  | some l => l.decode n
  | none => match f.int? with
    | some (w, true, _) => numOf ((sext w n : Int) : Rat)
    | some (w, false, _) => numOf (((n % 2 ^ w : Nat)) : Rat)
    | none => .zero false

/-- Stored bits of a number in a plain format: bits, clipped, nonfinite (Table 5-7). -/
def Fmt.encode (f : Fmt) (x : Num) : Nat × Bool × Bool :=
  match f.fp? with
  | some l => l.encode x
  | none =>
    match x with
    | .nan => (0, false, true)
    | .inf neg => (toBits f.bits (if neg then f.range.1 else f.range.2), false, true)
    | .zero _ => (0, false, false)
    | .fin q => let (v, c) := f.sat (rhe q); (toBits f.bits v, c, false)

-- Rounded shift and rescale (R129 to R131).

/-- Rounded right shift (R129). -/
def rshr (p : Int) (t : Nat) : Int := rhe ((p : Rat) / ((2 ^ t : Nat) : Rat))

-- Block formats.

/-- Exponent and q values of a block converted to BSI8 (R124, R125): E, q, nonfinite events. -/
def bsiEncode (xs : List Num) : Int × List Int × Nat :=
  let fins := xs.filterMap fun x => match x with | .fin q => some (floorLog2 (rabs q)) | _ => none
  let nf := (xs.filter fun x => !x.isFinite).length
  let isInf := xs.any fun x => match x with | .inf _ => true | _ => false
  match fins with
  | [] =>
    if isInf then (0, xs.map fun x => match x with | .inf neg => (if neg then -127 else 127) | _ => 0, nf)
    else (-128, xs.map fun _ => 0, nf)
  | e :: r =>
    let emax := r.foldl (fun a b => if a < b then b else a) e
    let ee := if emax - 6 < -127 then -127 else emax - 6
    (ee, xs.map fun x => match x with
      | .inf neg => if neg then -127 else 127
      | .nan => 0
      | y => clampI (-127) 127 (rhe (y.val * pow2 (-ee))), nf)

/-- Align a block's q to the vector exponent (R126). -/
def bsiAlign (ev eb : Int) (q : Int) : Int :=
  if eb = -128 then 0 else rhe ((q : Rat) / pow2 (ev - eb))

/-- Combine two tagged partials (R127, R134): value, tag, clipped. -/
def tagAdd (a : Int) (ta : Int) (b : Int) (tb : Int) : Int × Int × Bool :=
  if tb = -128 then (a, ta, false)
  else if ta = -128 then (b, tb, false)
  else if tb ≤ ta then
    let (v, c) := sat32 (a + rhe ((b : Rat) / pow2 (ta - tb)))
    (v, ta, c)
  else
    let (v, c) := sat32 (b + rhe ((a : Rat) / pow2 (tb - ta)))
    (v, tb, c)

/-- UQ1.15 magnitudes of the Cone4 grid from code 7 up (Table 5-3). -/
def coneMag : List Nat := [0, 2972, 6056, 9319, 12940, 17206, 22813, 32768]

/-- Grid value of a Cone4 code, in units of 2⁻¹⁵. -/
def coneGrid (code : Nat) : Int :=
  if code < 7 then -((nth 0 coneMag (7 - code) : Nat) : Int) else ((nth 0 coneMag (code - 7) : Nat) : Int)

/-- Nearest grid code of a value (R117): code and clipped. -/
def coneCode (v : Rat) : Nat × Bool :=
  let x := v * 32768
  let clip := decide (x < -32768) || decide (32768 < x)
  let c := (List.range 14).foldl (fun c i =>
    let mid := ((coneGrid i + coneGrid (i + 1) : Int) : Rat) / 2
    if mid < x then i + 1 else if mid = x then (if i % 2 = 0 then i else i + 1) else c) 0
  (c, clip)

/-- Effective block scale (R122). -/
def blockScale (sb : Nat) (st : Rat) : Rat := ((sb + 1 : Nat) : Rat) / 256 * st

/-- Decode a Cone4 block (R119): its 32 values, or none when malformed. -/
def coneDecode (st : Rat) (hdr : Word) (codes : List Nat) (side : List Nat) : Option (List Rat) :=
  let sb := fld hdr 7 0
  let kind := fld hdr 9 8
  let idx := fld hdr 31 10
  let s := blockScale sb st
  let esc := codes.filter (· == 15) |>.length
  if kind = 3 then
    if side.length < idx + 16 then none
    else some ((List.range 32).map fun i =>
      let u := nth 0 side (idx + i / 2)
      let v := sext 8 (if i % 2 = 0 then u % 256 else u / 256)
      ((if v = -128 then -127 else v : Int) : Rat) / 127 * s)
  else if esc != kind then none
  else if kind ≠ 0 ∧ side.length < idx + kind then none
  else
    let es := (List.range kind).map fun i => fp16.decode (nth 0 side (idx + i))
    if es.any (!·.isFinite) then none
    else some ((codes.foldl (fun (acc : List Rat × Nat) c =>
      if c = 15 then (acc.1 ++ [(nth (.zero false) es acc.2).val * st], acc.2 + 1)
      else (acc.1 ++ [((coneGrid c : Int) : Rat) / 32768 * s], acc.2)) ([], 0)).1)

/-- Encode a Cone4 block (R121) with its side-list units at `idx`: header, codes, side units, clips. -/
def coneEncode (st : Rat) (idx : Nat) (xs : List Rat) : Word × List Nat × List Nat × Nat :=
  let a := xs.map rabs
  let t := r32 (6 * r32 (r32 (a.foldl (fun s x => r32 (s + x)) 0) / 32))
  let out := a.map fun x => decide (t < x)
  let n := (out.filter id).length
  let sbOf := fun (m : Rat) => (clampI 0 255 (rceil (r32 (r32 (256 * m) / st)) - 1)).toNat
  if 2 < n then
    let m := a.foldl (fun m x => if m < x then x else m) 0
    let sb := sbOf m
    let s := r32 (blockScale sb st)
    let v := xs.map fun x => clampI (-127) 127 (rhe (r32 (r32 (127 * x) / s)))
    let units := (List.range 16).map fun i => toBits 8 (nth 0 v (2 * i)) + 256 * toBits 8 (nth 0 v (2 * i + 1))
    (wordOf (at_ idx 10 + at_ 3 8 + sb), List.replicate 32 7, units, 0)
  else
    let m := (a.zip out).foldl (fun m p => if p.2 then m else if m < p.1 then p.1 else m) 0
    let sb := sbOf m
    let s := r32 (blockScale sb st)
    let r := (xs.zip out).foldl (fun (acc : List Nat × List Nat × Nat) p =>
      if p.2 then
        let e := fp16.round (r32 (p.1 / st))
        (acc.1 ++ [15], acc.2.1 ++ [e.1], acc.2.2 + b2n e.2)
      else
        let c := coneCode (r32 (p.1 / s))
        (acc.1 ++ [c.1], acc.2.1, acc.2.2 + b2n c.2)) ([], [], 0)
    (wordOf ((if n = 0 then 0 else at_ idx 10) + at_ n 8 + sb), r.1, r.2.1, r.2.2)

-- Elements in byte strings (R111).

/-- Bits of component `i` of a packed array. -/
def compBits (f : Fmt) (bs : List Byte) (i : Nat) : Nat :=
  let w := f.bits
  if w < 8 then ((nth 0 bs (i * w / 8)).toNat >>> (i * w % 8)) % 2 ^ w
  else le bs (i * (w / 8)) (w / 8)

/-- Bytes of a packed array of components (unused bits 0). -/
def packComps (f : Fmt) (vs : List Nat) : List Byte :=
  let w := f.bits
  if w < 8 then
    let per := 8 / w
    (List.range (ceilDiv vs.length per)).map fun k =>
      byteOf (nsum ((List.range per).map fun j => (nth 0 vs (per * k + j) % 2 ^ w) <<< (w * j)))
  else vs.flatMap fun v => leBytes (w / 8) v

end Sys2Proof.Machine
end

