-- ==== Sys2Proof/Config.lean ====
section
/-! DEFINITION. What the manual leaves open or to a cryptographic primitive: opaque values that no proof can see. -/

namespace Sys2Proof.Config

/-- A free value by use number (log entry 5). -/
opaque freeValue : Nat → BitVec 64

/-- Cycle count of an island at a record, by island and use number (R336, R359): the model keeps no clock (log entry 4). -/
opaque islandCycles : Nat → Nat → BitVec 64

/-- Core supply of an island at a record, mV (R336). -/
opaque supplyMv : Nat → Nat → BitVec 16

/-- RFC 8391 verification for XMSS-SHAKE256_20_256: public key, message, signature (R396). -/
opaque xmssVerify : List Byte → List Byte → List Byte → Bool

/-- RFC 8391 signing with the identity key: secret, index, message (R405). -/
opaque xmssSign : List Byte → Nat → List Byte → List Byte

/-- Public key of the identity derived from the secret (R403). -/
opaque xmssPublicKey : List Byte → List Byte

/-- Reconstruction of the 256-bit secret from PUF response and helper data; none when the check value does not match (R403). -/
opaque pufSecret : List Byte → List Byte → Option (List Byte)

/-- Vendor key hash held in the boot ROM (R396). -/
opaque vendorKeyHash : List Byte

/-- Vendor public key that verifies canopy images and messages (Table 18-3). -/
opaque vendorKey : List Byte

/-- FP32 result of MIN, MAX and RMAX where a source is NaN, which the manual does not state: by function code and the two sources' FP32 values (log entry 22). -/
opaque minMaxNaN : Nat → BitVec 32 → BitVec 32 → BitVec 32

/-- Seeded test image that an unfence programs into a leaf (R334), by leaf: the spec gives no generator (log entry 165). -/
opaque seededImage : Nat → List Byte

/-- Kind code of the record that R400 has written when the current owner's record is missing: no table of the spec lists it (log entry 157). -/
opaque ownerMissingKind : BitVec 16

/-- Byte of the payload of a flit, by what it carries: the spec gives no format of the Aetholo messages (Table 13-1, log entry 156). -/
opaque aelPayload : Machine.FlitBody → Nat → BitVec 8

/-- Check byte of a flit over its bytes 0 to 247: the spec names the Reed-Solomon code without its generator (Table 13-1, log entry 156). -/
opaque rsCheck : List (BitVec 8) → Nat → BitVec 8

end Sys2Proof.Config
end

