-- ==== Sys2Proof/Machine/State.lean ====
section
/-! DEFINITION. The state of the block, the reasons a step can stop, and the state after reset. -/

namespace Sys2Proof.Machine

/-- Faults. The manual gives every access of the block a result, so only one remains. -/
inductive Fault where
  /-- Raised by no meaning: the manual answers every address (R283, R284, R347). Safe. -/
  | noSuchAddress (a : Nat)
  deriving DecidableEq, Repr

/-- Refusals. -/
inductive Refusal where
  /-- A command whose meaning is not written yet. Safe. -/
  | notModelled (mnemonic : String)
  /-- BYPASS with a code 0x80 to 0xFE under a debug grant: the vendor instructions are not described (R425). Safe. -/
  | vendorInstruction (code : Byte)
  deriving DecidableEq, Repr

/-- The state of the MGD-2048. -/
structure State where
  bud : Bud := {}
  trunk : Trunk := {}
  store : Store := {}
  que : Que := {}
  pcie : Pcie := {}
  ael : Ael := {}
  mgmt : Mgmt := {}
  tap : Tap := {}
  /-- Stands 0 to 3; one that is not listed has its reset values. -/
  stands : SMap Stand := []
  /-- Boughs 0 to 15. -/
  boughs : SMap Bough := []
  /-- Physical leaves, 18 × bough + leaf. -/
  leaves : SMap Leaf := []
  /-- HBM, 48 GiB: canonical list of bytes that are not 0. -/
  hbm : List Host.Cell := []
  /-- 8-byte words that read as an uncorrectable error or poisoned, by address / 8, rising. -/
  hbmBad : List Nat := []
  /-- _HI values latched by reads of _LO registers, by the _HI offset (R9). -/
  latches : SMap Word := []
  /-- Value of the last BAR0 register read. -/
  rdata : DWord := 0
  /-- What the block has sent out, newest first. -/
  out : List OutEv := []
  /-- Use number of the next free value: the model's own field. -/
  freeCtr : Nat := 0
  /-- Commands waiting, first in first out. -/
  pending : List Instr := []
  deriving DecidableEq, Repr

/-- Bytes of log record `i` of the manufacture: the leaf records in leaf order, eleven to a sector (Table 17-3: 368 bytes each). -/
def factorySector (k : Nat) : Sector :=
  { state := .full, seq := k, erases := 1,
    recs := (List.range (min 11 (288 - 11 * k))).map fun i =>
      { off := 16 + 368 * i, entry := { key := 0x02000000 + 11 * k + i, payload := .leaf { leafId := leafIdOf (11 * k + i) } } },
    free := 16 + 368 * min 11 (288 - 11 * k) }

/-- The last sector of the manufacture's log, with the leaf map record (R88). -/
def factoryLastSector : Sector :=
  let s := factorySector 26
  { s with state := .opened,
           recs := s.recs ++ [{ off := s.free, entry := { key := 0x03000000, payload := .leafMap {} } }],
           free := s.free + 288 }

/-- The record log as delivered (Table 17-11 free_sectors): 27 sectors from sector 16 (log entry 3). -/
def factoryLog : SMap Sector :=
  (List.range 26).map (fun k => (16 + k, factorySector k)) ++ [(42, factoryLastSector)]

/-- The store as delivered: an MGD-2048, stepping 1, every bough enabled (R2). -/
def factoryStore : Store :=
  { factory := [{ off := 16, entry := { key := 0x01000000, payload := .factory { partCode := 0x2048#16, stepping := 1, map := 0xFFFF#16 } } },
                { off := 48, entry := { key := 0x01000001, payload := .helper [] } }],
    log := factoryLog }

/-- The block as delivered, at the moment 12 V is applied: registers at their reset values, nothing in HBM, no command waiting (log entry 2). -/
def State.reset : State := { store := factoryStore }

end Sys2Proof.Machine
end

