-- ==== Sys2Proof/Machine/Flags.lean ====
section
/-! DEFINITION. Status flags that many events set: PCI_ERR_STATUS with its first-event fields (R289) and TRK_ALERT_STATUS (R419). -/

namespace Sys2Proof.Machine

/-- Set a bit of PCI_ERR_STATUS; the first event is recorded. -/
def State.pciError (s : State) (bitNo fn : Nat) (addr : Nat) : State :=
  let upd := fun (p : Pcie) =>
    let first := p.errStatus == 0
    { p with errStatus := p.errStatus ||| BitVec.ofNat 7 (2 ^ bitNo),
             errEvent := if first then BitVec.ofNat 3 bitNo else p.errEvent,
             errFunc := if first then BitVec.ofNat 5 fn else p.errFunc,
             errAddr := if first then BitVec.ofNat 64 addr else p.errAddr }
  { s with pcie := upd s.pcie }

/-- Set bits of TRK_ALERT_STATUS (R419). -/
def State.alert (s : State) (m : Nat) : State := { s with mgmt := { s.mgmt with alert := s.mgmt.alert ||| BitVec.ofNat 6 m } }

end Sys2Proof.Machine
end

