-- ==== Sys2Proof/Machine/Hash.lean ====
section
/-! DEFINITION. The digests the manual names: SHAKE256 (R86, R217), CRC-32C (Table 14-7, Table 17-3) and CRC-64 with the ECMA-182 parameters (R304). -/

namespace Sys2Proof.Machine

/-- Round constants of Keccak-f[1600]. -/
def keccakRC : List (BitVec 64) :=
  [0x0000000000000001, 0x0000000000008082, 0x800000000000808A, 0x8000000080008000, 0x000000000000808B, 0x0000000080000001,
   0x8000000080008081, 0x8000000000008009, 0x000000000000008A, 0x0000000000000088, 0x0000000080008009, 0x000000008000000A]
  ++ [0x000000008000808B, 0x800000000000008B, 0x8000000000008089, 0x8000000000008003, 0x8000000000008002, 0x8000000000000080,
   0x000000000000800A, 0x800000008000000A, 0x8000000080008081, 0x8000000000008080, 0x0000000080000001, 0x8000000080008008]

/-- Rotation offsets by lane x + 5y. -/
def keccakRot : List Nat :=
  [0, 1, 62, 28, 27, 36, 44, 6, 55, 20, 3, 10, 43, 25, 39, 41, 45, 15, 21, 8, 18, 2, 61, 56, 14]

/-- Lane x + 5y of a state. -/
def lane (a : List (BitVec 64)) (x y : Nat) : BitVec 64 := nth 0 a (x % 5 + 5 * (y % 5))

/-- A state from a function of x and y. -/
def lanes (f : Nat → Nat → BitVec 64) : List (BitVec 64) := (List.range 25).map fun i => f (i % 5) (i / 5)

/-- One round of Keccak-f[1600]. -/
def keccakRound (a : List (BitVec 64)) (rc : BitVec 64) : List (BitVec 64) :=
  let c := (List.range 5).map fun x => lane a x 0 ^^^ lane a x 1 ^^^ lane a x 2 ^^^ lane a x 3 ^^^ lane a x 4
  let d := (List.range 5).map fun x => nth 0 c ((x + 4) % 5) ^^^ (nth 0 c ((x + 1) % 5)).rotateLeft 1
  let th := lanes fun x y => lane a x y ^^^ nth 0 d x
  -- B[y, 2x + 3y] = rot(A[x, y]): lane (X, Y) of B comes from x = X + 3Y, y = X.
  let b := lanes fun x y => (lane th (x + 3 * y) x).rotateLeft (nth 0 keccakRot ((x + 3 * y) % 5 + 5 * x))
  let ch := lanes fun x y => lane b x y ^^^ (~~~ lane b (x + 1) y &&& lane b (x + 2) y)
  ch.modify 0 (· ^^^ rc)

/-- Keccak-f[1600]. -/
def keccakF (a : List (BitVec 64)) : List (BitVec 64) := keccakRC.foldl keccakRound a

/-- Absorb one 136-byte block. -/
def keccakAbsorb (a : List (BitVec 64)) (blk : List Byte) : List (BitVec 64) :=
  keccakF ((List.range 25).map fun i => nth 0 a i ^^^ (if i < 17 then BitVec.ofNat 64 (le blk (8 * i) 8) else 0))

/-- Absorb the padded input, `n` blocks of it. -/
def keccakBlocks : Nat → List (BitVec 64) → List Byte → List (BitVec 64)
  | 0, a, _ => a
  | n + 1, a, bs => keccakBlocks n (keccakAbsorb a (bs.take 136)) (bs.drop 136)

/-- SHAKE256 padding to a multiple of 136 bytes. -/
def shakePad (bs : List Byte) : List Byte :=
  let r := 136 - bs.length % 136
  if r = 1 then bs ++ [0x9F] else bs ++ [0x1F] ++ List.replicate (r - 2) 0 ++ [0x80]

/-- The first 32 bytes of SHAKE256 output. -/
def shake256 (bs : List Byte) : List Byte :=
  let p := shakePad bs
  let a := keccakBlocks (p.length / 136) (List.replicate 25 0) p
  (List.range 4).flatMap fun i => leBytes 8 (nth 0 a i).toNat

/-- One byte into a reflected CRC-32C. -/
def crc32cByte (c : BitVec 32) (b : Byte) : BitVec 32 :=
  (List.range 8).foldl (fun c _ => if c.getLsbD 0 then (c >>> 1) ^^^ 0x82F63B78#32 else c >>> 1)
    (c ^^^ b.setWidth 32)

/-- CRC-32C. -/
def crc32c (bs : List Byte) : Word := (bs.foldl crc32cByte 0xFFFFFFFF#32) ^^^ 0xFFFFFFFF#32

/-- One byte into the CRC-64. -/
def crc64Byte (c : BitVec 64) (b : Byte) : BitVec 64 :=
  (List.range 8).foldl (fun c _ => if c.getLsbD 63 then (c <<< 1) ^^^ 0x42F0E1EBA9EA3693#64 else c <<< 1)
    (c ^^^ (b.setWidth 64 <<< 56))

/-- CRC-64 with the ECMA-182 parameters (R304). -/
def crc64 (bs : List Byte) : DWord := bs.foldl crc64Byte 0

end Sys2Proof.Machine
end

