-- ==== Sys2Proof/Machine/Operands.lean ====
section
/-! DEFINITION. The operand forms of Table 8-2: addresses in their spaces, and values that are immediate or read at run time. -/

namespace Sys2Proof.Machine

/-- Bytes of HBM: 48 GiB. -/
def hbmSize : Nat := 0xC00000000

/-- Decode an address of Table 8-2. -/
def decodeAddr (n : Nat) : Addr :=
  let sp := n / 2 ^ 60 % 16
  let lo := n % 2 ^ 60
  if sp = 0 then (if lo < 6 * 2 ^ 20 then .sap lo else .bad)
  else if sp = 1 then (if lo < hbmSize then .hbm lo else .bad)
  else if sp = 2 then .host lo
  else if sp = 3 then (if lo < 131072 then .acc lo else .bad)
  else if sp = 15 then (if lo = 0 then .none else .bad)
  else .bad

/-- Decode a value of Table 8-2. -/
def decodeVal (n : Nat) : Val :=
  let sp := n / 2 ^ 60 % 16
  let lo := n % 2 ^ 60
  if sp = 0 then (if lo < 65536 then .imm lo else .bad)
  else if sp = 1 then (if lo < 6 * 2 ^ 20 ∧ lo % 4 = 0 then .sap lo else .bad)
  else if sp = 2 then (if lo < hbmSize ∧ lo % 4 = 0 then .hbm lo else .bad)
  else .bad

/-- An address space-qualified displacement. -/
def Addr.add (a : Addr) (d : Int) : Addr :=
  let mv := fun (k : Nat → Addr) (o lim : Nat) =>
    let t := (o : Int) + d
    if 0 ≤ t ∧ t < lim then k t.toNat else .bad
  match a with
  | .sap o => mv .sap o (6 * 2 ^ 20)
  | .hbm o => mv .hbm o hbmSize
  | .host o => mv .host o (2 ^ 60)
  | .acc o => mv .acc o 131072
  | .none => .bad
  | .bad => .bad

/-- Bits [31:0] of an address, as fault details report it. -/
def Addr.low (a : Addr) : Word :=
  match a with
  | .sap o | .hbm o | .host o | .acc o => wordOf o
  | _ => 0

end Sys2Proof.Machine
end

