-- ==== Sys2Proof/Machine/Ops.lean ====
section
/-! DEFINITION. The named operations over state that every family uses: units, HBM, output, free values, MSI-X and error records. -/

namespace Sys2Proof.Machine

-- Access to the parts of the state.

/-- Stand `i`. -/
def State.stand (s : State) (i : Nat) : Stand := smGet {} s.stands i

/-- Change stand `i`. -/
def State.onStand (s : State) (i : Nat) (f : Stand → Stand) : State := { s with stands := smUpd {} s.stands i f }

/-- Bough `b` (device-wide). -/
def State.bough (s : State) (b : Nat) : Bough := smGet {} s.boughs b

/-- Change bough `b`. -/
def State.onBough (s : State) (b : Nat) (f : Bough → Bough) : State := { s with boughs := smUpd {} s.boughs b f }

/-- Physical leaf `k` = 18 × bough + leaf. -/
def State.leaf (s : State) (k : Nat) : Leaf := smGet {} s.leaves k

/-- Change leaf `k`. -/
def State.onLeaf (s : State) (k : Nat) (f : Leaf → Leaf) : State := { s with leaves := smUpd {} s.leaves k f }

def State.onBud (s : State) (f : Bud → Bud) : State := { s with bud := f s.bud }
def State.onTrunk (s : State) (f : Trunk → Trunk) : State := { s with trunk := f s.trunk }
def State.onStore (s : State) (f : Store → Store) : State := { s with store := f s.store }
def State.onQue (s : State) (f : Que → Que) : State := { s with que := f s.que }
def State.onPcie (s : State) (f : Pcie → Pcie) : State := { s with pcie := f s.pcie }
def State.onAel (s : State) (f : Ael → Ael) : State := { s with ael := f s.ael }
def State.onMgmt (s : State) (f : Mgmt → Mgmt) : State := { s with mgmt := f s.mgmt }
def State.onTap (s : State) (f : Tap → Tap) : State := { s with tap := f s.tap }

/-- Device-wide number of a physical leaf. -/
def leafNo (b l : Nat) : Nat := 18 * b + l

/-- The stand of a bough (R5). -/
def standOf (b : Nat) : Nat := b / 4

/-- Bough `b` is enabled (R2). -/
def State.enabled (s : State) (b : Nat) : Bool := decide (b < 16) && bit s.trunk.coreMap b

/-- Enabled boughs of stand `i`, ascending. -/
def State.boughsOf (s : State) (i : Nat) : List Nat := (List.range 4).map (4 * i + ·) |>.filter s.enabled

/-- Every enabled bough. -/
def State.allBoughs (s : State) : List Nat := (List.range 16).filter s.enabled

/-- A bough that takes part in work: enabled and not fenced. -/
def State.usable (s : State) (b : Nat) : Bool := s.enabled b && !(s.bough b).fenced

/-- Physical leaves of bough `b`. -/
def leavesOf (b : Nat) : List Nat := (List.range 18).map (leafNo b)

/-- The stand is under a reset: its state is not NORMAL, REPLAYING or FENCED. -/
def State.inReset (s : State) (i : Nat) : Bool :=
  match (s.stand i).rstState with
  | .normal | .replaying | .fenced => false
  | _ => true

/-- The stand's reset has not left step 6 of Table 15-3. -/
def State.beforeExit (s : State) (i : Nat) : Bool := s.inReset i && decide ((s.stand i).rstStep ≤ 6)

/-- Reads of tables and rings in the stand's range wait (R347): until its reset leaves step 6 on the main path; on the fallback path the range is zero from the start of step 6, and such reads return zeros (log entry 160). -/
def State.shut (s : State) (i : Nat) : Bool := s.beforeExit i && !((s.stand i).fallback && (s.stand i).rstStep == 6)

/-- PCIe accesses reach the device: it is ready and its link is up. -/
def State.live (s : State) : Bool := s.pcie.ready && s.pcie.linkState != 0

/-- The device serves work: firmware runs, no warm reset, power state Full. -/
def State.serving (s : State) : Bool :=
  s.trunk.fwRunning && !s.trunk.warmBusy && decide (s.bud.power = .full)

-- Free values and output.

/-- A fresh free value and the state with the use counted. -/
def State.free (s : State) : BitVec 64 × State := (Config.freeValue s.freeCtr, { s with freeCtr := s.freeCtr + 1 })

/-- Send something out. -/
def State.emit (s : State) (e : OutEv) : State := { s with out := e :: s.out }

-- HBM (R18).

/-- Bytes of one stand's range: 12 GiB. -/
def standSize : Nat := 0x300000000

/-- The stand that owns an address (R18). -/
def hbmStand (a : Nat) : Nat := a / standSize

/-- The channel within the stand (R18). -/
def hbmChannel (a : Nat) : Nat := a / 256 % 8

/-- What an unlisted byte reads as. -/
def memDefault : Byte := 0

/-- One byte. -/
def memGet : List Host.Cell → Nat → Byte
  | [], _ => memDefault
  | (i, v) :: r, a => if i = a then v else memGet r a

/-- Write one byte, keeping the list canonical. -/
def memPut : List Host.Cell → Nat → Byte → List Host.Cell
  | [], a, v => if v = memDefault then [] else [(a, v)]
  | (i, w) :: r, a, v =>
    if a < i then (if v = memDefault then (i, w) :: r else (a, v) :: (i, w) :: r)
    else if i = a then (if v = memDefault then r else (a, v) :: r)
    else (i, w) :: memPut r a v

/-- Addresses strictly rising from `lo`, none listed with the default. -/
def Memory.wfFrom : Nat → List Host.Cell → Bool
  | _, [] => true
  | lo, (i, v) :: r => decide (lo ≤ i) && v != memDefault && Memory.wfFrom (i + 1) r

/-- The canonical form. -/
def Memory.wf (m : List Host.Cell) : Bool := Memory.wfFrom 0 m

/-- Write a byte string. -/
def memPutAll : List Host.Cell → Nat → List Byte → List Host.Cell
  | m, _, [] => m
  | m, a, b :: r => memPutAll (memPut m a b) (a + 1) r

/-- Write the enabled bytes of a string. -/
def memPutSome : List Host.Cell → Nat → List (Option Byte) → List Host.Cell
  | m, _, [] => m
  | m, a, none :: r => memPutSome m (a + 1) r
  | m, a, some b :: r => memPutSome (memPut m a b) (a + 1) r

/-- `n` bytes from an address. -/
def memBytes (m : List Host.Cell) (a n : Nat) : List Byte := (List.range n).map fun i => memGet m (a + i)

/-- `n` bytes of HBM. -/
def State.hbmBytes (s : State) (a n : Nat) : List Byte := memBytes s.hbm a n

/-- Little-endian number of `n` bytes of HBM. -/
def State.hbmNat (s : State) (a n : Nat) : Nat := leNat (s.hbmBytes a n)

/-- First uncorrectable word of a range, as an address. Every word of a stand fenced for its HBM is one (R328). -/
def State.firstUe (s : State) (a n : Nat) : Option Nat :=
  if n = 0 then none
  else if (s.stand (hbmStand a)).hbmFenced then some (a / 8 * 8)
  else if (s.stand (hbmStand (a + n - 1))).hbmFenced then some (hbmStand (a + n - 1) * standSize)
  else (s.hbmBad.find? fun w => decide (a / 8 ≤ w) && decide (w < ceilDiv (a + n) 8)).map (8 * ·)

/-- Some 8-byte word of the range reads as an uncorrectable error. -/
def State.hbmUe (s : State) (a n : Nat) : Bool := (s.firstUe a n).isSome

/-- 8-byte words of the range that a write of it covers whole. -/
def wholeWords (a n : Nat) : List Nat :=
  (List.range (ceilDiv n 8 + 1)).map (a / 8 + ·) |>.filter fun w => decide (a ≤ 8 * w) && decide (8 * w + 8 ≤ a + n)

/-- Write bytes to HBM; a word written whole is no longer poisoned (R318). -/
def State.poke (s : State) (a : Nat) (bs : List Byte) : State :=
  let whole := fun w => decide (a ≤ 8 * w) && decide (8 * w + 8 ≤ a + bs.length)
  { s with hbm := memPutAll s.hbm a bs, hbmBad := s.hbmBad.filter fun w => !whole w }

/-- Write a little-endian number of `n` bytes. -/
def State.pokeNat (s : State) (a n v : Nat) : State := s.poke a (leBytes n v)

/-- Store words poisoned (R318). -/
def State.poisonWords (s : State) (ws : List Nat) : State := { s with hbmBad := ws.foldl insertN s.hbmBad }

-- PCIe functions and MSI-X (R279).

/-- Function `f`. -/
def State.func (s : State) (f : Nat) : PFunc := smGet {} s.pcie.funcs f

/-- Function `f` exists: the physical one, and as many virtual ones as VF Enable gives (R278). -/
def State.hasFunc (s : State) (f : Nat) : Bool := f == 0 || (s.pcie.vfEnable && decide (f ≤ s.pcie.numVfs) && decide (f < 32))

/-- Change function `f`. -/
def State.onFunc (s : State) (f : Nat) (g : PFunc → PFunc) : State :=
  s.onPcie fun p => { p with funcs := smUpd {} p.funcs f g }

/-- Number of MSI-X vectors of a function (Table 12-1). -/
def vectors (f : Nat) : Nat := if f = 0 then 2048 else 64

/-- Send the message of a vector if the function and the entry allow it, else set its pending bit (R279). -/
def State.raise (s : State) (f vec : Nat) : State :=
  let p := s.func f
  let e := smGet {} p.msix vec
  if p.msixEnable && p.busMaster && !e.masked then
    (s.onFunc f fun p => { p with pba := removeN p.pba vec }).emit (.msix f vec e.addr e.data)
  else s.onFunc f fun p => { p with pba := insertN p.pba vec }

/-- Send every pending message that is now allowed. -/
def State.raisePending (s : State) (f : Nat) : State := (s.func f).pba.foldl (fun s v => s.raise f v) s

/-- The requests of at most `most` bytes that cover `n` bytes at `a`, none of which crosses a 4 KiB boundary (R287): address and length. -/
def splitReq (most : Nat) : Nat → Nat → Nat → List (Nat × Nat)
  | 0, _, _ => []
  | fuel + 1, a, n =>
    let k := min n (min (max 1 most) (4096 - a % 4096))
    if n = 0 then [] else (a, k) :: splitReq most fuel (a + k) (n - k)

/-- Posted writes to host memory; a function whose Bus Master Enable is 0 issues none (R287). Relaxed Ordering is for data of a STORE alone. -/
def State.hostPost (s : State) (f a : Nat) (bs : List Byte) (poisoned store : Bool) : State :=
  if (s.func f).busMaster then
    (splitReq s.pcie.cfg.payload bs.length a bs.length).foldl (fun (s : State) r => s.emit (.hostWrite f r.1 (sub bs (r.1 - a) r.2) poisoned (store && (s.func f).relaxedOrder))) s
  else s

/-- The read requests that fetch `n` bytes at host address `a` (R287). -/
def State.readReqs (s : State) (a n : Nat) : List (Nat × Nat) := splitReq (min s.pcie.cfg.readRequest 512) n a n

/-- Read requests to host memory are issued for function `f` (R287). -/
def State.hostAsk (s : State) (f a n : Nat) (fetch : Bool) : State :=
  (s.readReqs a n).foldl (fun (s : State) r => s.emit (.hostRead f r.1 r.2 (fetch && (s.func f).relaxedOrder))) s

/-- A write of the device to memory named by an address of Table 8-2 in space 1 or 2, by function `f` (R287). -/
def State.writeAddr (s : State) (f : Nat) (a : Addr) (bs : List Byte) : State :=
  match a with
  | .hbm o => s.poke o bs
  | .host o => s.hostPost f o bs false false
  | _ => s

-- Error records (R336, R337).

/-- Kind code (Tables 14-8, 15-10, 16-8, 17-12, 18-7, 19-16). -/
def RKind.code : RKind → Nat
  | .factoryRecord => 0x01 | .calMismatch => 0x02 | .reprogramDue => 0x03 | .markerFound => 0x04 | .mapMarker => 0x05
  | .readbackFail => 0x06 | .endurance => 0x07 | .refFault => 0x08 | .checkFail => 0x09 | .bias => 0x0A | .fence => 0x0B
  | .hbmCe => 0x0C | .hbmUe => 0x0D | .parity => 0x0E | .poison => 0x0F | .holdFault => 0x10 | .imageLost => 0x11
  | .ringDisabled => 0x12 | .collDigest => 0x13 | .ftResult => 0x14 | .digestMismatch => 0x15 | .diagnosis => 0x16
  | .reset => 0x20 | .tablesLost => 0x21 | .hangGuilty => 0x22 | .dump => 0x23
  | .pwrRefused => 0x30 | .throttle => 0x31 | .thermalTrip => 0x32 | .capExceeded => 0x33
  | .storeRecovery => 0x40 | .storeBadSector => 0x41 | .storeReadOnly => 0x42
  | .fwVerifyFail => 0x50 | .bootRecovery => 0x51 | .trialReverted => 0x52 | .ownerChanged => 0x53 | .debugGranted => 0x54
  | .identityFail => 0x55 | .xmssLow => 0x56 | .vinLow => 0x60
  | .ownerMissing => Config.ownerMissingKind.toNat

/-- Severity of a kind: 0 INFO, 1 WARNING, 2 ERROR; FT_RESULT and DIAGNOSIS are given by their writer. -/
def RKind.severity : RKind → Nat
  | .calMismatch | .reprogramDue | .markerFound | .endurance | .hbmCe | .reset | .throttle | .capExceeded
  | .storeRecovery | .storeBadSector | .trialReverted | .debugGranted | .vinLow => 1
  | .dump | .pwrRefused | .ownerChanged | .ftResult | .diagnosis => 0
  | _ => 2

/-- A unit field of a record (Table 14-7): depth, stand, bough within stand, leaf, column. -/
def recUnit (depth st bo lf col : Nat) : Word := wordOf (at_ depth 29 + at_ st 27 + at_ bo 25 + at_ lf 20 + at_ col 9)

/-- The device. -/
def uDevice : Word := recUnit 0 0 0 0 0
/-- A stand. -/
def uStand (i : Nat) : Word := recUnit 1 i 0 0 0
/-- A bough. -/
def uBough (b : Nat) : Word := recUnit 2 (b / 4) (b % 4) 0 0
/-- A leaf by device-wide number. -/
def uLeaf (k : Nat) : Word := recUnit 3 (k / 18 / 4) (k / 18 % 4) (k % 18) 0
/-- A physical column of a leaf. -/
def uColumn (k c : Nat) : Word := recUnit 4 (k / 18 / 4) (k / 18 % 4) (k % 18) c

/-- Unit code of a command or register (Table 11-6): depth, stand, bough within stand, leaf. -/
def unitCode (depth st bo lf : Nat) : Word := wordOf (at_ depth 30 + at_ st 28 + at_ bo 26 + at_ lf 21)

/-- The 64 bytes of a record (Table 14-7). -/
def ERec.bytes (r : ERec) : List Byte :=
  let b := leBytes 4 r.seq.toNat ++ [byteOf r.severity, byteOf r.source] ++ leBytes 2 r.kind.code ++ leBytes 4 r.unit.toNat
    ++ [r.opcode, byteOf (b2n r.signature)] ++ leBytes 2 r.opIndex.toNat ++ leBytes 4 r.queue.toNat
    ++ leBytes 4 r.context.toNat ++ leBytes 8 r.cycles.toNat ++ leBytes 8 r.hostEpoch.toNat ++ leBytes 2 r.temp.toNat
    ++ leBytes 2 r.supply.toNat ++ leBytes 4 r.detail.toNat ++ leBytes 8 r.detail2.toNat ++ leBytes 2 r.repeats.toNat
    ++ leBytes 2 r.lost.toNat
  b ++ leBytes 4 (crc32c b).toNat

/-- CBOR head: major type and argument in the shortest form (RFC 8949, 4.2.1). -/
def cborHead (major n : Nat) : List Byte :=
  let m := major * 32
  let be := fun k => (leBytes k n).reverse
  if n < 24 then [byteOf (m + n)] else if n < 256 then byteOf (m + 24) :: be 1
  else if n < 65536 then byteOf (m + 25) :: be 2 else if n < 2 ^ 32 then byteOf (m + 26) :: be 4
  else byteOf (m + 27) :: be 8

/-- CBOR integer. -/
def cborInt (i : Int) : List Byte := if 0 ≤ i then cborHead 0 i.toNat else cborHead 1 (-1 - i).toNat

/-- CBOR array of integers. -/
def cborArr (l : List Int) : List Byte := cborHead 4 l.length ++ l.flatMap cborInt

/-- CBOR byte string. -/
def cborBytes (l : List Byte) : List Byte := cborHead 2 l.length ++ l

/-- What a failure signature adds to a record (Table 14-9): D, τ and check group; raw codes; driven digits. -/
structure SigInfo where
  check : Option (Int × Int × Nat) := none
  codes : List Byte := []
  digits : List Byte := []
  deriving DecidableEq, Repr

/-- The failure signature that follows a record (R338), padded to 64 bytes. -/
def State.signature (s : State) (r : ERec) (g : SigInfo) : List Byte :=
  let depth := fld r.unit 31 29
  let path : List Int := (([fld r.unit 28 27, fld r.unit 26 25, fld r.unit 24 20, fld r.unit 19 9].take depth).map (fun (n : Nat) => (n : Int)))
  let b := 4 * fld r.unit 28 27 + fld r.unit 26 25
  let k := leafNo b (fld r.unit 24 20)
  let lf := s.leaf k
  let entries : List (Nat × List Byte) :=
    [(0, cborInt 1), (1, cborArr [fld s.trunk.partId 15 0, fld s.trunk.partId 23 16]), (2, cborInt r.kind.code), (3, cborArr path),
     (4, cborArr ([rhe (((sext 16 r.temp.toNat * 10 : Int) : Rat) / 256), r.supply.toNat] ++
        (if 3 ≤ depth then [(lf.cadence.toNat : Int)] else [0]) ++ (if 2 ≤ depth then [((s.bough b).freqMhz.toNat : Int)] else [0])))]
    ++ (if 3 ≤ depth then [(5, cborArr [lf.width.toNat, lf.rangeFirst.toNat, lf.rangeSecond.toNat, lf.generation.toNat, lf.record.cycles, lf.noiseSigma.toNat])] else [])
    ++ (match g.check with | some (d, t, c) => [(6, cborArr [d, t, c])] | none => [])
    ++ (if g.codes = [] then [] else [(7, cborBytes g.codes)])
    ++ (if g.digits = [] then [] else [(8, cborBytes ((shake256 g.digits).take 8))])
    ++ (if 3 ≤ depth then [(9, cborArr [lf.checkRet, lf.biasTrips, lf.fences])] else [])
    ++ [(10, cborInt s.store.counters.svn), (11, cborInt s.trunk.hostEpoch.toNat)]
  let m := cborHead 5 entries.length ++ entries.flatMap fun e => cborInt e.1 ++ e.2
  let t := leBytes 2 m.length ++ m
  t ++ List.replicate (roundUp t.length 64 - t.length) 0

/-- Kinds whose records a failure signature follows (R338). -/
def signed (k : RKind) (sev : Nat) : Bool :=
  match k with
  | .checkFail | .bias | .fence | .digestMismatch => true
  | .ftResult => sev == 2
  | _ => false

/-- Entries of the record ring (Table 15-9). -/
def State.recEntries (s : State) : Nat := 2 ^ clampN 6 16 s.trunk.recLog2.toNat

/-- The ring's address; records are written only in space 0x1 or 0x2 (R337). -/
def State.recRing (s : State) : Option Addr :=
  if !s.trunk.recEnable then none
  else match decodeAddr s.trunk.recBase.toNat with
    | .hbm a => some (.hbm a)
    | .host a => some (.host a)
    | _ => none

/-- Write one 64-byte entry into the record ring and count it. -/
def State.ringEntry (s : State) (ring : Addr) (bs : List Byte) : State :=
  let idx := s.trunk.recHead.toNat % s.recEntries
  (s.writeAddr 0 (ring.add (64 * idx : Nat)) bs).onTrunk fun t => { t with recHead := t.recHead + 1 }

/-- 64-byte pieces of a byte string. -/
def chunks64 : Nat → List Byte → List (List Byte)
  | 0, _ => []
  | n + 1, bs => bs.take 64 :: chunks64 n (bs.drop 64)

/-- Island whose temperature, cycles and supply a record of a unit carries (Table 16-1). -/
def islandOf (source : Nat) (unit : Word) : Nat :=
  let st := fld unit 28 27
  match source with
  | 2 => 16 + st
  | 3 | 4 => 4 * st + fld unit 26 25
  | 5 | 6 => 20 + st
  | 7 => 26
  | 8 => 27
  | 1 => 28
  | _ => 25

/-- Fields of a record that its writer may give beyond kind and unit. -/
structure RecInfo where
  source : Nat := 0
  severity : Option Nat := none
  opcode : Byte := 0xFF#8
  opIndex : Nat := 0
  queue : Option Nat := none
  context : Option Nat := none
  detail : Nat := 0
  detail2 : Nat := 0
  sig : SigInfo := {}
  deriving DecidableEq, Repr

/-- Write a record of `need` entries into the ring with its interrupt, or count it as lost where the ring has no room (R337, Table 15-9). -/
def State.deliverRecord (s : State) (need : Nat) (bs : List Byte) : State :=
  match s.recRing with
  | none => s
  | some ring =>
    if s.recEntries < (s.trunk.recHead - s.trunk.recTail).toNat + need then
      s.onTrunk fun t => { t with lost := satInc t.lost, recLost := satInc t.recLost }
    else
      let s1 := ((chunks64 need bs).foldl (fun s c => s.ringEntry ring c) s).onTrunk fun t => { t with lost := 0 }
      if s1.trunk.recIrqEn then s1.raise 0 s1.trunk.recVector.toNat else s1

/-- Alert bits that a record sets (R419). -/
def State.recordAlert (s : State) (k : RKind) (sev : Nat) : State :=
  let s1 := if sev == 2 then s.alert 1 else s
  match k with
  | .fence => s1.alert 2
  | .capExceeded => s1.alert 8
  | .vinLow => s1.alert 16
  | .storeReadOnly => s1.alert 32
  | _ => s1

/-- Generate an error record, or count it as a repeat under the 1 ms spacing (R336, R337). -/
def State.record (s : State) (k : RKind) (unit : Word) (i : RecInfo) : State :=
  let sp := s.trunk.spacing.find? fun e => decide (e.kind = k) && e.unit == unit
  let rest := s.trunk.spacing.filter fun e => !(decide (e.kind = k) && e.unit == unit)
  match sp with
  | some e =>
    if s.trunk.time < e.at_ + 10 then
      s.onTrunk fun t => { t with spacing := { e with repeats := satInc e.repeats } :: rest }
    else go (e.repeats) rest
  | none => go 0 rest
where
  /-- Generate the record. -/
  go (reps : BitVec 16) (rest : List Spacing) : State :=
    let sev := i.severity.getD k.severity
    let isl := islandOf i.source unit
    let n := s.freeCtr
    let sg := signed k sev
    let r : ERec :=
      { seq := s.trunk.recSeq, severity := sev, source := i.source, kind := k, unit := unit, opcode := i.opcode,
        signature := sg, opIndex := BitVec.ofNat 16 i.opIndex,
        queue := match i.queue with | some q => wordOf (q % 2 ^ 20) | none => 0xFFFFFFFF#32,
        context := match i.context with | some c => wordOf (c % 2 ^ 18) | none => 0xFFFFFFFF#32,
        cycles := Config.islandCycles isl n, hostEpoch := s.trunk.hostEpoch,
        temp := BitVec.ofNat 16 (toBits 16 (smGet 0 s.bud.temps isl)), supply := Config.supplyMv isl n,
        detail := wordOf i.detail, detail2 := BitVec.ofNat 64 i.detail2, repeats := reps, lost := s.trunk.lost }
    let sigPart := if sg then s.signature r i.sig else []
    let need := 1 + sigPart.length / 64
    let s1 := { s with freeCtr := n + 1 }.onTrunk fun t =>
      { t with
        recSeq := t.recSeq + 1, onDie := (t.onDie ++ [r]).drop ((t.onDie.length + 1) - 64),
        spacing := { kind := k, unit := unit, at_ := t.time } :: rest }
    (s1.deliverRecord need (r.bytes ++ sigPart)).recordAlert k sev

-- Uncorrectable errors (R317, R319).

/-- A controller reports an uncorrectable error of the word at an address: count, address, bit and record. -/
def State.reportUe (s : State) (a : Nat) : State :=
  let st := hbmStand a
  let ch := hbmChannel a
  (s.onStand st fun d => { d with ueSeen := d.ueSeen ||| BitVec.ofNat 8 (2 ^ ch), ueAddr := BitVec.ofNat 64 (a / 8 * 8),
                                  ueCnt := smUpd 0 d.ueCnt ch satInc }).record .hbmUe (uStand st)
    { source := 6, detail := 8 * st + ch, detail2 := a / 8 * 8 }

/-- Write bytes to HBM as a controller does: a partial write into an uncorrectable word is reported and leaves it poisoned (R318). -/
def State.hbmWrite (s : State) (a : Nat) (bs : List Byte) : State :=
  let s1 := s.poke a bs
  let part := s1.hbmBad.filter fun w => decide (a / 8 ≤ w) && decide (w < ceilDiv (a + bs.length) 8)
  part.foldl (fun s w => s.reportUe (8 * w)) s1

/-- Outcome of a meaning: the next state. -/
abbrev Res : Type := Host.Outcome State Fault Refusal

/-- The step goes on in `s`. -/
abbrev ok (s : State) : Res := .next s

end Sys2Proof.Machine
end

