-- ==== Sys2Proof/Machine/StoreOps.lean ====
section
/-! DEFINITION. Operations of the heartwood store (chapter 17): queueing of writes, placing of records in the log, recovery and compaction. -/

namespace Sys2Proof.Machine

/-- Payload bytes of a record (Tables 17-4 and 17-13). -/
def Payload.length : Payload → Nat
  | .factory _ => 8
  | .helper b => b.length
  | .refCodes _ => 32
  | .leaf _ => 348
  | .leafMap _ => 260
  | .fence _ => 32
  | .role _ => 16
  | .ownerKey _ => 68
  | .policy _ => 8
  | .slotState _ => 4
  | .xmss _ => 8
  | .ring _ => 8
  | .raw b => b.length

/-- Bytes of a record from header to trailer (R377). -/
def Payload.span (p : Payload) : Nat := 20 + p.length

/-- Key of the leaf record of physical leaf `k` (Table 17-4). -/
def leafKey (k : Nat) : Nat := 0x02000000 + k
def mapKey : Nat := 0x03000000
def fenceKey : Nat := 0x04000000
def roleKey : Nat := 0x05000000
def ownerKeyAt (i : Nat) : Nat := 0x06000000 + i
def policyKey : Nat := 0x06000010
def slotKey : Nat := 0x06000020
def xmssKey : Nat := 0x07000000

/-- Current record of a key, from the on-die index (R379). -/
def State.current (s : State) (key : Nat) : Option Payload := (smFind s.store.index key).map (·.payload)

/-- The role record; absent = STANDALONE (R290). -/
def State.roleRec (s : State) : RoleRec :=
  match s.current roleKey with
  | some (.role r) => r
  | _ => {}

/-- The owner policy in force (R401): the current record, or the defaults. -/
def State.policy (s : State) : Policy :=
  match s.current policyKey with
  | some (.policy p) => p
  | _ => {}

/-- Slot state record (R396); absent: active A, no trial (log entry 17). -/
def State.slotState (s : State) : SlotState :=
  match s.current slotKey with
  | some (.slotState p) => p
  | _ => {}

/-- Durable XMSS reservation limit (R406). -/
def State.xmssRec (s : State) : Nat :=
  match s.current xmssKey with
  | some (.xmss n) => n
  | _ => 0

/-- Public key of the current owner (R400); in Returned owner records are ignored (R399). -/
def State.ownerPk (s : State) : Option (List Byte) :=
  if s.store.counters.ownership = 0 ∨ s.store.counters.lifecycle = 3 then none
  else match s.current (ownerKeyAt s.store.counters.ownership) with
    | some (.ownerKey k) => some k
    | _ => none

/-- The fence record (R329). -/
def State.fenceRec (s : State) : FenceRec :=
  match s.current fenceKey with
  | some (.fence f) => f
  | _ => {}

/-- Payload of the valid factory-section record of a key (R377). -/
def State.factoryAt (s : State) (key : Nat) : Option Payload :=
  (s.store.factory.find? fun (p : Placed) => p.valid && p.entry.key == key).map fun p => p.entry.payload

/-- The factory record when it is valid (R3): present, its CRC-32C right, its map as its part code says. -/
def State.factoryRec (s : State) : Option FactoryRec :=
  match s.factoryAt 0x01000000 with
  | some (.factory f) =>
    let n := popCount 16 f.map.toNat
    let per := (List.range 4).all fun i => popCount 4 (f.map.toNat >>> (4 * i)) == 3
    if f.partCode = 0x2048#16 ∧ n = 16 then some f
    else if f.partCode = 0x1536#16 ∧ n = 12 ∧ per then some f else none
  | _ => none

/-- Part code of a valid factory record, else 0 (R3). -/
def State.factoryPart (s : State) : Nat := match s.factoryRec with | some f => f.partCode.toNat | none => 0

/-- Priority of a write (R382, R391, R392): fence records and counters, leaf map, leaf records, all others, rings. -/
def WriteReq.prio : WriteReq → Nat
  | .record r _ => if r.key = fenceKey then 0 else if r.key = mapKey then 1 else if 0x02000000 ≤ r.key ∧ r.key < 0x02000000 + 288 then 2 else 3
  | .counter _ _ => 0
  | .ring _ _ => 4

/-- Queue a write after those of its priority. -/
def enqueue (q : List WriteReq) (w : WriteReq) : List WriteReq :=
  q.filter (fun x => x.prio ≤ w.prio) ++ w :: q.filter (fun x => w.prio < x.prio)

/-- Queue a write; a READ_ONLY store refuses it (R383). -/
def State.storeWrite (s : State) (w : WriteReq) : State :=
  if s.store.state = .readOnly then s else s.onStore fun d => { d with queue := enqueue d.queue w }

/-- The store refuses every write (R383). -/
def State.storeRefuses (s : State) : Bool := decide (s.store.state = .readOnly)

/-- Queue a record. -/
def State.storeRec (s : State) (key : Nat) (p : Payload) (who : Requester) : State :=
  s.storeWrite (.record { key := key, payload := p } who)

/-- The write of a key or ring that is still queued or in progress. -/
def State.storeIdle (s : State) : Bool := decide (s.store.busy = .idle) && s.store.queue.isEmpty

/-- The log's sectors: 16 to 1,535. -/
def logSectors : Nat := 1520

/-- A sector of the log. -/
def State.sector (s : State) (k : Nat) : Sector := smGet {} s.store.log k

/-- Number of ERASED log sectors. -/
def Store.erasedCount (d : Store) : Nat := logSectors - (d.log.filter fun p => decide (p.2.state ≠ .erased)).length

/-- Largest sector_seq in the log. -/
def Store.maxSeq (d : Store) : Nat := d.log.foldl (fun m p => max m p.2.seq) 0

/-- The next ERASED log sector after sector `k`, in cyclic order (log entry 16). -/
def Store.nextErased (d : Store) (k : Nat) : Option Nat :=
  ((List.range logSectors).map fun i => 16 + (k + 1 - 16 + i) % logSectors).find? fun j =>
    decide ((smGet {} d.log j).state = .erased)

/-- Open the next ERASED sector for writing (R381, Table 17-7 step 7). -/
def Store.openNext (d : Store) : Store :=
  let from_ := d.openSec.getD 15
  match d.nextErased from_ with
  | none => { d with openSec := none }
  | some k =>
    let old := smGet {} d.log k
    { d with openSec := some k,
             log := smSet d.log k { old with state := .opened, seq := d.maxSeq + 1, recs := [], free := 16 } }

/-- Mark the open sector FULL and open another. -/
def Store.nextSector (d : Store) : Store :=
  match d.openSec with
  | none => d.openNext
  | some k => { d with log := smUpd {} d.log k fun x => { x with state := .full } }.openNext

/-- Program one copy of a record in the open sector, in the next one when it does not fit (R381). -/
def Store.place (d : Store) (r : Rec) (valid : Bool) : Store :=
  let n := r.payload.span
  let fits : Bool := match d.openSec with
    | some k => decide ((smGet {} d.log k).free + n ≤ 4096)
    | none => false
  let d1 := if fits then d else d.nextSector
  match d1.openSec with
  | none => d1
  | some k => { d1 with log := smUpd {} d1.log k fun x =>
      { x with recs := x.recs ++ [{ off := x.free, entry := r, valid := valid }], free := roundUp (x.free + n) 16 } }

/-- Write a record whose verify fails `f` times: retries in one sector, a new sector after the third, READ_ONLY after three sectors (R383). Answers whether it became durable. -/
def Store.writeRec (d : Store) (r : Rec) : Nat → Store × Bool
  | f =>
    let bad := fun (d : Store) (n : Nat) => (List.range n).foldl (fun d _ => d.place r false) d
    if 9 ≤ f then
      let d1 := (bad d 3).nextSector
      let d2 := (bad d1 3).nextSector
      ({ bad d2 3 with state := .readOnly, errStatus := d.errStatus ||| 0x30#6 }, false)
    else
      let d1 := if 3 ≤ f then (bad d 3).nextSector else d
      let d2 := if 6 ≤ f then (bad d1 3).nextSector else d1
      let d3 := (bad d2 (f % 3)).place r true
      ({ d3 with index := smSet d3.index r.key r, writeCnt := satInc d3.writeCnt,
                 errStatus := if f = 0 then d3.errStatus else d3.errStatus ||| 0x10#6 }, true)

/-- Sequence number a new record of a key takes (R379). -/
def Store.nextSeq (d : Store) (key : Nat) : Word :=
  match smFind d.index key with
  | some r => r.seq + 1
  | none => 0

/-- Write the next slot of a ring (R391). -/
def Ring.update (g : Ring) (v : Nat) : Ring :=
  if g.slot < 254 then { g with value := v, seq := g.seq + 1, slot := g.slot + 1 }
  else { g with value := v, seq := g.seq + 1, slot := 0, sector := 1 - g.sector, eraseDue := true }

/-- Value of a counter. -/
def Counters.get (c : Counters) : CounterId → Nat
  | .ownership => c.ownership
  | .svn => c.svn
  | .lifecycle => c.lifecycle
  | .debug => c.debug

/-- Units of a counter (Table 17-9). -/
def CounterId.units : CounterId → Nat
  | .ownership => 8
  | .svn => 64
  | .lifecycle => 3
  | .debug => 32

/-- Program one unit of a counter (R392). -/
def Counters.inc (c : Counters) (i : CounterId) : Counters :=
  if i.units ≤ c.get i then c
  else match i with
    | .ownership => { c with ownership := c.ownership + 1 }
    | .svn => { c with svn := c.svn + 1 }
    | .lifecycle => { c with lifecycle := c.lifecycle + 1 }
    | .debug => { c with debug := c.debug + 1 }

/-- Perform one request of a write operation; `f` verify failures. Answers whether it is durable. -/
def Store.perform (d : Store) (w : WriteReq) (f : Nat) : Store × Bool :=
  match w with
  | .record r _ => d.writeRec { r with seq := d.nextSeq r.key } f
  | .ring i v =>
    if (nth {} d.rings i).inLog then
      let (d1, k) := d.writeRec { key := 0x08000000 + i, seq := d.nextSeq (0x08000000 + i), payload := .ring v } f
      ({ d1 with rings := modAt d1.rings i fun g => { g with value := v } }, k)
    else ({ d with rings := modAt d.rings i (·.update v) }, true)
  | .counter c _ => ({ d with counters := d.counters.inc c }, true)

/-- Pages a request programs at an offset of the open sector (R384). -/
def WriteReq.pages (w : WriteReq) (off : Nat) : Nat :=
  match w with
  | .record r _ => (off + r.payload.span - 1) / 256 - off / 256 + 1
  | _ => 1

/-- The value that the next update of ring `i` writes: one more than the last value written or waiting to be written (Table 17-8). -/
def State.ringNext (s : State) (i : Nat) : Nat :=
  let ws := (match s.store.busy with | .write l => l | _ => []) ++ s.store.queue
  ws.foldl (fun m w => match w with | .ring j v => if j = i then max m v else m | _ => m) (nth {} s.store.rings i).value + 1

/-- The longest front of the queue that takes at most 24 pages (R382). -/
def takePages : List WriteReq → Nat → Nat → List WriteReq
  | [], _, _ => []
  | w :: r, o, left =>
    -- A record that does not fit goes to the start of a new sector (R381).
    let off := match w with | .record x _ => if o + x.payload.span ≤ 4096 then o else 16 | _ => o
    let p := w.pages off
    if p ≤ left then w :: takePages r (match w with | .record x _ => roundUp (off + x.payload.span) 16 | _ => off) (left - p) else []

/-- Records of a sector that are current for their key (R389). -/
def Store.liveRecs (d : Store) (k : Nat) : List Rec :=
  (smGet {} d.log k).recs.filterMap fun p =>
    match smFind d.index p.entry.key with
    | some r => if p.valid && r.seq == p.entry.seq && decide (r.payload = p.entry.payload) then some p.entry else none
    | none => none

/-- Known keys (Table 17-4); compaction discards the others. -/
def knownKey (k : Nat) : Bool :=
  decide (0x02000000 ≤ k ∧ k < 0x02000000 + 288) || k == mapKey || k == fenceKey || k == roleKey
    || decide (0x06000000 ≤ k ∧ k ≤ 0x060000FF) || k == xmssKey || decide (0x08000000 ≤ k ∧ k < 0x08000003)

/-- Copy the live records of a sector to the open sector (R389 step 2). -/
def Store.copyLive (d : Store) (k : Nat) : Store :=
  ((d.liveRecs k).filter fun r => knownKey r.key).foldl (fun d r => { d.place r true with writeCnt := satInc d.writeCnt }) d

/-- Erase a log sector. -/
def Store.eraseSector (d : Store) (k : Nat) : Store :=
  { d with log := smUpd {} d.log k fun x => { x with state := .erased, recs := [], free := 16, copied := false, erases := x.erases + 1 } }

/-- The FULL or RECLAIMING sector with the smallest sector_seq (R389). -/
def Store.oldest (d : Store) : Option Nat :=
  (d.log.foldl (fun (m : Option (Nat × Nat)) p =>
    if p.2.state = .full ∨ p.2.state = .reclaiming then
      match m with
      | some (_, q) => if p.2.seq < q then some (p.1, p.2.seq) else m
      | none => some (p.1, p.2.seq)
    else m) none).map (·.1)

/-- Which of two valid records of one key is current (R379, R380): `b` is later in append order. -/
def newer (a b : Rec) : Rec :=
  if a.seq.toNat < b.seq.toNat then b else if b.seq.toNat < a.seq.toNat then a
  else match a.payload, b.payload with
    | .xmss x, .xmss y => if y < x then a else b
    | _, _ => b

/-- The payload is of the kind and length that its key has (Tables 17-4, 17-13); a record that is not counts as not valid for its key (R428), and one of an unknown key is ignored (R378). -/
def Rec.fits (r : Rec) : Bool :=
  match r.payload with
  | .leaf _ => decide (0x02000000 ≤ r.key ∧ r.key < 0x02000000 + 288)
  | .leafMap _ => r.key == mapKey
  | .fence _ => r.key == fenceKey
  | .role _ => r.key == roleKey
  | .ownerKey k => decide (0x06000001 ≤ r.key ∧ r.key ≤ 0x06000008) && decide (k.length = 68)
  | .policy _ => r.key == policyKey
  | .slotState _ => r.key == slotKey
  | .xmss _ => r.key == xmssKey
  | .ring _ => decide (0x08000000 ≤ r.key ∧ r.key < 0x08000003)
  | .factory _ | .helper _ | .refCodes _ | .raw _ => false

/-- Sectors in append order. -/
def Store.inOrder (d : Store) : List (Nat × Sector) :=
  (d.log.filter fun p => decide (p.2.state ≠ .erased ∧ p.2.state ≠ .bad ∧ p.2.state ≠ .torn)).mergeSort fun a b => a.2.seq ≤ b.2.seq

/-- Scan the log and build the index of current records (Table 17-7 step 6). -/
def Store.scan (d : Store) : SMap Rec :=
  d.inOrder.foldl (fun m p => p.2.recs.foldl (fun m x =>
    if x.valid && x.entry.fits then
      match smFind m x.entry.key with
      | some r => smSet m x.entry.key (newer r x.entry)
      | none => smSet m x.entry.key x.entry
    else m) m) []

/-- Power-up recovery (R388, Table 17-7). -/
def Store.recover (d : Store) (timeUs : BitVec 16) : Store :=
  let e0 := if d.counters.tornUnit then 1 else 0
  let ringTorn := d.rings.any (·.torn)
  let secTorn := d.log.any fun p => decide (p.2.state = .torn)
  let recl := (d.log.filter fun p => decide (p.2.state = .reclaiming)).map (·.1)
  let tornRec := d.log.any fun p => decide (p.2.state = .opened) && p.2.recs.any (!·.valid)
  let ignored := nsum (d.log.map fun p => (p.2.recs.filter (!·.valid)).length)
  -- Steps 1, 2, 4 and 5; a sector whose erase was cut off takes the largest erase_count of the region (R381)
  let d1 : Store :=
    { d with counters := { d.counters with tornUnit := false },
             rings := d.rings.map fun g => { g with torn := false, eraseDue := false },
             log := d.log.map fun p => (p.1, if p.2.state = .torn then { p.2 with state := .erased, recs := [], free := 16, erases := d.log.foldl (fun n q => max n q.2.erases) 0 }
               else if p.2.state = .opened then { p.2 with state := .full } else p.2),
             openSec := none }
  -- Step 6, then step 7 and the completion of interrupted compactions (step 3)
  let d2 := { d1 with index := d1.scan }.openNext
  let d3 := recl.foldl (fun d k => (d.copyLive k).eraseSector k) d2
  { d3 with errStatus := d3.errStatus ||| BitVec.ofNat 6 (e0 + (if recl = [] then 0 else 2) + (if ringTorn || secTorn then 4 else 0) + (if tornRec then 8 else 0)),
            recNote := decide (e0 ≠ 0) || !recl.isEmpty || ringTorn || secTorn || tornRec || decide (0 < ignored),
            ignored := wordOf ignored, scanTime := timeUs, state := .ready, busy := .idle, queue := [] }

/-- What a loss of 12 V leaves of the step in progress (R387): the first `kept` requests were programmed whole, the next one is torn. -/
def Store.cutOff (d : Store) (kept : Nat) : Store :=
  let d1 := match d.busy with
    | .idle => d
    | .write ws =>
      let done := (ws.take kept).foldl (fun (d : Store) w => (d.perform w 0).1) d
      match (ws.drop kept).head? with
      | some (.record r _) => done.place { r with seq := done.nextSeq r.key } false
      | some (.counter c _) => { done with counters := { done.counters.inc c with tornUnit := true } }
      | _ => done
    | .erase k => { d with log := smUpd {} d.log k fun x => { x with state := .torn } }
    | .compact k => if 0 < kept then d.copyLive k else d
    | .ringErase i => { d with rings := modAt d.rings i fun g => { g with torn := true } }
  { d1 with busy := .idle, queue := [], index := [], state := .recovering, errStatus := 0, ignored := 0, writeCnt := 0,
            scanTime := 0, openSec := d1.openSec }

end Sys2Proof.Machine
end

