-- ==== Sys2Proof/Machine/AelOps.lean ====
section
/-! DEFINITION. Operations of the Aetholo block (chapter 13): routes, sending against credits, and the steps of a collective run on this device. -/

namespace Sys2Proof.Machine

/-- Own device number (R291). -/
def State.myDev (s : State) : Nat :=
  match s.ael.role.role with
  | .worker => 1 + 16 * s.ael.role.ring + s.ael.role.position
  | _ => 0

def State.isManager (s : State) : Bool := decide (s.ael.role.role = .manager)
def State.isWorker (s : State) : Bool := decide (s.ael.role.role = .worker)
/-- The device has a role in a system (R344 step 1). -/
def State.hasRole (s : State) : Bool := s.isManager || s.isWorker

/-- Ring and position of a worker's device number. -/
def devRing (d : Nat) : Nat := (d - 1) / 16
def devPos (d : Nat) : Nat := (d - 1) % 16

/-- Length of ring `r` as this device knows it. -/
def State.ringLen (s : State) (r : Nat) : Nat :=
  if s.isManager then nth 0 s.ael.role.ringLen r else if s.isWorker ∧ s.ael.role.ring = r then s.ael.ringN else 0

/-- Position `p` of ring `r` is reachable over side a, and over side b (R298). -/
def State.viaA (s : State) (r p : Nat) : Bool := !(s.ael.breaks.any fun b => b.1 == r && decide (b.2 ≤ p))
def State.viaB (s : State) (r p : Nat) : Bool := !(s.ael.breaks.any fun b => b.1 == r && decide (p < b.2))

/-- The manager reaches the worker over side b (R292, R298); none when it is unreachable. -/
def State.sideOf (s : State) (r p : Nat) : Option Bool :=
  let n := s.ringLen r
  if p < ceilDiv n 2 then (if s.viaA r p then some false else if s.viaB r p then some true else none)
  else (if s.viaB r p then some true else if s.viaA r p then some false else none)

/-- Port `p`. -/
def State.port (s : State) (p : Nat) : Port := nth {} s.ael.ports p

/-- Change port `p`. -/
def State.onPort (s : State) (p : Nat) (f : Port → Port) : State := s.onAel fun a => { a with ports := modAt a.ports p f }

/-- A link of a port. -/
def Port.link (q : Port) (sideB : Bool) : Link := if sideB then q.linkB else q.linkA

/-- Change a link of port `p`. -/
def State.onLink (s : State) (p : Nat) (sideB : Bool) (f : Link → Link) : State :=
  s.onPort p fun q => if sideB then { q with linkB := f q.linkB } else { q with linkA := f q.linkA }

/-- Flits of a message: a transfer carries a 32-byte header and a 16-byte tail beside its data, 240 bytes to a flit (R304, R305); a control message takes one (log entry 19). -/
def AelMsg.flits (m : AelMsg) : Nat :=
  match m with
  | .transfer _ _ _ _ _ _ data _ => ceilDiv (48 + data.length) 240
  | _ => 1

/-- Channel of a message (R296): control, data toward the manager, data leaving it. -/
def AelMsg.vc (m : AelMsg) : Nat :=
  match m with
  | .transfer _ _ _ _ up _ _ _ => if up then 1 else 2
  | _ => 0

/-- Credits of a channel when none is in use (R296). -/
def fullCredits (vc : Nat) : Nat := if vc = 0 then 32 else 128

/-- Bytes 0 to 247 of a flit (Table 13-1): link header, payload and CRC-32C over them. -/
def flitBody (f : SentFlit) (payload : List Byte) : List Byte :=
  let b := leBytes 4 (f.seq.toNat * 2 ^ 20 + f.creditRet * 2 ^ 12 + f.creditVc * 2 ^ 10) ++ payload
  b ++ leBytes 4 (crc32c b).toNat

/-- The 256 bytes of a flit (Table 13-1). -/
def SentFlit.bytes (f : SentFlit) : List Byte :=
  let b := flitBody f ((List.range 240).map (Config.aelPayload f.body))
  b ++ (List.range 8).map (Config.rsCheck b)

/-- A flit leaves on a link. -/
def State.emitFlit (s : State) (p : Nat) (sideB : Bool) (f : SentFlit) : State := s.emit (.flit p sideB f.bytes f.body)

/-- The channel whose credits the next flit returns, and how many (Table 13-1): the lowest that owes any, at most 255. -/
def Link.giveBack (q : Link) : Nat × Nat :=
  let vc := ((List.range 3).find? fun v => decide (nth 0 q.owed v ≠ 0)).getD 0
  (vc, min 255 (nth 0 q.owed vc))

/-- The next flit of a link's sequence is sent, and held with the last 256 for replay (R295). -/
def State.sendSeq (s : State) (p : Nat) (sideB : Bool) (body : FlitBody) : State :=
  let q := (s.port p).link sideB
  let (vc, n) := q.giveBack
  let f : SentFlit := { seq := q.txSeq, creditRet := n, creditVc := vc, body := body }
  (s.onLink p sideB fun q => { q with txSeq := q.txSeq + 1, owed := modAt q.owed vc (· - n), held := (q.held ++ [f]).drop (q.held.length + 1 - 256) }).emitFlit p sideB f

/-- A flit of a message is sent against a credit of its channel, or waits for one (R296). -/
def State.flitSend (s : State) (p : Nat) (sideB : Bool) (x : Nat × FlitBody) : State :=
  if nth 0 ((s.port p).link sideB).credits x.1 = 0 then s.onLink p sideB fun q => { q with waiting := q.waiting ++ [x] }
  else (s.onLink p sideB fun q => { q with credits := modAt q.credits x.1 (· - 1) }).sendSeq p sideB x.2

/-- Send what waits on a link that is up, as far as credits allow; while it retrains, traffic waits (R295, R296). -/
def State.drainLink (s : State) (p : Nat) (sideB : Bool) : State :=
  let q := (s.port p).link sideB
  if q.training ∨ !q.up then s
  else q.waiting.foldl (fun (s : State) x => s.flitSend p sideB x) (s.onLink p sideB fun q => { q with waiting := [] })

/-- Send a message on a link, flit by flit; a link that is down sends nothing (R295, R296). -/
def State.portSend (s : State) (p : Nat) (sideB : Bool) (m : AelMsg) : State :=
  let q := (s.port p).link sideB
  if !q.up ∧ !q.training then s
  else
    (s.onLink p sideB fun q => { q with waiting := q.waiting ++ (List.range m.flits).map fun k => (m.vc, .part m k (decide (k + 1 = m.flits))) }).drainLink p sideB

/-- Credits owed on a link that is up go back at once, in flits of their own (R296). -/
def State.returnOwed (s : State) (p : Nat) (sideB : Bool) : State :=
  (List.range 3).foldl (fun (s : State) _ =>
    let q := (s.port p).link sideB
    if q.up && !q.training && q.owed.any (· ≠ 0) then s.sendSeq p sideB .credit else s) s

/-- Send toward the manager from a worker (R292). -/
def State.sendUp (s : State) (m : AelMsg) : State :=
  match s.sideOf s.ael.role.ring s.ael.role.position with
  | some true => s.portSend 1 false m
  | _ => s.portSend 0 false m

/-- Send from the manager to a device (R297). -/
def State.sendTo (s : State) (dev : Nat) (m : AelMsg) : State :=
  if dev = 0 then s
  else match s.sideOf (devRing dev) (devPos dev) with
    | some b => s.portSend (devRing dev) b m
    | none => s

/-- Enabled rings. -/
def State.enabledRings (s : State) : List Nat := (List.range 4).filter fun r => bit s.ael.rings r

/-- Send a control message to every enabled ring, both ways (R307, R309). -/
def State.sendAll (s : State) (m : AelMsg) : State :=
  s.enabledRings.foldl (fun s r => (s.portSend r false m).portSend r true m) s

/-- Workers taking part in an entry, manager excluded (Table 13-2 ring_mask). -/
def State.workersOf (s : State) (mask : BitVec 4) : List Nat :=
  (s.enabledRings.filter fun r => bit mask r).flatMap fun r => (List.range (s.ringLen r)).map fun p => 1 + 16 * r + p

/-- Participants of an entry as the manager knows them. -/
def State.participants (s : State) (mask : BitVec 4) : List Nat := 0 :: s.workersOf mask

/-- This device takes part in an entry (R301). -/
def State.takesPart (s : State) (e : CollEnt) : Bool :=
  e.op == 6 || s.isManager || (s.isWorker && bit e.ringMask s.ael.role.ring)

/-- Parse a collective entry (Table 13-2); none where a field lies outside the table or src or dst leaves one stand's range (R300). -/
def parseColl (bs : List Byte) : Option CollEnt :=
  let g := fun o n => le bs o n
  let ad := fun o => match decodeAddr (g o 8) with | .hbm a => some a | _ => none
  match ad 8, ad 16 with
  | some src, some dst =>
    let op := g 0 1
    let bytes := g 24 4
    let red := op == 3 || op == 4
    let data := op == 2 || red
    let inStand := fun a => decide (a / standSize = (a + bytes - 1) / standSize) && decide (a / standSize = src / standSize)
    let okk := decide (1 ≤ op ∧ op ≤ 6)
      && (if red then g 1 1 == 5 || g 1 1 == 12 else g 1 1 == 0) && (if red then decide (g 2 1 ≤ 1) else g 2 1 == 0)
      && decide (g 3 1 < 16) && allZero (sub bs 37 27)
      && (if data then decide (64 ≤ bytes ∧ bytes ≤ 268435456 ∧ bytes % 64 = 0) && inStand src && inStand dst else bytes == 0)
      && (op != 2 || decide (g 28 1 ≤ 64)) && (op != 6 || decide (g 29 1 ≤ 64))
    if okk then
      some { op := op, dtype := g 1 1, func := g 2 1, ringMask := BitVec.ofNat 4 (g 3 1), trigger := g 4 2, done := g 6 2,
             src := src, dst := dst, bytes := bytes, root := g 28 1, peer := g 29 1, peerKnot := g 30 2 }
    else none
  | _, _ => none

/-- The stand of an entry on this device (R300). -/
def CollEnt.stand (e : CollEnt) : Nat := hbmStand e.src

/-- The shared fields that every participant must hold alike (R299). -/
def CollEnt.sig (e : CollEnt) : List Byte :=
  [byteOf e.op, byteOf e.dtype, byteOf e.func, byteOf e.ringMask.toNat, byteOf e.root] ++ leBytes 4 e.bytes

/-- Combine two 4-byte elements (R302). -/
def combineElem (dtype func a b : Nat) : Nat :=
  if dtype = 5 then
    let x := sext 32 a; let y := sext 32 b
    if func = 0 then toBits 32 (sat32 (x + y)).1 else toBits 32 (if x < y then y else x)
  else
    let x := fp32.decode a; let y := fp32.decode b
    if func = 0 then (fp32.encode (numAdd x y)).1
    else match x, y with
      | .nan, _ => fp32.nan
      | _, .nan => fp32.nan
      | x, y => (fp32.encode (if numLt x y then y else x)).1

/-- incoming + own, elementwise. -/
def combineBytes (dtype func : Nat) (a b : List Byte) : List Byte :=
  (List.range (a.length / 4)).flatMap fun i => leBytes 4 (combineElem dtype func (le a (4 * i) 4) (le b (4 * i) 4))

/-- Armed entry `e`. -/
def State.armed (s : State) (e : Nat) : Option Armed := smFind s.ael.armed e

/-- Change an armed entry. -/
def State.onArmed (s : State) (e : Nat) (f : Armed → Armed) : State :=
  match s.armed e with
  | some a => s.onAel fun x => { x with armed := smSet x.armed e (f a) }
  | none => s

/-- Change the run of an armed entry. -/
def State.onRun (s : State) (e : Nat) (f : CollRun → CollRun) : State :=
  s.onArmed e fun a => { a with run := a.run.map f }

/-- A run of the entry is in flight on this device. -/
def Armed.inFlight (a : Armed) : Bool := match a.run with | some r => r.started | none => false

/-- An armed entry may take a trigger token: the engine is enabled, no run is in flight and its stand is out of reset (R300, R310). -/
def State.collReady (s : State) (e : Nat) : Bool :=
  match s.armed e with
  | some a => s.ael.collEn && !a.inFlight && !s.inReset a.ent.stand
  | none => false

/-- The worker is the farthest one on its side of its ring: the next position outward, if any, is reached over the other side or not at all (R298, R302). -/
def State.isFarthest (s : State) : Bool :=
  let r := s.ael.role.ring
  let p := s.ael.role.position
  match s.sideOf r p with
  | some true => !(decide (0 < p) && s.sideOf r (p - 1) == some true)
  | _ => !(decide (p + 1 < s.ringLen r) && s.sideOf r (p + 1) == some false)

/-- Own contribution. -/
def State.ownData (s : State) (e : CollEnt) : List Byte := s.hbmBytes e.src e.bytes

/-- A transfer of this device's run. -/
def State.mkTransfer (s : State) (idx : Nat) (e : CollEnt) (up : Bool) (half : Nat) (d : List Byte) : AelMsg :=
  .transfer idx s.myDev s.ael.incarnation e.stand up half d (crc64 d)

/-- The manager's broadcast of data: half from each side of each ring (R305); a broken ring takes the whole from each side. -/
def State.sendHalves (s : State) (idx : Nat) (e : CollEnt) (d : List Byte) : State :=
  (s.enabledRings.filter fun r => bit e.ringMask r).foldl (fun s r =>
    if s.ael.breaks.any fun b => b.1 == r then
      (s.portSend r false (s.mkTransfer idx e false 0 d)).portSend r true (s.mkTransfer idx e false 0 d)
    else
      (s.portSend r false (s.mkTransfer idx e false 1 (d.take (e.bytes / 2)))).portSend r true
        (s.mkTransfer idx e false 2 (d.drop (e.bytes / 2)))) s

/-- This device's run of an entry ends with a failure; data that came before its start is dropped. The first failure named stands (R310). The cut of a SNAPSHOT that fails is gone with it (R306). -/
def State.failRunHere (s : State) (idx : Nat) (status : Byte) (dev stand : Nat) : State :=
  match s.armed idx with
  | some { ent := e, run := some r, .. } =>
    if r.status.isSome then s
    else
      (s.onArmed idx fun a => { a with run := if r.started then some { r with status := some status, implicated := dev, stand := stand } else none }).onAel
        fun x => { x with cut := if e.op = 5 then none else x.cut }
  | _ => s

/-- The manager ends a run everywhere with a failure (R303, R304). -/
def State.endEverywhere (s : State) (idx : Nat) (status : Byte) (dev stand : Nat) : State :=
  (s.failRunHere idx status dev stand).sendAll (.endRun idx status dev stand)

/-- A knot is the done knot of an armed entry whose status holds a failure: code, device and stand (R303). -/
def State.failedDone (s : State) (knot : Nat) : Option (Byte × Nat × Nat) :=
  (s.ael.armed.find? fun p => p.2.ent.done == knot && p.2.status != 0 && p.2.status != 0xFF#8 && p.2.status != 0xFE#8).map fun p =>
    (p.2.status, p.2.failDev, p.2.failStand)

-- Notices (R298, R308, R309).

/-- Device `d` takes part in an entry's runs. -/
def CollEnt.names (e : CollEnt) (d : Nat) : Bool :=
  e.op != 6 && (d == 0 || (decide (1 ≤ d ∧ d ≤ 64) && bit e.ringMask (devRing d)))

/-- Status a notice's reason gives the runs it ends (Table 13-4, Table 13-6). -/
def noticeStatus (reason : Nat) : Byte := if reason = 3 then 4 else 1

/-- A held message was sent by device `d`. -/
def AelMsg.from? (m : AelMsg) (d : Nat) : Bool :=
  match m with
  | .arrival dev _ _ _ | .transfer _ dev _ _ _ _ _ _ => dev == d
  | _ => false

/-- A held message names entry stand `i`. -/
def AelMsg.ofStand (m : AelMsg) (i : Nat) : Bool :=
  match m with
  | .arrival _ _ stand _ | .transfer _ _ _ stand _ _ _ _ => stand == i
  | _ => false

/-- Apply a PEER_NOTICE: incarnation, registers and the runs it touches. A worker cannot see another device's entry stand: for a stand reset it waits for the manager's order to end the run. -/
def State.applyNotice (s : State) (dev stand reason : Nat) (inc : BitVec 16) : State :=
  let s1 := s.onAel fun a =>
    { a with noticeReason := byteOf reason, noticeStand := BitVec.ofNat 2 (if reason = 1 then stand else 0), noticeDev := BitVec.ofNat 7 dev,
             incs := if reason = 3 then a.incs else smSet a.incs dev inc,
             -- What the device sent before its reset for entries not armed yet is gone.
             early := a.early.filter fun m => !(m.msg.from? dev && (reason != 1 || m.msg.ofStand stand)) }
  s1.ael.armed.foldl (fun (s : State) (p : Nat × Armed) =>
    let touched := p.2.ent.names dev && (reason != 1 ||
      (match p.2.run with
        | some r => if s.isManager then r.arrived.any (fun a => a.1 == dev && a.2 == stand) || (dev == s.myDev && p.2.ent.stand == stand && r.started)
            else dev == s.myDev && p.2.ent.stand == stand
        | none => false))
    if !touched then s
    else if s.isManager then s.endEverywhere p.1 (noticeStatus reason) dev (if reason = 1 then stand else 0)
    else s.failRunHere p.1 (noticeStatus reason) dev (if reason = 1 then stand else 0)) s1

/-- The manager sends a PEER_NOTICE to every ring and applies it itself. -/
def State.broadcastNotice (s : State) (dev stand reason : Nat) (inc : BitVec 16) : State :=
  (s.sendAll (.peerNotice dev stand reason inc)).applyNotice dev stand reason inc

/-- The reset point (R308): sending from the stand, or from every stand, stops, and the notice goes out with the next incarnation. -/
def State.resetPoint (s : State) (stand : Nat) (warm : Bool) : State :=
  let s1 := s.onAel fun a => { a with incarnation := a.incarnation + 1,
                                      stopped := if warm then 0xF#4 else a.stopped ||| BitVec.ofNat 4 (2 ^ stand) }
  if s.isWorker then s1.sendUp (.resetNotice s.myDev stand warm s1.ael.incarnation)
  else if s.isManager then s1.broadcastNotice 0 stand (if warm then 2 else 1) s1.ael.incarnation
  else s1.ael.armed.foldl (fun (s : State) (p : Nat × Armed) => if warm || p.2.ent.stand == stand then s.failRunHere p.1 1 0 stand else s) s1

end Sys2Proof.Machine
end

