-- ==== Sys2Proof/Machine/QueueOps.lean ====
section
/-! DEFINITION. Operations of queues, contexts, completions and long-operation handles (chapter 11). -/

namespace Sys2Proof.Machine

/-- Queue `q` as its owner runs it. -/
def State.queue (s : State) (q : Nat) : QRun := smGet {} s.que.queues q

/-- Change queue `q`. -/
def State.onQueue (s : State) (q : Nat) (f : QRun → QRun) : State := s.onQue fun x => { x with queues := smUpd {} x.queues q f }

/-- Address of queue `q`'s descriptor (R250). -/
def State.descAddr (s : State) (q : Nat) : Nat := s.que.tableBase.toNat + 64 * q

/-- Address of context `c`'s record (R250). -/
def State.ctxAddr (s : State) (c : Nat) : Nat := s.que.ctxBase.toNat + 256 * c

/-- Bytes of a task record. -/
def recBytes : Nat := 128

/-- A ring lies wholly inside its space, 4 KiB-aligned (R251). -/
def ringOk (a : Addr) (bytes : Nat) : Bool :=
  match a with
  | .hbm o => decide (o % 4096 = 0 ∧ o + bytes ≤ hbmSize)
  | .host o => decide (o % 4096 = 0 ∧ o + bytes ≤ 2 ^ 60)
  | _ => false

/-- Class of a code (Table 11-1). -/
def classOf : Nat → Option QClass
  | 0 => some .slot | 1 => some .bulk | 2 => some .adapt | 3 => some .maint | _ => none

/-- Parse software's half of a descriptor and check every field of Table 11-1, the 0 bits of the device's half included (R251); none = BAD_DESCRIPTOR. -/
def parseDesc (bs : List Byte) : Option QDesc :=
  let g := fun o n => le bs o n
  let pol := g 20 1
  match classOf (g 18 1) with
  | none => none
  | some cls =>
    let gate := pol / 2 % 4
    let d : QDesc :=
      { sqBase := decodeAddr (g 0 8), cqBase := decodeAddr (g 8 8), sqLog2 := g 16 1, cqLog2 := g 17 1, cls := cls, owner := g 19 1,
        hold := pol.testBit 0, gate := if gate = 1 then .sync else if gate = 2 then .knot else .none, gateHold := pol.testBit 3,
        irqAll := pol.testBit 4, irqExc := pol.testBit 5, maxInflight := max 1 (g 21 1), gateKnot := g 22 2, msixVector := g 24 2,
        function := g 26 1, coalCount := max 1 (g 27 1), coalUs := g 28 2 }
    if decide (1 ≤ d.sqLog2 ∧ d.sqLog2 ≤ 16 ∧ 1 ≤ d.cqLog2 ∧ d.cqLog2 ≤ 16 ∧ d.owner ≤ 4 ∧ gate ≠ 3 ∧ pol < 64 ∧ d.maxInflight ≤ 16 ∧
        d.function ≤ 31 ∧ d.msixVector < vectors d.function ∧ g 30 2 = 0 ∧ g 60 4 = 0 ∧ g 56 1 < 4 ∧ g 58 2 = 0 ∧ ¬ (d.owner = 4 ∧ d.function ≠ 0))
      && ringOk d.sqBase (recBytes * 2 ^ d.sqLog2) && ringOk d.cqBase (32 * 2 ^ d.cqLog2)
    then some d else none

/-- Device-owned bytes 32 to 63 of a descriptor (Table 11-1). -/
def QRun.ownBytes (r : QRun) : List Byte :=
  leBytes 4 r.sqTail.toNat ++ leBytes 4 r.sqHead.toNat ++ leBytes 4 r.cqTail.toNat ++ leBytes 4 r.cqHead.toNat
    ++ leBytes 4 r.dropped.toNat ++ leBytes 4 r.missed.toNat
    ++ leBytes 4 (b2n r.enabled + at_ (b2n r.halted) 1 + at_ r.haltCause.toNat 8) ++ leBytes 4 0

/-- Write a descriptor's device-owned bytes back to the table (R251). -/
def State.writeBack (s : State) (q : Nat) : State := s.poke (s.descAddr q + 32) (s.queue q).ownBytes

/-- Halt a queue with a cause. -/
def State.haltQueue (s : State) (q : Nat) (cause : Nat) : State :=
  s.onQueue q fun r => { r with halted := true, haltCause := byteOf cause }

/-- Cause codes of Table 11-4. -/
def Cause.code : Cause → Nat
  | .none => 0 | .check => 1 | .leafState => 2 | .descriptor => 3 | .shape => 4 | .badBlock => 5 | .badScale => 6
  | .badGraft => 7 | .noImage => 8 | .badTask => 9 | .badContext => 0x0A | .poison => 0x0B | .peerReset => 0x0C
  | .unitFenced => 0x0D | .ctxFaulted => 0x0E | .reset => 0x0F | .badDoorbell => 0x10

/-- A completion to be written (Table 11-3). -/
structure Compl where
  userTag : DWord := 0
  sqIndex : Word := 0
  context : Word := 0
  status : Nat := 0
  cause : Nat := 0
  nonfinite : Bool := false
  saturation : Bool := false
  yielded : Bool := false
  bough : Nat := 0xFF
  opIndex : Nat := 0
  checkSq : Nat := 0
  satSq : Nat := 0
  detail : Word := 0
  irq : Bool := false
  deriving DecidableEq, Repr

/-- The 32 bytes of a completion; the phase bit is 1 on odd passes through the ring (R266). -/
def Compl.bytes (c : Compl) (r : QRun) : List Byte :=
  let phase := 1 - r.cqTail.toNat / 2 ^ r.desc.cqLog2 % 2
  leBytes 8 c.userTag.toNat ++ leBytes 4 c.sqIndex.toNat ++ leBytes 4 r.sqHead.toNat ++ leBytes 4 c.context.toNat
    ++ [byteOf c.status, byteOf c.cause, byteOf (phase + at_ (b2n c.nonfinite) 1 + at_ (b2n c.saturation) 2 + at_ (b2n c.yielded) 3), byteOf c.bough]
    ++ leBytes 2 c.opIndex ++ [byteOf (min 255 c.checkSq), byteOf (min 255 c.satSq)] ++ leBytes 4 c.detail.toNat

/-- Raise a queue's vector; it covers every earlier completion (R267). -/
def State.queueIrq (s : State) (q : Nat) : State :=
  (s.raise (s.queue q).desc.function (s.queue q).desc.msixVector).onQueue q fun r => { r with uncovered := 0 }

/-- Write a completion of queue `q` and raise its vector where R267 says so; discarded after an FLR of its function (R280). -/
def State.complete (s : State) (q : Nat) (c : Compl) : State :=
  let r := s.queue q
  if r.flr then s
  else
    let idx := r.cqTail.toNat % 2 ^ r.desc.cqLog2
    let s1 := (s.writeAddr r.desc.function (r.desc.cqBase.add (32 * idx : Nat)) (c.bytes r)).onQueue q fun r =>
      { r with cqTail := r.cqTail + 1, uncovered := r.uncovered + 1 }
    let s2 := if r.desc.owner < 4 then s1.onStand r.desc.owner fun d => { d with hbComplete := d.hbComplete + 1 } else s1
    if c.irq || (r.desc.irqExc && (c.status != 0 || c.nonfinite || c.saturation)) || (r.desc.irqAll && decide (r.desc.coalCount ≤ r.uncovered + 1))
    then s2.queueIrq q else s2

-- The scheduler's descriptor cache (R256).

/-- A descriptor is pinned: a task in flight, or gated and waiting. -/
def QRun.pinned (r : QRun) : Bool := !r.inflight.isEmpty || (decide (r.desc.gate ≠ .none) && r.sqTail != r.sqHead)

/-- Cached descriptors of stand `i`, with their stamps. -/
def State.cachedOf (s : State) (i : Nat) : List (Nat × QRun) := s.que.queues.filter fun (p : Nat × QRun) => p.2.cached && p.2.enabled && p.2.desc.owner == i

/-- Evict the least recently used unpinned descriptor of stand `i`: its device-owned bytes are written back. -/
def State.evictOne (s : State) (i : Nat) : State :=
  let free := (s.cachedOf i).filter fun p => !p.2.pinned
  match free with
  | [] => s
  | f :: rest =>
    let v := rest.foldl (fun (m : Nat × QRun) p => if p.2.used < m.2.used then p else m) f
    (s.writeBack v.1).onQueue v.1 fun r => { r with cached := false }

/-- A stand scheduler uses queue `q`'s descriptor: a miss fetches it. -/
def State.touchQueue (s : State) (q : Nat) : State :=
  let r := s.queue q
  let i := r.desc.owner
  if 3 < i then s
  else
    let s1 := if r.cached then s
      else (if 4096 ≤ (s.cachedOf i).length then s.evictOne i else s).onStand i fun d => { d with missCnt := satInc d.missCnt }
    (s1.onQueue q fun r => { r with cached := true, used := s1.que.useCtr }).onQue fun x => { x with useCtr := x.useCtr + 1 }

-- Management messages and resets.

/-- A write's requester, if it is a management message, is told nothing. -/
def WriteReq.unasked (w : WriteReq) : WriteReq :=
  match w with
  | .record r .mgmt => .record r .none
  | .counter c .mgmt => .counter c .none
  | _ => w

/-- Messages that the trunk was serving when a reset begins are not answered (R423); their writes already queued stay. -/
def State.dropMgmt (s : State) : State :=
  (s.onMgmt fun m => { m with pending := [] }).onStore fun d =>
    { d with queue := d.queue.map WriteReq.unasked, busy := match d.busy with | .write ws => .write (ws.map WriteReq.unasked) | b => b }

-- SYNC_IN (R260) and the abort of a power-state entry (R365).

/-- An edge that finds no ready task (R260, R418). -/
def QRun.missEdge (r : QRun) : QRun :=
  if r.desc.gateHold && !r.heldEdge then { r with heldEdge := true } else { r with missed := r.missed + 1 }

/-- One active SYNC_IN edge reaches a gated queue (R260). -/
def QRun.edge (r : QRun) : QRun :=
  if r.releases < (r.sqTail - r.sqHead).toNat then { r with releases := r.releases + 1 } else r.missEdge

/-- Change every enabled queue gated on SYNC_IN. -/
def State.onSyncQueues (s : State) (f : QRun → QRun) : State :=
  s.onQue fun x => { x with queues := x.queues.map fun (p : Nat × QRun) =>
    (p.1, if p.2.enabled ∧ p.2.desc.gate = .sync ∧ p.2.desc.owner < 4 then f p.2 else p.2) }

/-- An active edge reaches every queue gated on SYNC_IN; one of a stand in reset has no ready task (R418). -/
def State.syncEdge (s : State) : State :=
  s.onSyncQueues fun r => if s.inReset r.desc.owner then r.missEdge else r.edge

/-- An edge that was latched while the device could not act on it is delivered (R364). -/
def State.deliverEdge (s : State) : State :=
  if s.bud.syncLatched then s.syncEdge.onBud fun b => { b with syncLatched := false } else s

-- Wake events (R364, R365, Table 16-5).

/-- Bit of BUD_WAKE_EN and BUD_WAKE_LATCH of an event. -/
def WakeKind.bitNo : WakeKind → Nat
  | .doorbell => 0 | .bar2 => 1 | .syncIn => 2 | .mgmt => 3

/-- The wake from Dormant starts, for a last_wake code (R367). -/
def State.beginWake (s : State) (code : Nat) : State :=
  s.onBud fun b => { b with power := .waking, wakeStep := 1, entryStep := 0, lastWake := BitVec.ofNat 4 code, wakeLatch := 0, wakeOther := 0 }

/-- The physical function signals PME where it may. -/
def State.signalPme (s : State) (e : OutEv) : State :=
  let s1 := s.onPcie fun p => { p with pmeStatus := true }
  if s.pcie.pmeEnable then s1.emit e else s1

/-- A wake event: latched during an entry, acted on in Dormant, turned into a PME where the host must act first. -/
def State.wakeEvent (s : State) (k : WakeKind) : State :=
  let gated := s.que.syncEn && s.que.queues.any fun (p : Nat × QRun) => p.2.enabled && decide (p.2.desc.owner < 4) && p.2.desc.gate == QGate.sync && p.2.sqTail != p.2.sqHead
  if !bit s.bud.wakeEn k.bitNo ∨ (k = .syncIn ∧ !gated) then s
  else match s.bud.power with
    | .entering => s.onBud fun b => { b with wakeLatch := b.wakeLatch ||| BitVec.ofNat 4 (2 ^ k.bitNo) }
    | .dormant =>
      if !s.pcie.d3hot then s.beginWake (k.bitNo + 1)
      else if k = .syncIn ∨ k = .mgmt then s.signalPme .pme else s
    | .bare => if k = .mgmt then s.signalPme .beacon else s
    | _ => s

/-- A power-state entry is aborted (R365): dispatch resumes, and the abort is counted and recorded. -/
def State.abortEntry (s : State) (reason : Nat) (unit : Word) : State :=
  if s.bud.power ≠ .entering then s
  else
    let s1 := s.onBud fun b => { b with power := .full, entryStep := 0, abortedCnt := satInc b.abortedCnt, reasonAborted := true,
                                        reason := BitVec.ofNat 4 reason, refuseUnit := unit }
    let s2 := { s1 with boughs := s1.boughs.map fun (p : Nat × Bough) => (p.1, { p.2 with drained := false }) }
    s2.deliverEdge.record .pwrRefused uDevice { detail := reason + 128, detail2 := unit.toNat }

-- Task records.

/-- Parse a task record (Table 11-2). -/
def parseTask (bs : List Byte) : TaskRec :=
  let g := fun o n => le bs o n
  { userTag := BitVec.ofNat 64 (g 0 8), program := g 8 2, bough := g 10 1, flags := byteOf (g 11 1), context := wordOf (g 12 4),
    signalKnot := g 16 2, listAddr := decodeAddr (g 24 8),
    zerosOk := allZero (sub bs 18 6) && allZero (sub bs 32 32) && decide (g 11 1 < 8) && decide (g 12 4 < 2 ^ 18),
    args := sub bs 64 64, bytes := sub bs 0 128 }

/-- Number of undispatched records of a queue. -/
def QRun.undispatched (r : QRun) : Nat := (r.sqTail - r.sqHead).toNat

/-- Address of the head record. -/
def QRun.headAddr (r : QRun) : Addr := r.desc.sqBase.add (128 * (r.sqHead.toNat % 2 ^ r.desc.sqLog2) : Nat)

/-- The head record when it can be read now: from HBM outside a stand in reset (R347), or from a host ring once its read has completed (R253). -/
def State.headRec (s : State) (q : Nat) : Option (List Byte) :=
  match (s.queue q).headAddr with
  | .hbm a => if s.shut (hbmStand a) then none else some (s.hbmBytes a recBytes)
  | .host _ => (s.queue q).fetched
  | _ => none

/-- Requests to host memory that await their completions (R287): those of the boughs' reads and of the rings' heads. -/
def State.tagsUsed (s : State) : Nat :=
  nsum (s.boughs.map fun p => nsum (p.2.reads.map fun r => match r.src with | .host a => if r.asked then (s.readReqs a r.len).length else 0 | _ => 0)) +
  nsum (s.que.queues.map fun p => if p.2.reading then (match p.2.headAddr with | .host a => (s.readReqs a recBytes).length | _ => 0) else 0)

/-- `n` more read requests have tags: 1,024 with 10-bit tags, 256 without (R287). A read that needs more than all of them is alone. -/
def State.tagsFree (s : State) (n : Nat) : Bool := s.tagsUsed == 0 || decide (s.tagsUsed + n ≤ if s.pcie.cfg.tags10 then 1024 else 256)

/-- Ask host memory for the head record, once (R253, R287). -/
def State.askHead (s : State) (q : Nat) : State :=
  match (s.queue q).headAddr with
  | .host a => if (s.queue q).reading ∨ (s.queue q).fetched.isSome ∨ !(s.func (s.queue q).desc.function).busMaster ∨ !s.tagsFree (s.readReqs a recBytes).length then s
      else (s.onQueue q fun r => { r with reading := true }).hostAsk (s.queue q).desc.function a recBytes false
  | _ => s

/-- Host rings whose head is wanted are asked for it, whatever dropped an earlier read: of enabled queues that are not halted, or that a FLUSH empties, and whose stand is not in reset (R257, R269). -/
def State.askHeads (s : State) : State :=
  s.que.queues.foldl (fun (s : State) (p : Nat × QRun) =>
    let r := s.queue p.1
    if r.enabled ∧ r.sqTail ≠ r.sqHead ∧ (!r.halted ∨ r.flushing) ∧ !r.flr ∧ !(decide (r.desc.owner < 4) && s.inReset r.desc.owner) then s.askHead p.1 else s) s

/-- Every task of the device that is dispatched and not completed. -/
def State.tasks (s : State) : List Task :=
  s.boughs.flatMap fun p => p.2.task.toList ++ p.2.waiting ++ p.2.ending ++ p.2.yielded.map (·.task)

/-- An ADAPT task of a context is in flight (R246, R254). -/
def State.adaptBusy (s : State) (ctx : Nat) : Bool := s.tasks.any fun t => t.cls == 2 && fld t.trec.context 17 0 == ctx

/-- A fold of a context runs: its ADAPT tasks wait (R247). -/
def State.foldOf (s : State) (ctx : Nat) : Bool :=
  s.trunk.ops.any fun p => match p.2.body with | .fold f => f.context == ctx | _ => false

/-- A queue is ready in every respect but its gate (R257). -/
def State.readyButGate (s : State) (q : Nat) : Bool :=
  let r := s.queue q
  let room := decide ((r.cqTail - r.cqHead).toNat + r.inflight.length + 1 ≤ 2 ^ r.desc.cqLog2)
  r.enabled && !r.halted && !r.flr && !r.disabling && r.sqTail != r.sqHead && decide (r.inflight.length < r.desc.maxInflight) && room
    && (match s.headRec q with
      | some bs =>
        let t := parseTask bs
        (!bit t.flags 2 || r.inflight.isEmpty)
          && !(decide (r.desc.cls = .adapt) && (s.adaptBusy (fld t.context 17 0) || s.foldOf (fld t.context 17 0)))
      | none => false)

/-- A queue has a ready task (R257). -/
def State.readyQueue (s : State) (q : Nat) : Bool :=
  s.readyButGate q && (decide ((s.queue q).desc.gate = .none) || decide (0 < (s.queue q).releases))

-- Contexts (R270).

/-- Count fields of a context record touched by one completion (Table 11-5). -/
def addAt (s : State) (a n : Nat) : State := s.pokeNat a 4 (min (2 ^ 32 - 1) (s.hbmNat a 4 + n))

/-- Add a task's counts to its context (R270). -/
def State.addCounts (s : State) (ctx : Nat) (c : Compl) (phases : Nat) : State :=
  let a := s.ctxAddr ctx
  if s.hbmUe a 128 then s.reportUe ((s.firstUe a 128).getD a)
  else
    let s1 := if c.status = 0 then addAt s (a + 24) 1 else if c.status = 1 then addAt s (a + 28) 1
      else if c.status = 2 then addAt s (a + 32) 1 else if c.status = 4 then addAt s (a + 36) 1 else s
    let s2 := addAt (addAt s1 (a + 40) (min 255 c.checkSq)) (a + 44) (min 255 c.satSq)
    let s3 := addAt (addAt s2 (a + 48) (b2n c.nonfinite)) (a + 52) (b2n c.saturation)
    s3.pokeNat (a + 56) 8 (min (2 ^ 64 - 1) (s3.hbmNat (a + 56) 8 + phases))

/-- A HOLD fault: the queue halts, the context that the task names is marked, registers and record are written (R269); a context record with an uncorrectable word is written too, which clears the words written whole (R318). -/
def State.holdFault (s : State) (q ctx cause bough op : Nat) (tag : DWord) (markCtx : Bool) : State :=
  let s1 := (s.haltQueue q cause).onQue fun x =>
    { x with holdCtx := BitVec.ofNat 18 ctx, holdCause := byteOf cause, holdQueue := BitVec.ofNat 20 q }
  let a := s.ctxAddr ctx
  let s2 := if markCtx then
      ((s1.pokeNat a 1 (s1.hbmNat a 1 ||| 2)).poke (a + 64) (leBytes 1 cause ++ leBytes 1 bough ++ leBytes 2 op ++ leBytes 4 q)).pokeNat (a + 72) 8 tag.toNat
    else s1
  s2.record .holdFault (if bough < 16 then uBough bough else uDevice)
    { source := 2, queue := some q, context := some ctx, detail := cause, detail2 := tag.toNat, opIndex := op }

/-- Complete a task's record with a cause under its queue's policy (R269): counts, policy and completion. -/
def State.completeFault (s : State) (q : Nat) (hold : Bool) (c : Compl) (phases : Nat) (countable : Bool) : State :=
  let ctx := fld c.context 17 0
  let c1 := { c with status := if hold then 2 else 1 }
  let s1 := if hold then s.holdFault q ctx c.cause c.bough c.opIndex c.userTag (countable || c.cause == 0x0A || c.cause == 0x0B)
    else s.onQueue q fun r => { r with dropped := r.dropped + 1 }
  let s2 := if countable then s1.addCounts ctx c1 phases else s1
  -- STD_HBM_POISON_CNT.poisoned (Table 14-11).
  let s3 := if c.cause = 0x0B ∧ (s.queue q).desc.owner < 4 then s2.onStand (s.queue q).desc.owner fun d => { d with poisoned := satInc d.poisoned } else s2
  s3.complete q c1

-- Long operations (R272).

/-- Long operation in slot `h`. -/
def State.op (s : State) (h : Nat) : Option LongOp := smFind s.trunk.ops h

/-- Change long operation `h`. -/
def State.onOp (s : State) (h : Nat) (f : LongOp → LongOp) : State :=
  match s.op h with
  | some o => s.onTrunk fun t => { t with ops := smSet t.ops h (f o) }
  | none => s

/-- Handle of the operation in slot `h`. -/
def LongOp.handle (o : LongOp) (h : Nat) : Nat := h + 256 * o.gen.toNat

/-- Lowest-numbered free slot. -/
def State.freeSlot (s : State) : Option Nat := (List.range 256).find? fun h => (smFind s.trunk.ops h).isNone

/-- Accept a long operation taken from command queue `q`: its handle and the ACCEPTED completion. -/
def State.acceptOp (s : State) (q : Nat) (t : TaskRec) (sqIndex : Word) (body : OpBody) : State × Nat :=
  match s.freeSlot with
  | none => (s, 256)
  | some h =>
    let g := smGet 0 s.trunk.opGen h
    let o : LongOp :=
      { gen := g, opcode := BitVec.ofNat 16 t.program, queue := q, sqIndex := sqIndex, userTag := t.userTag, irq := bit t.flags 0, body := body }
    let s1 := s.onTrunk fun x => { x with ops := smSet x.ops h o, opGen := smSet x.opGen h (g + 1) }
    let s2 := s1.onQueue q fun r => { r with owed := r.owed + 1 }
    (s2.complete q { userTag := t.userTag, sqIndex := sqIndex, status := 6, detail := wordOf (o.handle h), irq := bit t.flags 0 }, h)

/-- DISABLE of a queue takes effect: its bytes are written back (R251). -/
def State.finishDisable (s : State) (q : Nat) : State :=
  let s1 := (s.onQueue q fun r => { r with enabled := false, disabling := false, cached := false, waitsKnot := false, pendingDb := none, fetched := none, reading := false }).writeBack q
  let s2 := s1.onQue fun x => { x with knots := x.knots.map fun (p : Nat × Knot) => (p.1, { p.2 with waiters := p.2.waiters.filter (· != .queue q) }) }
  s2.onQue fun x => { x with cmdBusy := false, cmdResult := 0 }

/-- Nothing of a queue is in flight. -/
def QRun.idle (r : QRun) : Bool := r.inflight.isEmpty && r.owed == 0

/-- A DISABLE that waits for a queue's tasks and long operations takes effect once nothing of the queue is in flight (R251). -/
def State.endDisable (s : State) (q : Nat) : State := if (s.queue q).disabling && (s.queue q).idle then s.finishDisable q else s

/-- End long operation `h` with its status code: OP_END, and the handle is free (R272). -/
def State.endOp (s : State) (h : Nat) (code : Nat) : State :=
  match s.op h with
  | none => s
  | some o =>
    let leaves := match o.body with | .calib c => c.status | _ => []
    let clamps := match o.body with | .fold f => f.clamps | _ => 0
    let s1 := s.onTrunk fun t => { t with ops := smErase t.ops h, opDone := smSet t.opDone h { handle := o.handle h, code := code, leaves := leaves, clamps := clamps } }
    let s2 := s1.onQueue o.queue fun r => { r with owed := r.owed - 1 }
    (s2.complete o.queue { userTag := o.userTag, sqIndex := o.sqIndex, status := 7, cause := code, detail := wordOf (o.handle h), irq := o.irq }).endDisable o.queue

/-- Outstanding operation that a 16-bit handle names. -/
def State.opOfHandle (s : State) (handle : Nat) : Option Nat :=
  match s.op (handle % 256) with
  | some o => if o.handle (handle % 256) = handle then some (handle % 256) else none
  | none => none

/-- A command queue holds a record that can be served, with room for `n` completions (R271). -/
def State.cmdWaits (s : State) (q n : Nat) : Bool :=
  let r := s.queue q
  let room := decide ((r.cqTail - r.cqHead).toNat + r.owed + n ≤ 2 ^ r.desc.cqLog2)
  s.que.ctrl && s.trunk.fwRunning && !s.trunk.warmBusy && s.bud.power == .full && r.enabled && !r.halted && !r.disabling && r.desc.owner == 4 && r.sqTail != r.sqHead && room

/-- A command is taken from the head of a command queue: the record, when it can be served and read (R271). -/
def State.takeCommand (s : State) (q n : Nat) : Option (TaskRec × List Byte) :=
  if s.cmdWaits q n then (s.headRec q).map fun bs => (parseTask bs, bs) else none

/-- Count the head record of a command queue as taken. -/
def State.popCommand (s : State) (q : Nat) : State :=
  (s.onQueue q fun r => { r with sqHead := r.sqHead + 1, fetched := none }).onQue fun x => { x with lastCmdQueue := q }

/-- The argument bytes outside the listed ranges are 0, and so are the record's other fields (R271). -/
def cmdFieldsOk (bs : List Byte) (used : List (Nat × Nat)) : Bool :=
  let blank := allZero (sub bs 10 1) && decide (le bs 11 1 < 2) && allZero (sub bs 12 52)
  blank && (List.range 64).all fun i => used.any (fun u => decide (u.1 ≤ i ∧ i < u.1 + u.2)) || nth 0 bs (64 + i) == 0

/-- A record that breaks the command rules completes FAULT with cause BAD_TASK (R271). -/
def State.badCommand (s : State) (q : Nat) (t : TaskRec) : State :=
  let i := (s.queue q).sqHead
  (s.popCommand q).complete q { userTag := t.userTag, sqIndex := i, status := 2, cause := 9, irq := bit t.flags 0 }

/-- A command that ends at acceptance writes only OP_END (R272). -/
def State.refuseCommand (s : State) (q : Nat) (t : TaskRec) (code : Nat) (detail : Word) : State :=
  let i := (s.queue q).sqHead
  (s.popCommand q).complete q { userTag := t.userTag, sqIndex := i, status := 7, cause := code, detail := detail, irq := bit t.flags 0 }

/-- Fields of a unit code (Table 11-6): depth, stand, bough within stand, leaf; none where bits [20:0] are set or the leaf is above 17. -/
def parseUnit (w : Nat) : Option (Nat × Nat × Nat × Nat) :=
  if w % 2 ^ 21 ≠ 0 then none
  else
    let l := w / 2 ^ 21 % 32
    if 17 < l then none else some (w / 2 ^ 30 % 4, w / 2 ^ 28 % 4, w / 2 ^ 26 % 4, l)

/-- Opcodes known to the trunk (Table 11-6). -/
def knownOpcode (n : Nat) : Bool := decide (1 ≤ n ∧ n ≤ 6) || decide (0x10 ≤ n ∧ n ≤ 0x12)

/-- A long operation's opcode. -/
def longOpcode (n : Nat) : Bool := decide (1 ≤ n ∧ n ≤ 6)

/-- Command queue `q` has a head record that can be served now: room for its completions and, for a long operation, a free slot (R271, R272). -/
def State.cmdReady (s : State) (q : Nat) : Bool :=
  match s.takeCommand q 1 with
  | some (t, _) => !longOpcode t.program || ((s.takeCommand q 2).isSome && s.freeSlot.isSome)
  | none => false

/-- It is the turn of command queue `q` (R272): round-robin among those that can be served. -/
def State.cmdTurn (s : State) (q : Nat) : Bool :=
  (nextAfter ((s.que.queues.map (·.1)).filter s.cmdReady) s.que.lastCmdQueue).head? == some q

/-- Uncorrectable word that a read of the head record from HBM meets (R319). -/
def State.headUe (s : State) (q : Nat) : Option Nat :=
  match (s.queue q).headAddr with
  | .hbm a => s.firstUe a recBytes
  | _ => none

/-- Serve the head of command queue `q` when it is its turn and it carries opcode `opc`: bad fields complete BAD_TASK, else `go` runs on the record. A head with an unknown opcode completes BAD_TASK whichever command was named; a record that cannot be read halts the queue with cause POISON (R319). -/
def State.serveCommand (s : State) (q opc n : Nat) (used : List (Nat × Nat)) (go : TaskRec → State → State) : State :=
  match s.takeCommand q n with
  | none => if s.cmdWaits q n then s.askHead q else s
  | some (t, bs) =>
    if !s.cmdTurn q then s
    else match s.headUe q with
      | some u => (s.reportUe u).haltQueue q 0x0B
      | none =>
        if !knownOpcode t.program then s.badCommand q t
        else if t.program ≠ opc then s
        else if cmdFieldsOk bs used then go t s else s.badCommand q t

end Sys2Proof.Machine
end

