-- ==== Sys2Proof/Machine/DumpOps.lean ====
section
/-! DEFINITION. The dump engine: units, destinations, sections and the end of a dump (R352, R353, Table 15-5). -/

namespace Sys2Proof.Machine

/-- Units of a dump in their order: the device part, then each stand in scope (R352). -/
def State.dumpUnits (s : State) (mask : BitVec 4) : List DumpUnit :=
  .device :: (bitsSet 4 mask.toNat).flatMap fun i =>
    .sched i :: (s.boughsOf i).map DumpUnit.bough ++ .router i :: (List.range 8).map fun c => DumpUnit.hbm (8 * i + c)

/-- The stand of a unit. -/
def DumpUnit.stand : DumpUnit → Option Nat
  | .device => none
  | .sched i | .router i => some i
  | .bough b => some (standOf b)
  | .hbm c => some (c / 8)

/-- Source, stand, bough or channel bytes of a section header, and the largest payload (Table 15-5). -/
def DumpUnit.head : DumpUnit → Nat × Nat × Nat × Nat
  | .device => (0, 0, 0, 24576)
  | .sched i => (2, i, 0, 24576)
  | .bough b => (3, b / 4, b % 4, 1024)
  | .router i => (5, i, 0, 1024)
  | .hbm c => (6, c / 8, c % 8, 256)

/-- A destination region takes a dump: in host memory, or in HBM outside stands in reset or fenced for their HBM. -/
def State.dumpTakes (s : State) (all : Bool) (a : Addr) (size : Nat) : Bool :=
  match a with
  | .host o => o % 64 == 0 && decide (64 ≤ size ∧ o + size ≤ 2 ^ 60)
  | .hbm o =>
    let free := fun (i : Nat) => !all && !s.inReset i && !(s.stand i).hbmFenced
    o % 64 == 0 && decide (64 ≤ size ∧ o + size ≤ hbmSize) && free (hbmStand o) && free (hbmStand (o + size - 1))
  | _ => false

/-- Destination of a dump before a reset: TRK_DUMP_BASE, else TRK_DUMP_HOST, else none; `all` when every stand is being reset (R352). -/
def State.dumpDest (s : State) (all : Bool) : Addr × Nat :=
  let t := s.trunk
  let b := decodeAddr t.dumpBase.toNat
  let h := decodeAddr t.dumpHost.toNat
  let host : Bool := match h with | .host _ => true | _ => false
  if s.dumpTakes all b (1024 * t.dumpBaseKib.toNat) then (b, 1024 * t.dumpBaseKib.toNat)
  else if host && s.dumpTakes all h (1024 * t.dumpHostKib.toNat) then (h, 1024 * t.dumpHostKib.toNat)
  else (.none, 0)

/-- An address as Table 8-2 encodes it. -/
def Addr.code : Addr → Nat
  | .sap o => o
  | .hbm o => 2 ^ 60 + o
  | .host o => 2 * 2 ^ 60 + o
  | .acc o => 3 * 2 ^ 60 + o
  | _ => 15 * 2 ^ 60

/-- Bytes a dump holds so far. -/
def DumpRun.length (d : DumpRun) : Nat := 64 + nsum (d.sections.map List.length)

/-- One section: header and payload, cut where the destination is too small (Table 15-5). -/
def DumpUnit.section_ (u : DumpUnit) (status us : Nat) (payload : List Byte) : List Byte :=
  let (src, st, bo, _) := u.head
  [byteOf src, byteOf st, byteOf bo, byteOf status] ++ leBytes 4 payload.length ++ leBytes 4 us ++ List.replicate 48 0 ++ leBytes 4 (crc32c payload).toNat ++ payload

/-- Status of a finished dump (Table 15-6). -/
def DumpRun.code (d : DumpRun) : Nat :=
  if d.cancelled then 5 else match d.dest with
    | .hbm _ | .host _ => if d.truncated then 3 else if d.unreach = 0 then 0 else 2
    | _ => 4

/-- Header of a dump (Table 15-5). -/
def State.dumpHeader (s : State) (d : DumpRun) : List Byte :=
  let h := leBytes 4 0x504D5544 ++ leBytes 2 1 ++ [byteOf d.kind, byteOf d.mask.toNat] ++ leBytes 4 (if d.kind = 0 then 0 else s.trunk.recSeq.toNat)
    ++ leBytes 8 (Config.islandCycles 25 s.freeCtr).toNat ++ leBytes 8 s.trunk.hostEpoch.toNat ++ leBytes 2 d.sections.length ++ leBytes 2 0
    ++ leBytes 4 d.length ++ List.replicate 24 0
  h ++ leBytes 4 (crc32c h).toNat

/-- The dump at the head of the engine's queue ends: record, header, TRK_DUMP_STATUS, and the command's completion (R352, R353). -/
def State.endDump (s : State) : State :=
  match s.trunk.dumps with
  | [] => s
  | d :: rest =>
    let s1 := s.record .dump uDevice { detail := d.code, detail2 := d.dest.code }
    let s2 := s1.writeAddr 0 d.dest (s1.dumpHeader d)
    let s3 := { s2 with freeCtr := s2.freeCtr + 1 }.onTrunk fun t =>
      { t with dumps := rest, dumpStatus := byteOf d.code, dumpUnreach := BitVec.ofNat 7 d.unreach,
               dumpLen := BitVec.ofNat 16 (if d.code = 4 then 0 else ceilDiv d.length 64) }
    match d.kind, d.op with
    | 0, some h => s3.endOp h d.code
    | _, _ => s3

/-- One section is written; the last ends the dump (R352). -/
def State.dumpSection (s : State) (status us : Nat) (payload : List Byte) : State :=
  match s.trunk.dumps with
  | [] => s
  | d :: rest =>
    match d.cancelled, d.left with
    | false, u :: left =>
      -- A stand under reset does not answer a DUMP command (Table 15-4).
      let gone : Bool := d.kind == 0 && (match u.stand with | some i => s.inReset i | none => false)
      let st := if gone then 1 else status
      let pay := if st = 1 then [] else payload.take u.head.2.2.2
      let room : Bool := match d.dest with | .hbm _ | .host _ => true | _ => false
      let left_ := d.size - d.length
      let cut := decide (left_ < 64 + pay.length)
      let sec := if left_ < 64 then [] else u.section_ (if cut then 2 else st) us (pay.take (left_ - 64))
      let d1 : DumpRun :=
        { d with left := left, unreach := d.unreach + b2n (st == 1), truncated := d.truncated || (room && cut),
                 sections := if room && !sec.isEmpty then d.sections ++ [sec] else d.sections }
      let s1 := if room then s.writeAddr 0 (d.dest.add (d.length : Nat)) sec else s
      let s2 := s1.onTrunk fun t => { t with dumps := d1 :: rest }
      if left.isEmpty then s2.endDump else s2
    | _, _ => s.endDump

end Sys2Proof.Machine
end

