-- ==== Sys2Proof/Machine/CollOps.lean ====
section
/-! DEFINITION. The request for a stand reset (R344 step 1, Table 15-4), and the runs of collective entries on this device (R299 to R306). -/

namespace Sys2Proof.Machine

-- Requests for a stand reset.

/-- Who asks for a stand reset: 1 = software, 2 = an uncorrectable error, 3 = management (Table 15-9). -/
abbrev ResetTrigger := Nat

/-- Step 1 of a stand reset: dispatch stops, the notice goes out and the dump, where wanted, is queued in ascending stand order. -/
def State.beginReset (s : State) (i : Nat) (trigger : ResetTrigger) : State :=
  let c := (s.stand i).rstCtrl
  let dump := bit c 30
  let s1 := (s.abortEntry 8 (unitCode 1 i 0 0)).dropMgmt.onStand i fun d =>
    { d with rstAt := s.trunk.time, rstTrigger := BitVec.ofNat 2 trigger, rstState := if dump then .dumping else .stopping, rstStep := if dump then 2 else 3,
             fallback := trigger != 2 && bit c 28, wantDump := dump, wantReplay := bit c 29 && trigger != 2,
             tablesLost := false, writeBackFailed := false, suspectOverflow := false, suspects := [], ended := [], replay := none }
  let s2 := s1.resetPoint i false
  let (dest, size) := s2.dumpDest false
  if !dump then s2
  else s2.onTrunk fun t =>
    let before := t.dumps.filter fun (d : DumpRun) => d.kind != 1 || decide (d.op.getD 0 < i)
    let after := t.dumps.filter fun (d : DumpRun) => d.kind == 1 && decide (i < d.op.getD 0)
    let run : DumpRun := { kind := 1, mask := BitVec.ofNat 4 (2 ^ i), op := some i, dest := dest, size := size, left := s2.dumpUnits (BitVec.ofNat 4 (2 ^ i)) }
    { t with dumps := before ++ run :: after }

/-- A stand reset is requested (R344, R350): started, ignored, or absorbed. -/
def State.requestReset (s : State) (i : Nat) (trigger : ResetTrigger) : State :=
  if s.trunk.warmBusy ∨ !s.trunk.fwRunning then s
  else if (s.stand i).rstState = .normal then s.beginReset i trigger
  else if trigger != 2 then s.onStand i fun d => { d with rstIgnored := true }
  -- Absorbed; an attempt of a replay ends without a verdict.
  else if (s.stand i).rstState = .replaying then s.onStand i fun d => { d with replay := d.replay.map fun r => { r with void := true } }
  else s

/-- A requester of stand `i` met an uncorrectable error in native mode (Table 14-2): the stand is reset on the main path. -/
def State.ueReset (s : State) (i : Nat) : State :=
  let s1 := if (s.stand i).rstState = .normal then s.onStand i fun d => { d with poisonResets := satInc d.poisonResets } else s
  s1.requestReset i 2

/-- Poison mode of a stand (R319). -/
def State.poisonMode (s : State) (i : Nat) : Bool := bit (s.stand i).hbmCtrl 8

-- Runs.

/-- Runs begun before the cut that have not ended (R306). -/
def State.beforeCut (s : State) (cut : Nat) : Bool :=
  s.ael.armed.any fun p => match p.2.run with
    | some r => p.2.ent.op != 5 && decide (r.order < cut)
    | none => false

/-- The manager holds a run that started after the cut (R306). -/
def State.heldByCut (s : State) (r : CollRun) : Bool :=
  match s.ael.cut with
  | some c => decide (c ≤ r.order)
  | none => false

/-- Keys of the partials a reduction waits for: ring and side (R302). -/
def State.reduceKeys (s : State) (mask : BitVec 4) : List Nat :=
  (s.enabledRings.filter fun k => bit mask k).flatMap fun k =>
    let side := fun (b : Bool) => (List.range (s.ringLen k)).any fun p => decide (s.sideOf k p = some b)
    (if side false then [2 * k + 1] else []) ++ (if side true then [2 * k + 2] else [])

/-- A check of a contribution failed, as the manager learns it (R304): the run is made again once, then ends with DIGEST. -/
def State.mgrDigest (s : State) (idx dev : Nat) : State :=
  match s.armed idx with
  | some { run := some r, .. } =>
    if r.status.isSome then s
    else if r.again then s.endEverywhere idx 2 dev 0
    else (s.onRun idx fun r => { r with again := true, parts := [], confirmed := [], released := false, result := none }).sendAll (.rerun idx)
  | _ => s

/-- A read of src met an uncorrectable error (Table 14-2): the entry's stand is reset, or the contribution counts as one whose digest failed. -/
def State.srcUe (s : State) (idx : Nat) (e : CollEnt) : State :=
  let s1 := s.reportUe ((s.firstUe e.src e.bytes).getD e.src)
  if !s1.poisonMode e.stand then s1.ueReset e.stand
  else if s1.isWorker then s1.sendUp (.digestFail idx s1.myDev)
  else s1.mgrDigest idx s1.myDev

/-- What the manager does with a run once more is known of it (R301, R302, R306). -/
def State.mgrStep (s : State) (idx : Nat) : State :=
  match s.armed idx with
  | some { ent := e, run := some r, .. } =>
    if r.status.isSome ∨ !r.started then s
    else
      let workers := s.workersOf e.ringMask
      let all := (0 :: workers).all fun d => r.arrived.any fun a => a.1 == d
      let finish := fun (s : State) (res : Option (List Byte)) =>
        (workers.foldl (fun (s : State) d => s.sendTo d (.release idx)) s).onRun idx fun r => { r with status := some 0, result := res }
      if e.op = 5 then (if all ∧ !(s.beforeCut (s.ael.cut.getD 0)) then (finish s none).onAel fun a => { a with cut := none } else s)
      else if s.heldByCut r then s
      else if e.op = 1 then (if all then finish s none else s)
      else
        let keys := s.reduceKeys e.ringMask
        let ready := all && keys.all fun k => (smFind r.parts k).isSome
        let ue := s.hbmUe e.src e.bytes
        let reduced := keys.foldl (fun acc k => combineBytes e.dtype e.func acc (smGet [] r.parts k)) (s.ownData e)
        if e.op = 3 then (if !ready then s else if ue then s.srcUe idx e else finish s (some reduced))
        else if r.released then (if workers.all r.confirmed.contains then finish s r.result else s)
        else
          -- A broadcast's data: of the root, or the reduced result.
          let own := e.op == 4 || e.root == 0
          let data := if e.op = 4 then (if ready then some reduced else none) else if e.root = 0 then some (s.ownData e) else smFind r.parts 0
          match data with
          | none => s
          | some d =>
            if own && ue then s.srcUe idx e
            else
              let res := if e.op = 2 ∧ e.root = 0 then none else some d
              let s1 := (s.sendHalves idx e d).onRun idx fun r => { r with released := true, result := res }
              if workers.isEmpty then finish s1 res else s1
  | _ => s

/-- The manager takes a run as far as it can, a second attempt included. -/
def State.mgrProgress (s : State) (idx : Nat) : State := (s.mgrStep idx).mgrStep idx

/-- Every run of the manager goes on as far as it can. -/
def State.mgrAll (s : State) : State := if s.isManager then s.ael.armed.foldl (fun (s : State) (p : Nat × Armed) => s.mgrProgress p.1) s else s

/-- A worker sends its contribution to a run, once its own and, nearer the manager, the incoming partial are at hand (R301, R302). -/
def State.workerSend (s : State) (idx : Nat) (e : CollEnt) : State :=
  let part := match s.armed idx with
    | some { run := some r, .. } => smFind r.parts 0
    | _ => none
  let send := fun (d : List Byte) => if bit s.ael.stopped e.stand then s else if s.hbmUe e.src e.bytes then s.srcUe idx e else s.sendUp (s.mkTransfer idx e true (if e.op = 2 then 3 else 0) d)
  if e.op = 2 then (if e.root = s.myDev then send (s.ownData e) else s)
  else if e.op = 3 ∨ e.op = 4 then
    if s.isFarthest then send (s.ownData e)
    else match part with
      | some d => send (combineBytes e.dtype e.func d (s.ownData e))
      | none => s
  else s

/-- A worker's broadcast data is whole (R305): it reports so, and keeps what it will write to dst. -/
def State.workerWhole (s : State) (idx : Nat) : State :=
  match s.armed idx with
  | some { ent := e, run := some r, .. } =>
    let whole := match smFind r.parts 3 with
      | some d => some d
      | none => match smFind r.parts 1, smFind r.parts 2 with
        | some a, some b => some (a ++ b)
        | _, _ => none
    match whole with
    | some d =>
      if !r.started ∨ r.released then s
      else (s.onRun idx fun r => { r with released := true, result := if e.op = 2 ∧ e.root = s.myDev then none else some d }).sendUp (.resultDone s.myDev idx)
    | none => s
  | _ => s

/-- An armed entry takes a trigger token and starts a run on this device (R300, R301). -/
def State.startRun (s : State) (idx : Nat) : State :=
  match s.armed idx with
  | none => s
  | some a =>
    let e := a.ent
    let old : CollRun := match a.run with
      | some r => r
      | none => { order := s.ael.nextOrder }
    let run : CollRun := { old with started := true, arrived := (s.myDev, e.stand) :: old.arrived }
    let s1 := ((s.onAel fun x => { x with armed := smSet x.armed idx { a with run := some run, status := 0xFE#8 }, nextOrder := x.nextOrder + 1 }).pokeNat
      (s.ael.collBase.toNat + 64 * idx + 36) 1 0xFE)
    if e.op = 6 then
      let s2 := if e.peer = s.myDev then s1 else if s.isManager then s1.sendTo e.peer (.signal e.peer e.peerKnot false)
        else s1.sendUp (.signal e.peer e.peerKnot true)
      s2.onRun idx fun r => { r with status := some 0 }
    else if s.isManager then
      (if e.op = 5 ∧ s1.ael.cut.isNone then s1.onAel fun x => { x with cut := some x.nextOrder } else s1).mgrProgress idx
    else if s.isWorker then ((s1.sendUp (.arrival s1.myDev idx e.stand e.sig)).workerSend idx e).workerWhole idx
    -- A standalone device is the only participant.
    else if s.hbmUe e.src e.bytes ∧ (e.op = 3 ∨ e.op = 4) then
      let s2 := s1.reportUe ((s1.firstUe e.src e.bytes).getD e.src)
      if s2.poisonMode e.stand then s2.failRunHere idx 2 0 0 else s2.ueReset e.stand
    else s1.onRun idx fun r => { r with status := some 0, result := if e.op = 3 ∨ e.op = 4 then some (s.ownData e) else none }

end Sys2Proof.Machine
end

