-- ==== Sys2Proof/Machine/LeafOps.lean ====
section
/-! DEFINITION. Operations on one leaf: layout of weights on columns, images, derived configuration, zero scale, measurements and leaf records (chapters 02 to 04). -/

namespace Sys2Proof.Machine

-- Layout (R29 to R31, Table 2-3).

/-- Columns per logical weight n; 0 for an unprogrammed leaf. -/
def perWeight (w : BitVec 2) : Nat := match w.toNat with | 0 => 8 | 1 => 4 | 2 => 2 | _ => 0

/-- Bits of a weight. -/
def weightBits (w : BitVec 2) : Nat := match w.toNat with | 0 => 8 | 1 => 4 | _ => 2

/-- Slice at each offset of a logical column; none = the offset column. -/
def sliceAt (w : BitVec 2) : List (Option Nat) :=
  match w.toNat with
  | 0 => [some 3, some 2, some 3, some 1, some 3, some 2, some 0, none]
  | 1 => [some 1, some 0, some 1, none]
  | 2 => [some 0, none]
  | _ => []

/-- Offset of the offset column. -/
def offsetAt (w : BitVec 2) : Nat := perWeight w - 1

/-- Logical columns of a leaf. -/
def logicals (w : BitVec 2) : Nat := if perWeight w = 0 then 0 else 1024 / perWeight w

/-- Check groups of a leaf (R31). -/
def checkGroups (w : BitVec 2) : Nat := logicals w / 32

/-- First physical column of logical column `j`; `j` from `logicals w` on names the checksum columns. -/
def firstCol (w : BitVec 2) (j : Nat) : Nat :=
  if j < logicals w then perWeight w * j else 1120 + perWeight w * (j - logicals w)

/-- Column group of a physical column (Table 2-2). -/
def groupOf (c : Nat) : Nat :=
  if c < 1024 then c / 32 else if c < 1088 then (c - 1024) / 2 else if c < 1120 then c - 1088 else c - 1120

/-- Copies of slice `k` (R30). -/
def copies (w : BitVec 2) (k : Nat) : Nat := ((sliceAt w).filter (· == some k)).length

/-- Spare `i` in use for a column: entry valid and not retired. -/
def remapOf (m : SMap (BitVec 16)) (c : Nat) : Option Nat :=
  (m.find? fun p => bit p.2 15 && fld p.2 10 0 == c).map (·.1)

/-- Physical column whose code serves column `c` (R47). -/
def servedBy (m : SMap (BitVec 16)) (c : Nat) : Nat :=
  match remapOf m c with
  | some i => 1024 + i
  | none => c

/-- Spares in use or retired (LEF_REMAP_COUNT). -/
def sparesUsed (m : SMap (BitVec 16)) : Nat := (m.filter fun p => bit p.2 15).length

/-- Lowest free spare for a column, in the order of R48. -/
def freeSpare (m : SMap (BitVec 16)) (c : Nat) : Option Nat :=
  let q := groupOf c
  ([2 * q, 2 * q + 1] ++ List.range 64).find? fun i => !bit (smGet 0 m i) 15

/-- Give a column a spare (R48); its present spare, if any, is retired first. -/
def allocSpare (m : SMap (BitVec 16)) (c : Nat) : Option (SMap (BitVec 16) × Nat) :=
  let m1 := match remapOf m c with
    | some i => smSet m i 0x87FF#16
    | none => m
  (freeSpare m1 c).map fun i => (smSet m1 i (BitVec.ofNat 16 (0x8000 + c)), i)

-- Weights (R32, R85).

/-- w_o of a width. -/
def weightOffset (w : BitVec 2) : Nat := 2 ^ (weightBits w - 1)

/-- Stored values w' of one row of a payload (128 bytes), by logical column. -/
def rowStored (w : BitVec 2) (row : List Byte) : List Nat :=
  let b := weightBits w
  (List.range (logicals w)).map fun j =>
    let raw := (nth 0 row (j * b / 8)).toNat / 2 ^ (j * b % 8) % 2 ^ b
    toBits b (sext b raw + (weightOffset w : Int))

/-- c_rg of a row (R37). -/
def rowCheck (stored : List Nat) (g : Nat) : Nat :=
  (rhe ((nsum ((stored.drop (32 * g)).take 32) : Rat) / 32)).toNat

/-- w' values of a row with the checksum values after them. -/
def rowAll (w : BitVec 2) (row : List Byte) : List Nat :=
  let s := rowStored w row
  s ++ (List.range (checkGroups w)).map (rowCheck s)

/-- Level of slice `k` of a stored value. -/
def sliceOf (v k : Nat) : Nat := v / 4 ^ k % 4

/-- Target levels of one row by physical column, levels above 0 only: data, checksum, reference columns, and the columns moved to spares (step 4 of Table 4-3). -/
def rowTargets (w : BitVec 2) (m : SMap (BitVec 16)) (row : List Byte) : List (Nat × Nat) :=
  let all := rowAll w row
  let vals := (List.range all.length).flatMap fun j =>
    (List.range (perWeight w)).filterMap fun o =>
      match nth none (sliceAt w) o with
      | some k => let l := sliceOf (nth 0 all j) k
                  if l = 0 then none else some (servedBy m (firstCol w j + o), l)
      | none => none
  vals ++ (List.range 32).map fun q => (1088 + q, 3)

/-- Level of a cell. -/
def Leaf.cell (lf : Leaf) (row col : Nat) : Nat := smGet 0 lf.cells (1152 * row + col)

/-- Set cells of one row. -/
def setRow (cells : SMap Nat) (row : Nat) (t : List (Nat × Nat)) : SMap Nat :=
  t.foldl (fun m x => smSet m (1152 * row + x.1) x.2) cells

-- Read-back (R90).

/-- The stored value that logical column `j` reads in a row: the first copy of every slice. -/
def readStored (w : BitVec 2) (m : SMap (BitVec 16)) (level : Nat → Nat) (j : Nat) : Nat :=
  nsum ((List.range (perWeight w)).map fun o =>
    match nth none (sliceAt w) o with
    | some k => if (((sliceAt w).take o).contains (some k)) then 0 else 4 ^ k * level (servedBy m (firstCol w j + o))
    | none => 0)

/-- Every copy of every slice of logical column `j` reads the same level, and its offset column level 0. -/
def copiesAgree (w : BitVec 2) (m : SMap (BitVec 16)) (level : Nat → Nat) (j : Nat) : Bool :=
  let v := readStored w m level j
  (List.range (perWeight w)).all fun o =>
    match nth none (sliceAt w) o with
    | some k => level (servedBy m (firstCol w j + o)) == sliceOf v k
    | none => true

/-- Payload bytes of one row from its stored values. -/
def rowBytes (w : BitVec 2) (stored : List Nat) : List Byte :=
  let b := weightBits w
  let per := 8 / b
  (List.range 128).map fun i =>
    byteOf (nsum ((List.range per).map fun t => toBits b (ni (nth 0 stored (per * i + t)) - (weightOffset w : Int)) * 2 ^ (b * t)))

/-- Header bytes 0 to 31 of a leaf image (Table 4-1). -/
def imageHeader (w : BitVec 2) : List Byte :=
  leBytes 4 0x4C46494D ++ leBytes 2 1 ++ [byteOf w.toNat, 0] ++ leBytes 4 0x20000 ++ List.replicate 20 0

/-- Canonical digest of a payload (R86). -/
def canonicalDigest (w : BitVec 2) (payload : List Byte) : List Byte := shake256 (imageHeader w ++ payload)

/-- What a read-back of a leaf's cells finds, with the levels that differ from the cells: the payload and whether every checksum cell matches (R90). -/
def Leaf.readBack (lf : Leaf) (diff : SMap Nat) : List Byte × Bool :=
  let w := lf.record.width
  let m := lf.record.remap
  let rows := (List.range 1024).map fun r =>
    let level := fun c => (smFind diff (1152 * r + c)).getD (lf.cell r c)
    let stored := (List.range (logicals w)).map (readStored w m level)
    let chkOk := (List.range (checkGroups w)).all fun g =>
      readStored w m level (logicals w + g) == rowCheck stored g && copiesAgree w m level (logicals w + g)
    (rowBytes w stored, chkOk)
  (rows.flatMap (·.1), rows.all (·.2))

-- Derived configuration (R89).

/-- Column level sums of the leaf's cells under its widths and remap, by column × 4 + quarter. -/
def levelSums (cells : SMap Nat) : SMap Nat :=
  cells.foldl (fun m p =>
    let r := p.1 / 1152
    if r < 1024 then smUpd 0 m (4 * (p.1 % 1152) + r / 256) (· + p.2) else m) []

/-- lsum[c]. -/
def Leaf.lsumAll (lf : Leaf) (c : Nat) : Nat := nsum ((List.range 4).map fun i => smGet 0 lf.lsum (4 * c + i))

/-- W_j of logical column `j` (checksum columns from `logicals w` on): Σ over rows of w' − w_o. -/
def weightSum (lf : Leaf) (w : BitVec 2) (m : SMap (BitVec 16)) (j : Nat) : Int :=
  let sums := fun c => (nsum ((List.range 4).map fun i => smGet 0 lf.lsum (4 * c + i)) : Int)
  isum ((List.range (perWeight w)).map fun o =>
    match nth none (sliceAt w) o with
    | some k => if ((sliceAt w).take o).contains (some k) then 0 else (4 ^ k : Nat) * sums (servedBy m (firstCol w j + o))
    | none => 0) - 1024 * (weightOffset w : Int)

/-- The leaf with its derived configuration formed from a set of cell levels, for a width and remap. -/
def Leaf.deriveFrom (lf : Leaf) (cells : SMap Nat) (w : BitVec 2) (m : SMap (BitVec 16)) : Leaf :=
  let l1 := { lf with lsum := levelSums cells, derivedOk := true }
  { l1 with wSum := (List.range (logicals w)).map fun j => (j, weightSum l1 w m j),
            wChk := (List.range (checkGroups w)).map fun g => (g, weightSum l1 w m (logicals w + g)) }

/-- The leaf with its derived configuration formed from its cells as programmed. -/
def Leaf.derive (lf : Leaf) (w : BitVec 2) (m : SMap (BitVec 16)) : Leaf := lf.deriveFrom lf.cells w m

/-- Levels that a read-back finds: the cells, with the levels that read otherwise (R90). -/
def Leaf.levelsRead (lf : Leaf) (diff : SMap Nat) : SMap Nat := diff.foldl (fun m p => smSet m p.1 p.2) lf.cells

-- Roles and zero scale.

/-- Change of role: the bias monitor restarts (R324). -/
def Leaf.setRole (lf : Leaf) (r : Role) : Leaf := { lf with role := r, bias := if lf.role = r then lf.bias else [] }

/-- A leaf's valid calibration slots. -/
def Leaf.validSlots (lf : Leaf) : List Nat := (List.range 3).filter fun p => (nth {} lf.cal p).valid

/-- The drivers are held at zero scale by a condition of R53 other than the interval between phases. A bough whose clock is stopped shows none of them (log entry 149). -/
def State.zeroScale (s : State) (k : Nat) : Bool :=
  let lf := s.leaf k
  !lf.checked || lf.role != .active || !decide (s.bud.power = .full ∨ s.bud.power = .entering) || lf.mismatchHold || s.inReset (k / 72) || s.trunk.warmBusy || lf.validSlots.isEmpty

/-- The leaf map names a serving leaf of a slot: ACTIVE, not draining. -/
def State.serving? (s : State) (b slot : Nat) : Option Nat :=
  (leavesOf b).find? fun k => (s.leaf k).role == .active && !(s.leaf k).draining && (s.leaf k).slot == BitVec.ofNat 5 slot

/-- The leaf record as written: with the leaf's number and its factory codes (Table 4-2). -/
def Leaf.recordOut (lf : Leaf) (k : Nat) : LeafRec :=
  { lf.record with leafId := leafIdOf k, factoryCode := (List.range 32).map fun q => byteOf (smGet 192 lf.factoryCode q) }

/-- A leaf's own leaf record is queued for the store (R88). -/
def State.writeLeafRec (s : State) (k : Nat) (who : Requester) : State := s.storeRec (leafKey k) (.leaf ((s.leaf k).recordOut k)) who

/-- Columns that took their spare in the attempt that ends leave pending_remap (R96, R97). -/
def Leaf.settleRemap (lf : Leaf) : Leaf :=
  { lf with remapTaken := [], record := { lf.record with pendingRemap := lf.record.pendingRemap.filter fun c => !lf.remapTaken.contains c } }

/-- program_cycles + 1, with the endurance warning of R105. -/
def State.spendCycle (s : State) (k : Nat) : State :=
  let n := (s.leaf k).record.cycles + 1
  let s1 := s.onLeaf k fun l => { l with record := { l.record with cycles := n } }
  if n = 18000 then s1.record .endurance (uLeaf k) { source := 4, detail := n } else s1

/-- The program cycle of the last attempt is counted, unless it has been: each is counted once, whatever ends it (R105; log entry 74). -/
def State.countCycle (s : State) (k : Nat) : State := if (s.leaf k).record.cycles < (s.leaf k).attempt then s.spendCycle k else s

/-- An attempt at the sequence begins: its cycle is the next one (R105). -/
def Leaf.beginAttempt (lf : Leaf) : Leaf := { lf with attempt := lf.record.cycles + 1 }

/-- Erase the data block and the marker row, record the leaf ERASED with the attempt's cycle counted and return it to SPARE (R93, R95, Table 4-6). Columns that have their spare are pending no more (R96). -/
def State.eraseLeaf (s : State) (k : Nat) (who : Requester) : State :=
  (((s.countCycle k).onLeaf k Leaf.settleRemap).onLeaf k fun l =>
    { l.setRole .spare with cells := [], marker := false, width := 3#2, derivedOk := false, wSum := [], wChk := [], lsum := [],
                            progStep := 0, progRow := 0, progPass := 0, releaseKnot := false, cal := [{}, {}, {}],
                            record := { l.record with state := .erased, width := 3#2, digest := List.replicate 32 0 } }).writeLeafRec k who

-- Range shifts (R60, R324).

/-- Set both range shifts; the bias monitor restarts on a change. -/
def Leaf.setRange (lf : Leaf) (a b : BitVec 2) : Leaf :=
  { lf with rangeFirst := a, rangeSecond := b, bias := if lf.rangeFirst = a ∧ lf.rangeSecond = b then lf.bias else [] }

-- Conversion and trims (R41, R45, R69).

/-- Code of a column from its exact ratio to full scale, and its deviation. -/
def codeOf (ratio : Rat) (dev : Int) : Nat := (clampI 0 255 (rhe (256 * ratio) + dev)).toNat

/-- Slot nearest in load to L_now among the valid ones; of two equally near, the lower-numbered (DESIGN CHOICE, log entry 145). -/
def Leaf.nearestSlot (lf : Leaf) (load : Nat) : Option Nat :=
  let dist := fun p => ((nth {} lf.cal p).load : Int) - (load : Int) |>.natAbs
  lf.validSlots.foldl (fun (m : Option Nat) p => match m with
    | none => some p
    | some q => if dist p < dist q then some p else some q) none

/-- Slots in use for a selection at a load (R69, R71): low slot, high slot and interpolation fraction in 1/256. -/
def Leaf.trimSlots (lf : Leaf) (sel load : Nat) : Option (Nat × Nat × Nat) :=
  let ld := fun p => (nth {} lf.cal p).load
  if 0 < sel ∧ (nth {} lf.cal (sel - 1)).valid then some (sel - 1, sel - 1, 0)
  else
    let below := lf.validSlots.filter fun p => ld p ≤ load
    let above := lf.validSlots.filter fun p => load < ld p
    let lo := below.foldl (fun (m : Option Nat) p => match m with | none => some p | some q => if ld q < ld p then some p else some q) none
    let hi := above.foldl (fun (m : Option Nat) p => match m with | none => some p | some q => if ld p < ld q then some p else some q) none
    match lo, hi with
    | some a, some b => some (a, b, (rhe ((256 * (load - ld a) : Nat) / ((ld b - ld a : Nat) : Rat))).toNat)
    | some a, none => some (a, a, 0)
    | none, some b => some (b, b, 0)
    | none, none => none

/-- Gain of a physical column under slots and a fraction. -/
def Leaf.gain (lf : Leaf) (u : Nat × Nat × Nat) (c : Nat) : Rat :=
  let ta : Rat := (smGet 0 (nth {} lf.cal u.1).trims c : Int)
  let tb : Rat := (smGet 0 (nth {} lf.cal u.2.1).trims c : Int)
  1 + (ta + (tb - ta) * ((u.2.2 : Nat) : Rat) / 256) / 16384

/-- A calibration-load mismatch: the highest recorded load of the slots in use lies more than 25 points below L_now (R73). -/
def loadMismatch (recorded load : Nat) : Bool := decide (recorded + 25 < load)

-- Measurement (R75).

/-- Mean code of physical column `c` under pattern `p` (0 to 3 = u4, u8, u12, u15; 4 to 7 = q0 to q3), and the sixteen codes. -/
def measCodes (lf : Leaf) (o : MeasObs) (p c : Nat) : List Nat :=
  let ideal : Rat := if p < 4 then nr (lf.lsumAll c) / 3072 else nr (smGet 0 lf.lsum (4 * c + (p - 4))) / 768
  let d := smGet [] o.dev (1152 * p + c)
  (List.range 16).map fun i => codeOf ideal (nth 0 d i)

def measMean (lf : Leaf) (o : MeasObs) (p c : Nat) : Rat := (nsum (measCodes lf o p c) : Rat) / 16

/-- Sample variance of the sixteen codes. -/
def measVar (lf : Leaf) (o : MeasObs) (p c : Nat) : Rat :=
  let m := measMean lf o p c
  rsum ((measCodes lf o p c).map fun (n : Nat) => ((n : Rat) - m) * ((n : Rat) - m)) / 15

/-- Reference codes of the measurement: those of its last phase. -/
def measRefs (lf : Leaf) (o : MeasObs) : List Nat :=
  (List.range 32).map fun q => (clampI 0 255 (ni (smGet 192 lf.factoryCode q) + nth 0 (smGet [] o.dev (1152 * 7 + 1088 + q)) 15)).toNat

/-- Positions that take part: data and checksum columns of the leaf's width, with the physical column that serves each and the one that serves its offset column. -/
def measCols (w : BitVec 2) (m : SMap (BitVec 16)) : List (Nat × Nat × Nat) :=
  (List.range (logicals w + checkGroups w)).flatMap fun j =>
    (List.range (offsetAt w)).map fun o =>
      let c := firstCol w j + o
      (c, servedBy m c, servedBy m (firstCol w j + offsetAt w))

/-- net[p] of a physical column against its offset column. -/
def measNet (lf : Leaf) (o : MeasObs) (p c off : Nat) : Rat := measMean lf o p c - measMean lf o p off

/-- Trim of a column, none where its group must be fenced. -/
def measTrim (lf : Leaf) (o : MeasObs) (c off : Nat) : Option Int :=
  if lf.lsumAll c = 0 then some 0
  else
    let nets := (List.range 4).map fun p => measNet lf o p c off
    if nets.any (· ≤ 0) then none
    else
      let g := rsum (nets.map fun n => 256 * nr (lf.lsumAll c) / 3072 / n) / 4
      let t := rhe ((g - 1) * 16384)
      if t < -2048 ∨ 2047 < t then none else some t

/-- Mask of the column groups of some columns. -/
def columnMask (cols : List Nat) : Nat := nsum ((cols.map groupOf).eraseDups.map (2 ^ ·))

/-- What a finished measurement gives: the measurement and the columns that cannot be trimmed, whose groups are fenced (R75). Such a column keeps trim 0 and enters sigma and r (DESIGN CHOICE, log entry 144). -/
def Leaf.measure (lf : Leaf) (w : BitVec 2) (m : SMap (BitVec 16)) (cause : CalCause) (load : Nat) (o : MeasObs) : Meas × List Nat :=
  let cols := measCols w m
  let res := cols.map fun x => (x, measTrim lf o x.2.1 x.2.2)
  let trims := res.foldl (fun (t : SMap Int) r => match r.2 with | some v => if v = 0 then t else smSet t r.1.2.1 v | none => t) []
  let bad := (res.filter fun r => r.2.isNone).map fun r => r.1.1
  let n : Rat := (cols.length : Nat)
  let resid2 := fun (x : Nat × Nat × Nat) =>
    rsum ((List.range 4).map fun i =>
      let d := measNet lf o (4 + i) x.2.1 x.2.2 * (1 + ((smGet 0 trims x.2.1 : Int) : Rat) / 16384) - 256 * nr (smGet 0 lf.lsum (4 * x.2.1 + i)) / 768
      d * d) / 4
  let sigma2 := rsum (cols.map fun x => measVar lf o 3 x.2.1) / n
  let r2 := rsum (cols.map resid2) / n
  ({ cause := cause, done := true, load := load, temp := rhe (((o.temp : Int) : Rat) / 256), refs := measRefs lf o, trims := trims,
     est2 := 256/10000 + 2025/10000 * sigma2 + 9/100 * r2, sigma2 := sigma2, gen := lf.generation }, bad)

/-- Slot a measurement at a load is stored in (R68). -/
def slotOfLoad (load : Nat) : Nat := if 10 * load < 425 then 0 else if load < 80 then 1 else 2

/-- Commit a finished measurement into a slot (R68, R70, R76). LEF_CAL_AUTO_CNT counts the measurements that a trigger 2, 3, 4 or 7 began, not those of a start-up or a programming (log entry 151). -/
def Leaf.commit (lf : Leaf) (m : Meas) (slot : Nat) : Leaf :=
  let est := rsqrtFix (m.est2 * 10000) 0
  { lf with cal := modAt lf.cal slot fun _ => { valid := true, load := m.load, temp := m.temp, refs := m.refs, trims := m.trims },
            generation := lf.generation + 1, lastCause := m.cause, estHigh := decide (64/100 ≤ m.est2),
            mvmEst := BitVec.ofNat 16 (min 0xFFFE est), noiseSigma := BitVec.ofNat 16 (min 0xFFFF (rsqrtFix m.sigma2 8)),
            reprogramDue := lf.reprogramDue || decide (64/100 ≤ m.est2), meas := none, bias := [], driftN := 0, driftSum := [],
            deferred := lf.deferred.filter (· != 3),
            calAutoCnt := if m.auto.isSome then satInc lf.calAutoCnt else lf.calAutoCnt }

/-- Commit on a leaf, with the REPROGRAM_DUE record (R76). -/
def State.commitMeas (s : State) (k : Nat) (m : Meas) (slot : Nat) : State :=
  let s1 := s.onLeaf k fun l => l.commit m slot
  if decide (64/100 ≤ m.est2) then s1.record .reprogramDue (uLeaf k) { source := 4, detail := (s1.leaf k).mvmEst.toNat } else s1

/-- Start an automatic measurement of a leaf for a cause (R78): a measurement that runs is kept; a suspended one, whose patterns its own operation discards by the new trim generation (R81), gives way. -/
def State.startMeas (s : State) (k : Nat) (cause : Nat) : State :=
  (s.onBough (k / 18) fun x => { x with clockStopped := false }).onLeaf k fun l =>
    let new : Meas := { cause := BitVec.ofNat 3 cause, gen := l.generation, auto := some (BitVec.ofNat 3 cause) }
    match l.meas with
    | some m => if m.suspended then { l with meas := some new } else l
    | none => { l with meas := some new }

/-- Operation `h`, a CALIBRATE, measures a leaf: it takes over a measurement that runs, and the commit counts for both (R82). -/
def State.startCalib (s : State) (h k : Nat) : State :=
  (s.onBough (k / 18) fun x => { x with clockStopped := false }).onLeaf k fun l =>
    let new : Meas := { cause := 5, gen := l.generation, ops := [h] }
    match l.meas with
    | some m => if m.suspended then { l with meas := some new } else { l with meas := some { m with cause := 5, ops := insertN m.ops h } }
    | none => { l with meas := some new }

/-- An automatic trigger (R78): measured at once, or deferred by the 10 ms spacing, or only noted where auto_recal_en is 0. -/
def State.trigger (s : State) (k cause : Nat) : State :=
  let l := s.leaf k
  if !bit l.calCtrl 16 then s.onLeaf k fun l => { l with recalWanted := true, wantedCause := BitVec.ofNat 3 cause }
  else if l.spacing then s.onLeaf k fun l => { l with deferred := if l.deferred.contains (BitVec.ofNat 3 cause) then l.deferred else l.deferred ++ [BitVec.ofNat 3 cause] }
  else (s.startMeas k cause).onLeaf k fun l => { l with spacing := true }

/-- Windows of LEF_CAL_CTRL (Table 3-8). -/
def Leaf.tempWindow (lf : Leaf) : Nat := clampN 2 40 (fld lf.calCtrl 15 8)
def Leaf.refWindow (lf : Leaf) : Nat := max 1 (fld lf.calCtrl 3 0)

/-- Trigger 2 holds: the junction temperature (1/256 °C) differs by more than the window from the nearest slot's. -/
def Leaf.tempTrigger (lf : Leaf) (load : Nat) (temp : Int) : Bool :=
  match lf.nearestSlot load with
  | some p => decide ((256 * lf.tempWindow : Nat) < (temp - 256 * (nth {} lf.cal p).temp).natAbs)
  | none => false

/-- Trigger 4's condition for a slot: it is invalid and L_now lies within 10 points of its nominal load. -/
def Leaf.emptyNear (lf : Leaf) (load p : Nat) : Bool :=
  let nom := nth 0 [25, 60, 100] p
  !(nth {} lf.cal p).valid && decide (((load : Int) - nom).natAbs ≤ 10)

/-- Trigger 3's condition over a finished block with these sums (Table 3-5). -/
def Leaf.driftTrigger (lf : Leaf) (sums : SMap Nat) (load : Nat) : Bool :=
  match lf.nearestSlot load with
  | some p => (List.range 32).any fun q =>
      decide (((lf.refWindow * 1024 : Nat) : Int) < (ni (smGet 0 sums q) - 1024 * ni (nth 0 (nth {} lf.cal p).refs q)).natAbs)
  | none => false

/-- Noise figure σ_n of the check, codes (R323): `temp` in 1/256 °C. -/
def Leaf.sigmaN (lf : Leaf) (temp : Int) : Rat :=
  let floor_ : Rat := if temp ≤ 25 * 256 then 15/100 else 15/100 + 25/10000 * ((temp : Rat) / 256 - 25)
  let own : Rat := (lf.noiseSigma.toNat : Rat) / 256
  if own < floor_ then floor_ else own

/-- End of a block of 1,024 executed phases: trigger 3 is judged and the next block begins (R78, Table 3-5). -/
def State.endDriftBlock (s : State) (k : Nat) : State :=
  let l := s.leaf k
  if l.driftN < 1024 then s
  else
    let s1 := s.onLeaf k fun l => { l with driftN := 0, driftSum := [], driftLast := l.driftSum }
    if l.role = Role.active ∧ l.driftTrigger l.driftSum s.bud.loadPct.toNat then s1.trigger k 3 else s1

/-- Trunk phases of leaf `k`, by their reference codes: each counts in the phase count and the drift block (Table 3-5). -/
def State.trunkPhases (s : State) (k : Nat) (codes : List (List Nat)) : State :=
  codes.foldl (fun (s : State) c => (s.endDriftBlock k).onLeaf k fun l =>
    { l with phaseCnt := l.phaseCnt + 1, driftN := l.driftN + 1, lastCode := (List.range 32).map fun q => (q, nth 192 c q),
             driftSum := (List.range 32).foldl (fun m q => smUpd 0 m q (· + nth 192 c q)) l.driftSum }) s

/-- A two-phase vector is between its phases on the leaf: no other phase is driven (R34). -/
def Leaf.midVector (lf : Leaf) : Bool := match lf.jobs with | j :: _ => j.second | [] => false

/-- Block sum that row-drive monitor `b` sees in phase `n` of a measurement (R52, R75). -/
def measBlockSum (n b : Nat) : Nat := if n < 64 then 64 * nth 0 [4, 8, 12, 15] (n / 16) else if b / 4 = n / 16 - 4 then 960 else 0

/-- Reference codes of the 128 phases of the eight patterns (R75). -/
def measRefPhases (lf : Leaf) (o : MeasObs) : List (List Nat) :=
  (List.range 128).map fun n => (List.range 32).map fun q =>
    (clampI 0 255 (ni (smGet 192 lf.factoryCode q) + nth 0 (smGet [] o.dev (1152 * (n / 16) + 1088 + q)) (n % 16))).toNat

end Sys2Proof.Machine
end

