-- ==== Sys2Proof/Machine/CalOps.lean ====
section
/-! DEFINITION. The CALIBRATE operation's leaves: their turns, statuses and the operation's end (R79 to R82). -/

namespace Sys2Proof.Machine

/-- CALIBRATE operations by slot. -/
def State.calibOps (s : State) : List (Nat × CalibOp) :=
  s.trunk.ops.filterMap fun p => match p.2.body with | .calib c => some (p.1, c) | _ => none

/-- A leaf of a CALIBRATE has no status yet. -/
def CalibOp.waits (c : CalibOp) (k : Nat) : Bool := c.leaves.contains k && (smFind c.status k).isNone

/-- The operation's code once every leaf has a status (R80): the first code other than DONE in the order given. -/
def CalibOp.code (c : CalibOp) : Nat := ([2, 3, 4, 5].find? fun n => c.status.any fun p => p.2 == n).getD 0

/-- Give leaf `k` of operation `h` its status; the last leaf ends the operation. -/
def State.calibLeaf (s : State) (h k code : Nat) : State :=
  match s.op h with
  | some { body := .calib c, .. } =>
    if !c.waits k then s
    else
      let c1 := { c with status := smSet c.status k code }
      let s1 := s.onOp h fun o => { o with body := .calib c1 }
      if c1.leaves.any c1.waits then s1 else s1.endOp h c1.code
  | _ => s

/-- Slots of the CALIBRATE operations that the measurement of leaf `k` serves. -/
def Leaf.calibs (l : Leaf) : List Nat := match l.meas with | some m => m.ops | none => []

/-- Leaf `k` ends with a status in every CALIBRATE that its measurement serves; one that waits for another load band goes on waiting (R79, R80). -/
def State.calibEnd (s : State) (k code : Nat) : State := (s.leaf k).calibs.foldl (fun (s : State) h => s.calibLeaf h k code) s

/-- The measurement of leaf `k` ends without a commit (R80, R81). -/
def State.dropMeas (s : State) (k code : Nat) : State := (s.calibEnd k code).onLeaf k fun l => { l with meas := none }

/-- Operation `h` is suspended. -/
def State.opSuspended (s : State) (h : Nat) : Bool := match s.op h with | some o => o.suspended | none => false

/-- Operation `h` discards its patterns of leaf `k` (R79, R81); a measurement that serves another operation or a trigger goes on for that. -/
def State.leaveMeas (s : State) (h k : Nat) : State :=
  s.onLeaf k fun l =>
    match l.meas with
    | none => l
    | some m =>
      let ops := removeN m.ops h
      if !m.ops.contains h then l
      else if ops.isEmpty && m.auto.isNone then { l with meas := none }
      else { l with meas := some { m with ops := ops, cause := if ops.isEmpty then m.auto.getD m.cause else m.cause, suspended := m.auto.isNone && ops.all s.opSuspended } }

/-- L_now lies in a selection's load band (R79). -/
def inBand (sel load : Nat) : Bool := sel == 0 || decide (((load : Int) - ni (nth 0 [25, 60, 100] (sel - 1))).natAbs ≤ 10)

/-- The measurement of leaf `k` serves operation `h`, and its phases have all run. -/
def State.calibFinished (s : State) (h k : Nat) : Bool := match (s.leaf k).meas with | some m => m.done && m.ops.contains h | none => false

/-- The leaves of operation `h` whose turn has come (R79, R80): measured, skipped for their role, or waiting for the load. -/
def State.calibTurn (s : State) (h : Nat) : State :=
  match s.op h with
  | some { body := .calib c, suspended := false, .. } =>
    let load := s.bud.loadPct.toNat
    c.leaves.foldl (fun (s : State) k =>
      if !c.waits k then s
      else if inBand c.sel load then
        if (s.leaf k).role ≠ Role.active then (s.leaveMeas h k).calibLeaf h k 2
        else if (s.leaf k).calibs.contains h || s.inReset (k / 72) then s
        else s.startCalib h k
      else
        let s1 := if s.calibFinished h k then s else s.leaveMeas h k
        if c.timedOut && !(s1.leaf k).calibs.contains h then s1.calibLeaf h k 3 else s1) s
  -- A suspended operation's leaves whose load leaves the band start again, finished or not (R81).
  | some { body := .calib c, suspended := true, .. } =>
    if inBand c.sel s.bud.loadPct.toNat then s else c.leaves.foldl (fun (s : State) k => if c.waits k then s.leaveMeas h k else s) s
  | _ => s

/-- Suspend operation `h` on leaf `k` (R81): a measurement that only suspended operations want stops and keeps its patterns; one that goes on for another leaves `h` behind. -/
def State.suspendCalib (s : State) (h k : Nat) : State :=
  match (s.leaf k).meas with
  | some m =>
    if !m.ops.contains h then s
    else if m.auto.isNone && m.ops.all s.opSuspended then s.onLeaf k fun l => { l with meas := some { m with suspended := true } }
    else s.leaveMeas h k
  | none => s

/-- Resume operation `h` on leaf `k` (R81): a load outside the band or a changed trim generation discards the patterns. -/
def State.resumeCalib (s : State) (h sel k : Nat) : State :=
  match (s.leaf k).meas with
  | some m =>
    if !m.ops.contains h then s
    else if m.gen ≠ (s.leaf k).generation ∨ !inBand sel s.bud.loadPct.toNat then s.leaveMeas h k
    else s.onLeaf k fun l => { l with meas := some { m with suspended := false } }
  | none => s

/-- Every CALIBRATE goes on as far as the load allows. -/
def State.calibAll (s : State) : State := s.calibOps.foldl (fun (s : State) p => s.calibTurn p.1) s

end Sys2Proof.Machine
end

