-- ==== Sys2Proof/Machine/ProgOps.lean ====
section
/-! DEFINITION. The program sequence's ends, swap groups, the leaf map, rounds of loads and folds, the switch, and fences of leaves (chapters 04, 09, 10 and 14). -/

namespace Sys2Proof.Machine

def State.prog (s : State) (pid : Nat) : Option Prog := smFind s.trunk.progs pid

def State.onProg (s : State) (pid : Nat) (f : Prog → Prog) : State :=
  match s.prog pid with
  | some p => s.onTrunk fun t => { t with progs := smSet t.progs pid (f p) }
  | none => s

def State.group (s : State) (g : Nat) : Option Group := smFind s.trunk.groups g

def State.onGroup (s : State) (g : Nat) (f : Group → Group) : State :=
  match s.group g with
  | some x => s.onTrunk fun t => { t with groups := smSet t.groups g (f x) }
  | none => s

/-- Every member of a group is in step 9 (R100). -/
def State.groupReady (s : State) (x : Group) : Bool :=
  x.members.length == x.size && x.members.all fun p => match s.prog p with | some q => q.step == 9 | none => false

-- Rounds of a load or fold.

/-- The rounds of operation `h`, where it has any. -/
def State.rounds (s : State) (h : Nat) : Option Rounds :=
  match s.op h with
  | some { body := .load l, .. } => some l.run
  | some { body := .fold f, .. } => some f.run
  | _ => none

def State.onRounds (s : State) (h : Nat) (f : Rounds → Rounds) : State :=
  s.onOp h fun o =>
    match o.body with
    | .load l => { o with body := .load { l with run := f l.run } }
    | .fold x => { o with body := .fold { x with run := f x.run } }
    | _ => o

/-- Stands that operation `h` targets, and whether it is a load. -/
def State.runStands (s : State) (h : Nat) : List Nat × Bool :=
  match s.op h with
  | some { body := .load l, .. } => (bitsSet 4 l.mask.toNat, true)
  | some { body := .fold f, .. } => (bitsSet 4 f.mask.toNat, false)
  | _ => ([], false)

/-- Change the stands an operation targets. -/
def State.onRunStands (s : State) (h : Nat) (f : Stand → Stand) : State :=
  (s.runStands h).1.foldl (fun s i => s.onStand i f) s

/-- Set the canopy state a stand shows. -/
def Stand.settle (d : Stand) : Stand :=
  { d with cnpState := if d.canopy.isSome then .loaded else .none, cnpRound := 0, cnpRounds := 0 }

/-- End the run of a load or fold that did not switch: dispatch resumes, and a committed round leaves the stands without an image (Table 9-13). -/
def State.endRun (s : State) (h loadCode foldCode : Nat) : State :=
  let (_, isLoad) := s.runStands h
  let committed := match s.rounds h with | some r => r.committed | none => false
  let code := if isLoad then loadCode else foldCode
  let s1 := s.onRunStands h fun d =>
    let d1 := { d with holdOps := removeN d.holdOps h, loadStatus := if isLoad then byteOf code else d.loadStatus,
                       loadSection := if isLoad then 0 else d.loadSection, loadEntry := if isLoad then 0 else d.loadEntry }
    (if committed then { d1 with canopy := none, cnpAddr := 0, cnpPartial := true } else d1).settle
  s1.endOp h code

-- Ends of members.

/-- End member `pid` with a code: the leaf's result, its own operation's OP_END, and the pump's queue. -/
def State.endMember (s : State) (pid code : Nat) : State :=
  match s.prog pid with
  | none => s
  | some p =>
    let s1 := match p.leaf with
      | some k => s.onLeaf k fun l => { l with progStatus := byteOf code, progStep := 0, progRow := 0, progPass := 0 }
      | none => s
    let s2 := (s1.onTrunk fun t => { t with progs := smErase t.progs pid }).onBough p.bough fun b => { b with progQueue := removeN b.progQueue pid }
    match p.op with
    | some h => s2.endOp h code
    | none => s2

/-- What becomes of the leaf of a member that leaves the sequence (Table 4-6): a staged or adopted leaf keeps its contents, another is erased. -/
def State.dropLeaf (s : State) (p : Prog) : State :=
  match p.leaf with
  | none => s
  | some k =>
    if (s.leaf k).role = .fenced then s
    else if p.step ≤ 1 ∨ p.step = 9 ∨ p.adopt then s.onLeaf k fun l => l.setRole .spare
    else s.eraseLeaf k .none

/-- Every partner of a failed group leaves it with GROUP_FAILED (R99). -/
def State.dropPartners (s : State) (g : Nat) : State :=
  match s.group g with
  | none => s
  | some x => (x.members.foldl (fun s q => match s.prog q with
      | some p => (s.dropLeaf p).endMember q 7
      | none => s) s).onTrunk fun t => { t with groups := smErase t.groups g }

/-- Member `pid` fails with a code; its leaf is left as `keep` says, its partners fail, and the load or fold it belongs to ends PROGRAM_FAILED (R99, R231), or ABORTED where the store refused its write (R383). -/
def State.failMember (s : State) (pid code : Nat) (keep : Bool) : State :=
  match s.prog pid with
  | none => s
  | some p =>
    let s1 := ((if keep then s else s.dropLeaf p).endMember pid code).dropPartners p.group
    match p.parent with
    | some h => if code = 9 then s1.endRun h 0x0B 6 else s1.endRun h 8 4
    | none => s1

/-- Groups of a queued or running leaf map write. -/
def WriteReq.mapGroups : WriteReq → Option (List Nat)
  | .record _ (.groups g) => some g
  | _ => none

/-- The map write that releases group `g` is issued: in the store's queue or in progress (Table 4-6). A released group waits for a write in progress to end (R100). -/
def State.mapIssued (s : State) (g : Nat) : Bool :=
  let has := fun (w : WriteReq) => match w.mapGroups with | some gs => gs.contains g | none => false
  s.store.queue.any has || (match s.store.busy with | .write ws => ws.any has | _ => false)

/-- The final map write of a run is issued (Table 9-13): its last round's group is released and in a write, or committed. -/
def Rounds.switchIssued (r : Rounds) (s : State) : Bool := r.switching && (match r.group with | some g => s.mapIssued g || (s.group g).isNone | none => true)

/-- A load or fold fails, is cancelled or meets a reset before its final map write: its members are dropped; a group whose map write is issued goes on by itself (Tables 4-6 and 9-13). Answers whether it took effect. -/
def State.failRun (s : State) (h loadCode foldCode : Nat) : State × Bool :=
  match s.rounds h with
  | none => (s, false)
  | some r =>
    if r.switchIssued s then (s, false)
    else match r.group with
      | none => (s.endRun h loadCode foldCode, true)
      | some g =>
        if s.mapIssued g then
          let s1 := (match s.group g with | some x => x.members | none => []).foldl (fun (s : State) q => s.onProg q fun p => { p with parent := none }) s
          (((s1.onGroup g fun x => { x with held := false }).onRounds h fun r => { r with committed := true }).endRun h loadCode foldCode, true)
        else ((s.dropPartners g).endRun h loadCode foldCode, true)

-- The leaf map (R100, R102).

/-- A leaf map write is queued or in progress. -/
def State.mapBusy (s : State) : Bool :=
  (s.store.queue.any fun w => w.mapGroups.isSome)
    || match s.store.busy with | .write ws => ws.any fun w => w.mapGroups.isSome | _ => false

/-- The map with the members of groups in it, next generation. -/
def State.nextMap (s : State) (gs : List Nat) : LeafMap :=
  let ps := gs.flatMap fun g => match s.group g with | some x => x.members | none => []
  { gen := s.trunk.map.gen + 1,
    serve := ps.foldl (fun m q => match s.prog q with
      | some { bough := b, slot := sl, leaf := some k, .. } => smSet m (16 * b + sl) (k % 18)
      | _ => m) s.trunk.map.serve }

/-- Issue the map write of every released group, unless one is in progress (R100). A store that refuses writes ends the members ABORTED (R383). -/
def State.issueMap (s : State) : State :=
  let gs := (s.trunk.groups.filter fun p => p.2.released && !p.2.durable).map (·.1)
  if gs.isEmpty ∨ s.mapBusy then s
  else if s.storeRefuses then
    gs.foldl (fun s g => match s.group g with
      | some { members := m :: _, .. } => s.failMember m 9 false
      | _ => s) s
  else s.storeRec mapKey (.leafMap (s.nextMap gs)) (.groups gs)

/-- Release a group. -/
def State.releaseGroup (s : State) (g : Nat) : State := (s.onGroup g fun x => { x with released := true }).issueMap

-- Swaps (R102, R103).

/-- An unretired epoch of bough `b` issued phases to a leaf, or may replay on it. -/
def State.drainNeeded (s : State) (b k : Nat) : Bool :=
  ((s.bough b).epochs.any fun e => e.ckpt.slotMap.any fun p => p.2 == k)
    || (s.bough b).replay.any fun r => r.2.2.2.any fun p => p.2 == k

/-- Apply the swap of member `pid`: the old leaf drains, the new one serves with the image's range shifts of its slot (log entry 150), and the operation completes DONE. -/
def State.applySwap (s : State) (pid : Nat) : State :=
  match s.prog pid with
  | some { bough := b, slot := sl, leaf := some k, .. } =>
    let s1 := match s.serving? b sl with
      | some o =>
        if s.drainNeeded b o then s.onLeaf o fun l => { l with draining := true, diag := [] }
        else s.onLeaf o fun l => { l.setRole .spare with slot := 0x1F#5 }
      | none => s
    let ref := match (s.stand (standOf b)).canopy with
      | some c => c.leafRefs.find? fun (r : LeafRef) => r.bough == b && r.slot == sl
      | none => none
    let s2 := s1.onLeaf k fun l =>
      let l1 := { l.setRole .active with slot := BitVec.ofNat 5 sl, draining := false, refCheckDue := true, checked := true,
                                         reprogramDue := l.estHigh, bias := [] }
      match ref with
      | some r => { l1.setRange (BitVec.ofNat 2 r.rangeFirst) (BitVec.ofNat 2 r.rangeSecond) with
                      imgRangeFirst := BitVec.ofNat 2 r.rangeFirst, imgRangeSecond := BitVec.ofNat 2 r.rangeSecond,
                      winFirst := (0, 0), winSecond := (0, 0), raiseFirst := false, raiseSecond := false }
      | none => l1
    s2.endMember pid 0
  | _ => s

/-- Apply every committed swap of a bough (R102). -/
def State.applySwaps (s : State) (b : Nat) : State :=
  (s.trunk.progs.filter fun p => p.2.bough == b && p.2.step == 10).foldl (fun s p => s.applySwap p.1) s

/-- Draining leaves of a bough that no epoch needs any more return to SPARE (R103). -/
def State.endDrains (s : State) (b : Nat) : State :=
  (leavesOf b).foldl (fun s k =>
    if (s.leaf k).draining && !s.drainNeeded b k then
      s.onLeaf k fun l => if l.role = .active then { l.setRole .spare with draining := false, slot := 0x1F#5 } else { l with draining := false }
    else s) s

/-- The bough has no task: its twig is at a layer boundary (R170). -/
def Bough.idleTwig (b : Bough) : Bool := b.task.isNone

-- The switch (R228).

/-- Apply steps 2 to 4 of R228 for one stand. -/
def State.installImage (s : State) (i : Nat) (c : Canopy) (addr : Nat) : State :=
  let mine := fun (b : Nat) => standOf b == i && bit c.boughUse b
  let s1 := c.tables.foldl (fun s t => (bitsSet 16 t.boughMask.toNat).foldl (fun s b =>
    let slot : TabSlot := { y := t.y, nlFrac := t.nlFrac, outFmt := t.outFmt, preTensor := t.preTensor, outTensor := t.outTensor }
    if mine b then s.onBough b fun x => { x with tables := smSet x.tables t.slot slot } else s) s) s
  let s2 := (List.range 16).foldl (fun s b =>
    match c.thresholds[b]? with
    | some t =>
      if t.apply && mine b then
        (leavesOf b).foldl (fun s k => s.onLeaf k fun l => { l with calCtrl := t.calCtrl &&& 0x0001FF0F#32 })
          (s.onBough b fun x => { x with raCtrl := t.raCtrl &&& 0x33F#32, qntCtrl := t.qntCtrl &&& 0xC7#32 })
      else s
    | none => s) s1
  let s3 := c.leafRefs.foldl (fun (s : State) (r : LeafRef) =>
    if mine r.bough then
      match s.serving? r.bough r.slot with
      | some k => s.onLeaf k fun l =>
          { l.setRange (BitVec.ofNat 2 r.rangeFirst) (BitVec.ofNat 2 r.rangeSecond) with
              imgRangeFirst := BitVec.ofNat 2 r.rangeFirst, imgRangeSecond := BitVec.ofNat 2 r.rangeSecond,
              winFirst := (0, 0), winSecond := (0, 0), raiseFirst := false, raiseSecond := false }
      | none => s
    else s) s2
  let s4 := (s.boughsOf i).foldl (fun s b => s.onBough b fun x => { x with inbound := [], landed := [], sent := [], credits := [], received := [] }) s3
  s4.onStand i fun d => { d with canopy := some c, cnpAddr := BitVec.ofNat 64 addr, cnpPartial := false, cnpState := .loaded }

/-- SWITCH of operation `h` (R228, R248): install the image or clear the folded graft, resume dispatch and complete DONE. -/
def State.switchDone (s : State) (h : Nat) : State :=
  match s.op h with
  | some { body := .load l, .. } =>
    match l.canopy with
    | some c =>
      let s1 := (bitsSet 4 l.mask.toNat).foldl (fun s i => (s.installImage i c l.addr).onStand i fun d =>
        { d with loadCnt := satInc d.loadCnt, loadStatus := 0, loadSection := 0, loadEntry := 0, cnpRound := 0, cnpRounds := 0, holdOps := removeN d.holdOps h }) s
      s1.endOp h 0
    | none => s
  | some { body := .fold f, .. } =>
    -- The context's graft block: clear enabled, count the fold (R248; Table 10-2).
    let ent := s.hbmNat (s.ctxAddr f.context + 16) 8 + 64 + 64 * f.graft
    let s1 := (s.pokeNat ent 1 (s.hbmNat ent 1 / 2 * 2)).pokeNat (ent + 20) 4 (min (2 ^ 32 - 1) (s.hbmNat (ent + 20) 4 + 1))
    (s1.onRunStands h fun d => Stand.settle { d with holdOps := removeN d.holdOps h }).endOp h 0
  | _ => s

-- Progress of a run (R227).

/-- A new program member. -/
def State.newProg (s : State) (p : Prog) : State × Nat :=
  let n := s.trunk.nextProg
  (s.onTrunk fun t => { t with progs := smSet t.progs n p, nextProg := n + 1 }, n)

/-- A SPARE leaf whose record is PROGRAMMED with a digest and width, and which has its derived configuration (R226). -/
def Leaf.adopts (l : Leaf) (digest : List Byte) (w : Nat) : Bool :=
  l.role == .spare && l.record.state == .programmed && l.derivedOk && decide (l.record.digest = digest) && l.record.width.toNat == w

/-- The leaf that a member adopts when its round starts: the one planned at VALIDATE, while it still may, else another of its bough (R226). -/
def State.adopted (s : State) (m : RMember) : Option Nat :=
  m.adopt.bind fun k => (k :: leavesOf m.bough).find? fun k => (s.leaf k).adopts m.digest m.width

/-- Start the next round of operation `h`: its members as one held group (R227). -/
def State.startRound (s : State) (h : Nat) : State :=
  match s.rounds h with
  | some r =>
    match r.todo with
    | ms :: rest =>
      let g := s.trunk.nextGroup
      let s1 := s.onTrunk fun t => { t with groups := smSet t.groups g { size := ms.length, held := true }, nextGroup := g + 1 }
      let s2 := ms.foldl (fun s m =>
        match s.adopted m with
        | some k =>
          let (s3, pid) := s.newProg { parent := some h, bough := m.bough, slot := m.slot, group := g, expected := m.digest, adopt := true, leaf := some k, step := 6, width := (s.leaf k).record.width }
          (s3.onLeaf k fun l => { l.setRole .programming with progStep := 6, targetDigest := m.digest }).onGroup g fun x => { x with members := x.members ++ [pid] }
        | none =>
          let (s3, pid) := s.newProg { parent := some h, bough := m.bough, slot := m.slot, group := g, imageAddr := m.addr, expected := m.digest }
          (s3.onBough m.bough fun b => { b with progQueue := b.progQueue ++ [pid] }).onGroup g fun x => { x with members := x.members ++ [pid] }) s1
      let s4 := s2.onRounds h fun r => { r with todo := rest, round := r.round + 1, group := some g }
      s4.onRunStands h fun d => { d with cnpRound := byteOf (r.round + 1), cnpRounds := byteOf r.rounds }
    | [] => s
  | none => s

/-- Begin QUIESCE: dispatch stops on the target stands (R225 step 3). -/
def State.beginQuiesce (s : State) (h : Nat) : State :=
  let s1 := s.onRunStands h fun d => { d with cnpState := .quiesced, cnpRound := 0, holdOps := insertN d.holdOps h }
  let s2 := s1.onRounds h fun r => { r with quiescing := true }
  s2.onOp h fun o => match o.body with
    | .load l => { o with body := .load { l with step := 3 } }
    | _ => o

/-- Release the present round's group; the last round's release is part of SWITCH (R227), where no round is in progress (Table 9-15). -/
def State.releaseRound (s : State) (h : Nat) : State :=
  match s.rounds h with
  | some { group := some g, todo := rest, round := n, .. } =>
    ((s.onRounds h fun r => { r with switching := rest.isEmpty }).onRunStands h fun d => { d with cnpRound := if rest.isEmpty then 0 else byteOf n }).releaseGroup g
  | _ => s

/-- The last member of the present round is staged. -/
def State.roundStaged (s : State) (h : Nat) : State :=
  match s.rounds h with
  | some r => if !r.quiescing then s.beginQuiesce h else if r.quiesced then s.releaseRound h else s
  | none => s

/-- Member `pid` enters step 9: its group may be released (R100). -/
def State.stageMember (s : State) (pid : Nat) : State :=
  match s.prog pid with
  | none => s
  | some p =>
    let s1 := s.onProg pid fun p => { p with step := 9 }
    let s2 := match p.leaf with | some k => s1.onLeaf k fun l => { l with progStep := 9 } | none => s1
    match s2.group p.group with
    | some x =>
      if s2.groupReady x then
        match p.parent with
        | some h => s2.roundStaged h
        | none => if x.knotMode then s2 else s2.releaseGroup p.group
      else s2
    | none => s2

/-- A leaf map write is durable: the groups are committed, idle boughs swap at once, and runs go on (R100, R102, R227). -/
def State.mapDurable (s : State) (m : LeafMap) (gs : List Nat) : State :=
  let s1 := s.onTrunk fun t => { t with map := m }
  let s2 := gs.foldl (fun s g =>
    match s.group g with
    | none => s
    | some x =>
      let parent := x.members.findSome? fun q => match s.prog q with | some p => p.parent | none => none
      let s1 := x.members.foldl (fun s q => match s.prog q with
        | some p => (match p.leaf with
            | some k => s.onLeaf k fun l => { l with progStep := 10 }
            | none => s).onProg q fun p => { p with step := 10 }
        | none => s) s
      let bs := (x.members.filterMap fun q => (s.prog q).map (·.bough)).eraseDups
      let s2 := bs.foldl (fun s b => if (s.bough b).idleTwig then s.applySwaps b else s) (s1.onTrunk fun t => { t with groups := smErase t.groups g })
      match parent with
      | some h =>
        let s3 := s2.onRounds h fun r => { r with committed := true, group := none }
        (match s3.rounds h with
          | some r => if r.todo.isEmpty then s3.switchDone h else s3.startRound h
          | none => s3)
      | none => s2) s1
  s2.issueMap

/-- A KNOT-mode group observes a signal of its knot: released when its last member is in step 9 (R100). -/
def State.groupSignal (s : State) (n : Nat) : State :=
  (s.trunk.groups.filter fun p => p.2.knotMode && p.2.knot == n && !p.2.released && s.groupReady p.2).foldl (fun s p => s.releaseGroup p.1) s

-- Fences of leaves (R326, R327).

/-- Detail of a FENCE record: unit depth and cause (Table 14-8). -/
def fenceDetail (depth cause : Nat) : Nat := 16 * depth + cause

/-- Fence leaf `k` (R327): role, record, FENCE record, its phases refused, and the program member it serves ends FENCED. -/
def State.fenceLeaf (s : State) (k cause : Nat) : State :=
  if (s.leaf k).role = .fenced then s
  else
    -- R80: a leaf fenced during its measurement ends ABORTED; R105: a program cycle that it ends is counted.
    let begun := s.trunk.progs.any fun (p : Nat × Prog) => decide (p.2.leaf = some k ∧ 2 ≤ p.2.step) && !p.2.adopt
    let s0 := if begun then s.countCycle k else s
    let s1 := ((s0.dropMeas k 4).onLeaf k Leaf.settleRemap).onLeaf k fun l =>
      { l.setRole .fenced with draining := l.draining, fences := l.fences + 1, slot := if l.draining then l.slot else 0x1F#5,
                               progStep := 0, record := { l.record with state := .fenced, digest := List.replicate 32 0 } }
    let s2 := (s1.writeLeafRec k .none).record .fence (uLeaf k)
      { source := 4, detail := fenceDetail 3 cause, detail2 := (s.leaf k).groupFence.toNat }
    -- The member ends FENCED at any point before its swap; a committed group is no more, so its partners go on (log entry 146).
    let s3 := match s2.trunk.progs.find? fun p => decide (p.2.leaf = some k) with
      | some p => (if p.2.step = 10 then s2.onProg p.1 fun p => { p with parent := none } else s2).failMember p.1 8 true
      | none => s2
    s3.abortEntry 10 (unitCode 3 (k / 72) (k / 18 % 4) (k % 18))

/-- Fence column groups of leaf `k` with a cause: the leaf itself when eight or more are fenced (R326, R327). -/
def State.fenceGroups (s : State) (k mask cause : Nat) : State :=
  let l := s.leaf k
  let new := mask &&& (0xFFFFFFFF ^^^ l.groupFence.toNat)
  if new = 0 then s
  else
    let all := l.groupFence ||| wordOf mask
    let s1 := s.onLeaf k fun l => { l with groupFence := all, fences := l.fences + 1, bias := [],
                                           record := { l.record with fencedGroups := l.record.fencedGroups ||| wordOf mask } }
    if 8 ≤ popCount 32 all.toNat then s1.fenceLeaf k cause
    else if l.role = .programming then s1 else s1.writeLeafRec k .none

/-- Columns of leaf `k` found faulty in service: their groups are fenced, and they are remapped at the next programming (R49, R75, R96). -/
def State.fenceColumns (s : State) (k : Nat) (cols : List Nat) (cause : Nat) : State :=
  if cols.isEmpty then s
  else
    let s1 := s.onLeaf k fun l => { l with record := { l.record with pendingRemap := cols.foldl insertN l.record.pendingRemap } }
    let mask := columnMask cols
    if mask &&& (s.leaf k).groupFence.toNat = mask then s1.writeLeafRec k .none else s1.fenceGroups k mask cause

/-- A drive mismatch of leaf `k` in some monitor blocks, in its executed phase `now` (R52, R327). -/
def State.driveMismatch (s : State) (k : Nat) (blocks : List Nat) (now : Nat) : State :=
  let l := s.leaf k
  let again := blocks.any fun i => match smFind l.blockMismatch i with | some t => decide (now - t ≤ 1024) | none => false
  let s1 := s.onLeaf k fun l =>
    { l with errStatus := l.errStatus ||| 1#5, mismatchCnt := satInc l.mismatchCnt, mismatchHold := true,
             blockMismatch := blocks.foldl (fun m i => smSet m i now) l.blockMismatch }
  if again then s1.fenceLeaf k 3 else s1

/-- Monitor blocks whose 10-bit code differs by more than 2 from the block sum (R52). -/
def mismatchBlocks (sum : Nat → Nat) (dev : Nat → Int) : List Nat :=
  (List.range 16).filter fun i => decide (2 < (clampI 0 1023 (ni (sum i) + dev i) - ni (sum i)).natAbs)

/-- Trunk phases of leaf `k` with their reference codes, block sums and monitor deviations (R52): a drive mismatch is judged in each (log entry 164). -/
def State.trunkDrive (s : State) (k : Nat) (codes : List (List Nat)) (sum : Nat → Nat → Nat) (dev : Nat → Nat → Int) : State :=
  let n := (s.leaf k).phaseCnt.toNat
  (List.range codes.length).foldl (fun (s : State) i =>
    let blocks := mismatchBlocks (sum i) (dev i)
    if blocks.isEmpty then s else s.driveMismatch k blocks (n + i + 1)) (s.trunkPhases k codes)

/-- The 128 phases of a measurement of leaf `k` (R75). -/
def State.measPhases (s : State) (k : Nat) (o : MeasObs) : State :=
  s.trunkDrive k (measRefPhases (s.leaf k) o) measBlockSum fun n b => smGet 0 o.monitor (16 * n + b)

/-- Check group that a column group lies in, by the leaf's width (R326). -/
def checkGroupOf (w : BitVec 2) (q : Nat) : Nat := q / max 1 (perWeight w)

/-- A check group is unavailable: one of its column groups is fenced (R326). -/
def Leaf.unavailable (lf : Leaf) (g : Nat) : Bool :=
  (List.range 32).any fun q => bit lf.groupFence q && checkGroupOf lf.width q == g

/-- A diagnosis of leaf `k` is wanted (R325): one for each trigger, in their order, once the leaf is ACTIVE; a draining leaf is never diagnosed. -/
def State.startDiag (s : State) (k : Nat) (t : DiagTrig) : State :=
  let l := s.leaf k
  if l.draining then s else s.onLeaf k fun l => { l with diag := l.diag ++ [t] }

/-- The reference self-check of leaf `k` with the codes read and the monitors' deviations (R44): groups outside the window are fenced. -/
def State.selfCheck (s : State) (k : Nat) (codes : List Nat) (mon : SMap Int) : State :=
  let l := s.leaf k
  let code := fun q => nth (smGet 192 l.factoryCode q) codes q
  let out := nsum (((List.range 32).filter fun q => decide (12 < (ni (code q) - ni (smGet 192 l.factoryCode q)).natAbs)).map (2 ^ ·))
  let s1 := (s.trunkDrive k [(List.range 32).map code] (fun _ _ => 960) fun _ b => smGet 0 mon b).onLeaf k fun l =>
    { l with outOfWindow := wordOf out, refCheckPass := decide (out = 0),
             errStatus := if out = 0 then l.errStatus else l.errStatus ||| 2#5, checked := true, refCheckDue := false }
  if out = 0 then s1
  else ((s1.record .refFault (uLeaf k) { source := 4, detail := out }).fenceGroups k out 10).startDiag k .refFault

end Sys2Proof.Machine
end

