-- ==== Sys2Proof/Machine/KnotOps.lean ====
section
/-! DEFINITION. Knots: signals, tokens and those who wait for them (R262 to R265, R300). -/

namespace Sys2Proof.Machine

/-- Knot `n`. -/
def State.knot (s : State) (n : Nat) : Knot := smGet {} s.que.knots n

/-- Change knot `n`; knot 0 holds no state (R262). -/
def State.onKnot (s : State) (n : Nat) (f : Knot → Knot) : State :=
  if n = 0 then s else s.onQue fun q => { q with knots := smUpd {} q.knots n f }

/-- One signal applied to a knot's counts (R262); T and L of 0 act as 1 (Table 11-9). -/
def Knot.signal (x : Knot) : Knot :=
  if x.p.toNat + 1 = max 1 x.t.toNat then
    if 65535 < x.k.toNat + max 1 x.l.toNat then { x with p := 0, f := x.f + 1, k := 0xFFFF#16, overflow := true }
    else { x with p := 0, f := x.f + 1, k := BitVec.ofNat 16 (x.k.toNat + max 1 x.l.toNat) }
  else { x with p := x.p + 1 }

/-- A token given back by a squashed epoch (R263). -/
def Knot.giveBack (x : Knot) : Knot := if x.k = 0xFFFF#16 then { x with overflow := true } else { x with k := x.k + 1 }

/-- The youngest epoch of a bough changed. -/
def Bough.onLast (x : Bough) (f : Epoch → Epoch) : Bough := { x with epochs := modAt x.epochs (x.epochs.length - 1) f }

/-- Bough `b`'s KWAIT takes a token of knot `n`. -/
def State.giveBough (s : State) (b n : Nat) : State :=
  s.onBough b fun x => { x.onLast (fun e => { e with token := some n, opsLeft := e.opsLeft - 1 }) with wait := .none }

/-- Serve the waiters of knot `n` in order while tokens last (R263); a queue whose head is not ready in every other respect takes none (R261). -/
def State.serveKnot (s : State) (n : Nat) : State :=
  (List.range (s.knot n).waiters.length).foldl (fun s _ =>
    let x := s.knot n
    match x.waiters with
    | [] => s
    | w :: rest =>
      if x.k = 0 then s
      else
        let pop := s.onKnot n fun x => { x with waiters := rest }
        let take := pop.onKnot n fun x => { x with k := x.k - 1 }
        match w with
        | .bough b => take.giveBough b n
        | .coll e => if s.collReady e then take.startRun e else pop
        | .queue q =>
          let off := fun (s : State) => s.onQueue q fun r => { r with waitsKnot := false }
          if s.readyButGate q then (off take).onQueue q fun r => { r with releases := r.releases + 1 } else off pop) s

/-- Apply one signal to knot `n`: counts, KNOT-mode groups, waiters (R262). -/
def State.signalKnot (s : State) (n : Nat) : State :=
  if n = 0 then s else ((s.onKnot n Knot.signal).groupSignal n).serveKnot n

/-- Begin to wait on knot `n` after those who wait already. -/
def State.waitKnot (s : State) (n : Nat) (w : KWaiter) : State :=
  (s.onKnot n fun x => { x with waiters := x.waiters ++ [w] }).serveKnot n

/-- A queue gated on a knot begins to wait once its head task is ready in every other respect (R261), unless it is a command queue, whose gate is ignored (R271); none while the knot is the done knot of a failed entry (R303). -/
def State.enlist (s : State) (q : Nat) : State :=
  let r := s.queue q
  if r.desc.owner < 4 ∧ r.desc.gate = .knot ∧ r.releases = 0 ∧ !r.waitsKnot ∧ (s.failedDone r.desc.gateKnot).isNone ∧ s.readyButGate q then
    if r.desc.gateKnot = 0 then s.onQueue q fun r => { r with releases := 1 }
    else (s.onQueue q fun r => { r with waitsKnot := true }).waitKnot r.desc.gateKnot (.queue q)
  else s

/-- An armed entry waits on its trigger knot, once, while it may take tokens (R300, R310). -/
def State.armWait (s : State) (e : Nat) : State :=
  match s.armed e with
  | some a =>
    if !s.collReady e ∨ (s.knot a.ent.trigger).waiters.contains (.coll e) then s
    else if a.ent.trigger = 0 then s.startRun e else s.waitKnot a.ent.trigger (.coll e)
  | none => s

/-- Detail of a completion with cause PEER_RESET (R268). -/
def peerDetail (own : Bool) (code stand dev : Nat) : Word := wordOf (at_ (b2n own) 31 + at_ code 24 + at_ stand 7 + dev)

/-- KWAITs on the done knot of a failed entry end without a token (R303). -/
def State.failWaiters (s : State) (n : Nat) : State :=
  match s.failedDone n with
  | none => s
  | some (code, dev, stand) =>
    let x := s.knot n
    x.waiters.foldl (fun s w => match w with
      | .bough b => s.onBough b fun y =>
          { y.onLast (fun e => { e with opsLeft := e.opsLeft - 1, fails := e.fails ++ [.peerReset (peerDetail false code.toNat stand dev)] }) with wait := .none }
      | .queue q => s.onQueue q fun r => { r with waitsKnot := false }
      | .coll _ => s) (s.onKnot n fun x => { x with waiters := x.waiters.filter fun w => match w with | .coll _ => true | _ => false })

/-- Stop waiting: remove a bough from every knot's waiters. -/
def State.unwaitBough (s : State) (b : Nat) : State :=
  s.onQue fun q => { q with knots := q.knots.map fun p => (p.1, { p.2 with waiters := p.2.waiters.filter (· != .bough b) }) }

end Sys2Proof.Machine
end

