-- ==== Sys2Proof/Machine/BoughOps.lean ====
section
/-! DEFINITION. The bough's machinery: sapwood and accumulator reads and held writes, epochs, squashes and faults of tasks (chapter 07). -/

namespace Sys2Proof.Machine

-- Write-hold buffer (R173, R177).

/-- Lines the buffer holds. -/
def holdLines : Nat := 4096

/-- Free lines: those neither held by retired epochs nor in the footprint of unretired ones (R177). -/
def Bough.freeLines (x : Bough) : Nat :=
  holdLines - nsum (x.epochs.map (·.footprint)) - (x.held.filter (·.retired)).length

/-- Add held lines, with the high-water mark. -/
def Bough.hold (x : Bough) (ls : List HeldLine) : Bough :=
  let h := x.held ++ ls
  { x with held := h, highWater := if x.highWater.toNat < h.length then BitVec.ofNat 13 h.length else x.highWater }

/-- Bytes of a run by line: line number, offset in the line and value. -/
def lineBytes (off : Nat) (bs : List Byte) : SMap (List (Nat × Byte)) :=
  (bs.foldl (fun (a : SMap (List (Nat × Byte)) × Nat) b => (smUpd [] a.1 (a.2 / 64) (· ++ [(a.2 % 64, b)]), a.2 + 1)) ([], off)).1

/-- Runs of one operation by line; later bytes of a line follow earlier ones. -/
def runLines (runs : List (Nat × List Byte)) : SMap (List (Nat × Byte)) :=
  runs.foldl (fun m r => (lineBytes r.1 r.2).foldl (fun m p => smUpd [] m p.1 (· ++ p.2)) m) []

/-- Distinct 64-byte lines that byte ranges touch. -/
def linesTouched (rs : List (Nat × Nat)) : List Nat :=
  rs.foldl (fun m r => if r.2 = 0 then m else
    (List.range ((r.1 + r.2 - 1) / 64 - r.1 / 64 + 1)).foldl (fun m i => insertN m (r.1 / 64 + i)) m) []

-- Sapwood (R174).

/-- The youngest held byte of a sapwood address. -/
def heldByte (hs : List HeldLine) (off : Nat) : Option Byte :=
  hs.foldr (fun h r => match r with
    | some b => some b
    | none => if h.dest = .sap (off / 64) then (h.bytes.reverse.find? fun p => p.1 == off % 64).map (·.2) else none) none

/-- One sapwood byte as an operation reads it. -/
def Bough.sapByte (x : Bough) (off : Nat) : Byte := (heldByte x.held off).getD (memGet x.sapwood off)

/-- Bytes of sapwood as an operation reads them. -/
def Bough.sapBytes (x : Bough) (off n : Nat) : List Byte := (List.range n).map fun i => x.sapByte (off + i)

/-- An unfinished read of the twig targets some byte of the range (R174). -/
def Bough.sapPending (x : Bough) (off n : Nat) : Bool :=
  x.reads.any fun r => decide (r.dst < off + n ∧ off < r.dst + r.len)

/-- HBM line whose poison the range carries: the lowest address among its marked lines (R320). -/
def Bough.sapMark (x : Bough) (off n : Nat) : Option Nat :=
  let ls := linesTouched [(off, n)]
  let own := ls.filterMap fun l =>
    if x.held.any fun h => decide (h.dest = .sap l) then (x.held.filterMap fun h => if h.dest = .sap l then h.poison else none).head?
    else smFind x.sapPoison l
  own.foldl (fun m a => match m with | none => some a | some b => some (min a b)) none

/-- First line of the range with a parity error (Table 14-1 row 2). -/
def Bough.sapBadParity (x : Bough) (off n : Nat) : Option Nat := (linesTouched [(off, n)]).find? x.sapParity.contains

/-- Note a read of the present epoch: its bytes (R175), poison and parity. -/
def Bough.noteRead (x : Bough) (off n : Nat) : Bough :=
  let mark := x.sapMark off n
  let bad := x.sapBadParity off n
  x.onLast fun e =>
    { e with readBytes := e.readBytes ++ [(off, n)],
             fails := e.fails ++ (match mark with | some a => [.poison a] | none => []) ++ (match bad with | some l => [.memParity l] | none => []) }

/-- Direct write of sapwood (R175): parity and poison marks of lines it touches follow the data. -/
def Bough.sapPut (x : Bough) (off : Nat) (bs : List Byte) (poison : Option Nat) : Bough :=
  let whole := fun l => decide (off ≤ 64 * l ∧ 64 * l + 64 ≤ off + bs.length)
  let ls := linesTouched [(off, bs.length)]
  { x with sapwood := memPutAll x.sapwood off bs,
           sapParity := x.sapParity.filter fun l => !(ls.contains l && whole l),
           sapPoison := ls.foldl (fun m l => match poison with
             | some a => smUpd a m l (min a)
             | none => if whole l then smErase m l else m) x.sapPoison }

/-- The bough's present epoch and operation for a held line. -/
def Bough.here (x : Bough) : Nat × Nat := (match x.epochs.getLast? with | some e => e.num | none => 0, x.ck.pc)

/-- Hold the runs of one operation as lines with destinations (R173). -/
def Bough.holdRuns (x : Bough) (t : Nat) (mk : Nat → Dest) (runs : List (Nat × List Byte)) (poison : Option Nat) : Bough :=
  let (e, op) := x.here
  x.hold ((runLines runs).map fun p => { epoch := e, task := t, op := op, dest := mk p.1, bytes := p.2, poison := poison })

-- Accumulator memory (R127, R163, R176).

/-- Line `i` of accumulator memory. -/
def Bough.accLine (x : Bough) (i : Nat) : AccLine := smGet { vals := List.replicate 16 0, tags := List.replicate 16 0 } x.acc i

/-- A partial and its tag. -/
def Bough.partial_ (x : Bough) (i : Nat) : Int × Int := (nth 0 (x.accLine (i / 16)).vals (i % 16), nth 0 (x.accLine (i / 16)).tags (i % 16))

/-- A line as it travels, with one tag (R210): every partial is aligned to the largest tag (R127; log entry 148). -/
def AccLine.flat (l : AccLine) : List Int × Int :=
  let top := l.tags.foldl (fun m t => if m < t then t else m) (-128)
  ((l.vals.zip l.tags).map fun p => if p.2 = -128 then 0 else rshr p.1 (top - p.2).toNat, top)

/-- Lines of a range of partials. -/
def accLines (i n : Nat) : List Nat := if n = 0 then [] else (List.range ((i + n - 1) / 16 - i / 16 + 1)).map (i / 16 + ·)

/-- Unfinished phases or contributions of the bough write partials of the range. -/
def State.accPending (s : State) (b i n : Nat) : Bool :=
  (s.bough b).contribs.any (fun c => decide (c.outIdx < i + n ∧ i < c.outIdx + c.ys.length))
    || (leavesOf b).any fun k => (s.leaf k).jobs.any fun j => decide (j.outIdx < i + n ∧ i < j.outIdx + logicals (s.leaf k).width)

/-- Take the pre-image of an accumulator line for the epoch `e` of task `t`, unless the epoch wrote the line already (R176). -/
def Bough.preImage (x : Bough) (e t op i : Nat) : Bough :=
  let l := x.accLine i
  if l.writer = e + 1 ∨ !l.valid then x
  else x.hold [{ epoch := e, task := t, op := op, dest := .preImage i, acc := l }]

/-- A line with partials written: place, value and tag of each. -/
def AccLine.put (l : AccLine) (ps : List (Nat × Int × Int)) : AccLine :=
  { l with vals := ps.foldl (fun v p => v.set p.1 p.2.1) l.vals, tags := ps.foldl (fun v p => v.set p.1 p.2.2) l.tags }

/-- Write partials of one line: an initialising write of epoch `e` (R163). -/
def Bough.accInit (x : Bough) (e i : Nat) (ps : List (Nat × Int × Int)) (poison : Option Nat) : Bough :=
  { x with acc := smSet x.acc i { (x.accLine i).put ps with valid := true, poison := poison, writer := e + 1 },
           epochs := x.epochs.map fun y => if y.num = e ∧ !y.inits.contains i then { y with inits := i :: y.inits } else y }

/-- Add values with one tag into partials of one line (R127, R134). Answers the clips. -/
def Bough.accAdd (x : Bough) (e i : Nat) (vals : List (Nat × Int)) (tag : Int) (poison : Option Nat) : Bough × Nat :=
  let l := x.accLine i
  if tag = -128 then (x, 0)
  else
    let r := vals.foldl (fun (a : AccLine × Nat) p =>
      let (sum, t, clip) := tagAdd (nth 0 a.1.vals p.1) (nth 0 a.1.tags p.1) p.2 tag
      (a.1.put [(p.1, sum, t)], a.2 + b2n clip)) (l, 0)
    let mark := match l.poison, poison with
      | some a, some b => some (min a b)
      | some a, none => some a
      | none, q => q
    ({ x with acc := smSet x.acc i { r.1 with writer := e + 1, poison := mark } }, r.2)

-- Statistics (R138).

/-- Change the statistics of a tensor in epoch `e`. -/
def Bough.stat (x : Bough) (e tensor : Nat) (f : TStats → TStats) : Bough :=
  { x with epochs := x.epochs.map fun y => if y.num = e then { y with stats := smUpd {} y.stats tensor fun t => { f t with written := true } } else y }

/-- A failure of epoch `e`. -/
def Bough.failEpoch (x : Bough) (e : Nat) (f : EpochFail) : Bough :=
  { x with epochs := x.epochs.map fun y => if y.num = e then { y with fails := y.fails ++ [f] } else y }

/-- One of epoch `e`'s asynchronous operations has finished. -/
def Bough.opDone (x : Bough) (e : Nat) : Bough :=
  { x with epochs := x.epochs.map fun y => if y.num = e then { y with opsLeft := y.opsLeft - 1 } else y }

/-- Position of epoch `e` among the unretired ones. -/
def Bough.epochPos (x : Bough) (e : Nat) : Nat := (x.epochs.findIdx? (·.num == e)).getD x.epochs.length

-- Contributions in the fixed order of R208.

/-- A contribution's place in the order: epoch age, then descriptor slot. -/
def Bough.before (x : Bough) (e1 d1 e2 d2 : Nat) : Bool :=
  decide (x.epochPos e1 < x.epochPos e2) || (e1 == e2 && decide (d1 < d2))

/-- No earlier contribution to the same partials is outstanding. -/
def State.contribReady (s : State) (b : Nat) (c : Contrib) : Bool :=
  let x := s.bough b
  let n := c.ys.length
  !(x.contribs.any fun d => decide (d.outIdx < c.outIdx + n ∧ c.outIdx < d.outIdx + d.ys.length) && x.before d.epoch d.dslot c.epoch c.dslot)
    && !((leavesOf b).any fun k => (s.leaf k).jobs.any fun j =>
      decide (j.outIdx < c.outIdx + n ∧ c.outIdx < j.outIdx + logicals (s.leaf k).width) && x.before j.epoch j.dslot c.epoch c.dslot)

/-- Exact amax of a value acc × 2^tag, held as FP32 (R138): value and clip. -/
def amaxOf (v : Int) (tag : Int) : Rat × Bool :=
  let (bits, clip) := fp32.round (rabs ((v : Rat) * pow2 tag))
  ((fp32.decode bits).val, clip)

/-- Raise a tensor's amax. -/
def TStats.raise (t : TStats) (a : Rat) : TStats := if t.amax < a then { t with amax := a } else t

/-- Accumulate one contribution (stage 6; R163, R206, R208). -/
def Bough.accumulate (x : Bough) (t : Nat) (c : Contrib) : Bough :=
  let n := c.ys.length
  let x1 := (accLines c.outIdx n).foldl (fun (x : Bough) i =>
    let idx := (List.range 16).filter fun p => decide (c.outIdx ≤ 16 * i + p ∧ 16 * i + p < c.outIdx + n)
    let val := fun p => nth 0 c.ys (16 * i + p - c.outIdx)
    let on := fun p => c.cols.contains (16 * i + p - c.outIdx)
    if c.init then x.accInit c.epoch i (idx.map fun p => (p, if on p then val p else 0, c.tag)) c.poison
    else if !(x.accLine i).valid then
      { x.failEpoch c.epoch (.descriptor (16 * i)) with pipeErr := x.pipeErr ||| 8#5 }
    else
      let y := x.preImage c.epoch t 0 i
      let (z, clips) := y.accAdd c.epoch i ((idx.filter on).map fun p => (p, val p)) c.tag c.poison
      z.stat c.epoch c.tensor fun st => { st with clips := st.clips + clips }) x
  if c.last then
    c.cols.foldl (fun (x : Bough) j =>
      let (v, tag) := x1.partial_ (c.outIdx + j)
      let (a, clip) := amaxOf v tag
      x.stat c.epoch c.tensor fun st => { st.raise a with clips := st.clips + b2n clip }) x1
  else x1

/-- Task of epoch `e`. -/
def Bough.taskOf (x : Bough) (e : Nat) : Nat := match x.epochs.find? (·.num == e) with | some y => y.task | none => 0

/-- Apply every contribution whose turn has come. -/
def State.drainContribs (s : State) (b : Nat) : State :=
  (List.range (s.bough b).contribs.length).foldl (fun s _ =>
    match (s.bough b).contribs.find? (s.contribReady b) with
    | none => s
    | some c => s.onBough b fun x => ({ x with contribs := x.contribs.erase c }).accumulate (x.taskOf c.epoch) c) s

-- Reads that may be outstanding (R213, R287).

/-- Task `id` of a bough. -/
def Bough.find (x : Bough) (id : Nat) : Option Task :=
  (x.task.toList ++ x.waiting ++ x.ending ++ x.yielded.map (·.task)).find? (·.id == id)

/-- The reads of a bough that are outstanding: the oldest ones, up to 512 × 64 bytes (Table 8-7). A single read of more is alone. -/
def Bough.outstanding (x : Bough) : List PendRead :=
  (x.reads.foldl (fun (acc : List PendRead × Nat) r =>
    let n := acc.2 + (linesTouched [(r.dst % 64, r.len)]).length
    (if n ≤ 512 ∨ acc.2 = 0 then acc.1 ++ [r] else acc.1, n)) ([], 0)).1

/-- A host read of bough `b` that is outstanding and has its tags issues its requests. -/
def State.askRead (s : State) (b : Nat) (r : PendRead) : State :=
  match r.src with
  | .host a =>
    if r.asked ∨ !s.tagsFree (s.readReqs a r.len).length then s
    else
      let fn := match (s.bough b).find r.task with | some t => t.function | none => 0
      (s.onBough b fun x => { x with reads := x.reads.map fun y => if y == r then { y with asked := true } else y }).hostAsk fn a r.len true
  | _ => s

/-- Reads of one bough that a limit held back are issued as far as the limits now allow (R213, R287). -/
def State.pumpBough (s : State) (b : Nat) : State := (s.bough b).outstanding.foldl (fun (s : State) r => s.askRead b r) s

/-- The same of every bough. -/
def State.pumpReads (s : State) : State := s.allBoughs.foldl State.pumpBough s

-- Squash (R181) and ends of tasks.

/-- Accumulator lines as they were before epoch `y` of a bough: lines it initialised are invalid, then its pre-images hold what it found (R163, R176). -/
def Bough.undoLines (x : Bough) (y : Epoch) (m : SMap AccLine) : SMap AccLine :=
  let m1 := y.inits.foldl (fun (m : SMap AccLine) l => smUpd {} m l fun a => { a with valid := false }) m
  (x.held.filter fun h => h.epoch == y.num && !h.retired).foldl (fun (m : SMap AccLine) h => match h.dest with | .preImage l => smSet m l h.acc | _ => m) m1

/-- Undo epochs from position `i` on: cancel their phases, held lines and reads, restore accumulator lines youngest epoch first, end their waits, give back tokens and credits (R181, R209, R263). -/
def State.undoFrom (s : State) (b i : Nat) : State :=
  let x := s.bough b
  let gone := x.epochs.drop i
  let mine := fun (e : Nat) => gone.any fun y => y.num == e
  let acc1 := gone.reverse.foldl (fun m y => x.undoLines y m) x.acc
  let s1 := s.onBough b fun x =>
    { x with epochs := x.epochs.take i, held := x.held.filter fun h => h.retired || !mine h.epoch, reads := x.reads.filter fun r => !mine r.epoch,
             contribs := x.contribs.filter fun c => !mine c.epoch, acc := acc1,
             credits := (gone.flatMap (·.sends)).foldl (fun m r => smUpd 0 m r (· - 1)) x.credits,
             received := (gone.flatMap (·.consumed)).foldl (fun m r => smUpd 0 m (16 * r.1 + r.2) (· - 1)) x.received,
             replay := gone.foldl (fun r y => if r.any fun q => q.1 == y.num then r else r ++ [(y.num, y.checkFails, y.satSquashes, y.ckpt.slotMap)]) x.replay,
             wait := .none, ptrOk := false }
  let s2 := (leavesOf b).foldl (fun (s : State) k => if (s.leaf k).jobs.isEmpty then s else s.onLeaf k fun l => { l with jobs := l.jobs.filter fun j => !mine j.epoch }) s1
  -- Its own waits end before a token is given back, which another waiter may take.
  ((gone.filterMap (·.token)).foldl (fun (s : State) n => (s.onKnot n Knot.giveBack).serveKnot n) (s2.unwaitBough b)).pumpReads

/-- A task without what its undone epochs' graft calls recorded. -/
def Task.forget (t : Task) (gone : List Epoch) : Task :=
  let keep := fun (e : Nat) => !(gone.any fun y => y.num == e)
  { t with deltas := t.deltas.filter (fun p => keep p.2.1), stepParts := t.stepParts.filter (fun p => keep p.2.1),
           graftClips := t.graftClips.filter (fun p => keep p.2.1), graftNonfinite := t.graftNonfinite.filter (fun p => keep p.2.1),
           graftFlushed := t.graftFlushed.filter (fun p => keep p.2.1) }

/-- Put the tasks of undone epochs back for issue, in their order: the task of the oldest one at its checkpoint, every task whose first epoch is undone at its start or resumption (R181, R183). -/
def Bough.requeue (x : Bough) (gone : List Epoch) : Bough :=
  match gone with
  | [] => x
  | e :: _ =>
    let first := fun (t : Task) => gone.find? fun y => y.task == t.id
    let rest := x.ending.filter fun t => (first t).isNone
    let again := fun (t : Task) => { t.forget gone with issueDone := false, fault := if t.lost then t.fault else none }
    let redo := fun (t : Task) => (first t).map fun y => ({ task := again t, ckpt := y.ckpt, redo := true } : Yielded)
    match (x.ending ++ x.task.toList).filter fun t => (first t).isSome with
    | [] => x
    | t :: later =>
      let y : Bough := { x with ending := rest, nextEpoch := BitVec.ofNat 16 e.num }
      -- A boundary that its start crosses is crossed again.
      if e.start then { y with task := none, yielded := (t :: later).filterMap redo ++ x.yielded, layer := e.layer - 1 }
      else { y with task := some (again t), program := t.trec.program, ck := e.ckpt, yielded := later.filterMap redo ++ x.yielded, layer := e.layer }

/-- Squash epochs from position `i` on and set the twig to issue them again (R181); a drain reaches its boundary again (R186). -/
def State.squashFrom (s : State) (b i : Nat) : State :=
  let gone := (s.bough b).epochs.drop i
  (s.undoFrom b i).onBough b fun x => { x.requeue gone with draining := false }

/-- Change task `id` of a bough wherever it stands. -/
def Bough.onTask (x : Bough) (id : Nat) (f : Task → Task) : Bough :=
  let g := fun (t : Task) => if t.id = id then f t else t
  { x with task := x.task.map g, waiting := x.waiting.map g, ending := x.ending.map g, yielded := x.yielded.map fun y => { y with task := g y.task } }

/-- The task being issued ends with a fault: it issues nothing further, and its older epochs retire and are released (R204, R269). -/
def State.faultTask (s : State) (b : Nat) (c : Cause) (detail : Word) : State :=
  s.onBough b fun x =>
    match x.task with
    | some t => { x with task := none, wait := .none, ptrOk := false,
                         ending := x.ending ++ [{ t with fault := some (t.fault.getD { cause := c, detail := detail, opIndex := x.ck.pc }), issueDone := true }] }
    | none => x

/-- Task `id` of bough `b` faults, wherever it stands: it issues nothing further (R347). -/
def State.faultTaskId (s : State) (b id : Nat) (c : Cause) (detail : Word) : State :=
  let x := s.bough b
  match x.task with
  | some t => if t.id = id then s.faultTask b c detail
      else s.onBough b fun x => x.onTask id fun t => { t with fault := some (t.fault.getD { cause := c, detail := detail }) }
  | none => s.onBough b fun x => x.onTask id fun t => { t with fault := some (t.fault.getD { cause := c, detail := detail }) }

/-- Enabled boughs with a fence of their own: a recovery mode's or an invalid factory record's fence of every bough has no cause and is not recorded (R4, R328, R397). -/
def State.fencedBoughs (s : State) : List Nat := s.allBoughs.filter fun b => (s.bough b).fenced && decide ((s.bough b).fenceCause ≠ 0)

/-- Queue the fence record with every fence of boughs and stands in force (R329). -/
def State.fenceRecord (s : State) : State :=
  let f : FenceRec :=
    { boughs := BitVec.ofNat 16 (nsum (s.fencedBoughs.map (2 ^ ·))),
      stands := BitVec.ofNat 4 (nsum (((List.range 4).filter fun i => (s.stand i).fenced).map (2 ^ ·))),
      hbm := BitVec.ofNat 4 (nsum (((List.range 4).filter fun i => (s.stand i).hbmFenced).map (2 ^ ·))),
      boughCause := s.fencedBoughs.map fun b => (b, (s.bough b).fenceCause),
      standCause := ((List.range 4).filter fun i => (s.stand i).fenced).map fun i => (i, (s.stand i).fenceCause) }
  s.storeRec fenceKey (.fence f) .none

/-- Fence stand `i` with a cause. -/
def State.fenceStand (s : State) (i cause : Nat) (hbm : Bool) : State :=
  if (s.stand i).fenced then s
  else ((s.onStand i fun d => { d with fenced := true, hbmFenced := d.hbmFenced || hbm, fenceCause := cause, rstState := .fenced }).fenceRecord).record .fence (uStand i)
    { source := 2, detail := fenceDetail 1 cause, detail2 := 2 ^ i } |>.abortEntry 10 (unitCode 1 i 0 0)

/-- Fence bough `b` (R328): epochs undone, tasks fault with UNIT_FENCED, the fence record is written, and a stand without boughs is fenced with it. -/
def State.fenceBough (s : State) (b cause : Nat) : State :=
  if (s.bough b).fenced then s
  else
    let open_ := (s.bough b).epochs.map (·.task)
    let s1 := s.undoFrom b 0
    let s2 := s1.onBough b fun x =>
      let hit := fun (t : Task) => { t with fault := some (t.fault.getD { cause := .unitFenced, opIndex := if t.started then x.ck.pc else 0 }), issueDone := true }
      { x with fenced := true, fenceCause := cause, draining := false, drained := false, task := none, waiting := [], yielded := [], wait := .none,
               ending := (x.ending.map fun t => if open_.contains t.id then hit t else t) ++ (x.task.toList ++ x.waiting ++ x.yielded.map (·.task)).map hit,
               replay := [] }
    let s3 := (s2.fenceRecord).record .fence (uBough b) { source := 3, detail := fenceDetail 2 cause, detail2 := 2 ^ (b % 4) }
    let st := standOf b
    let s4 := s3.abortEntry 10 (unitCode 2 st (b % 4) 0)
    if (s4.boughsOf st).all fun b => (s4.bough b).fenced then s4.fenceStand st cause false else s4

end Sys2Proof.Machine
end

