-- ==== Sys2Proof/Machine/CheckOps.lean ====
section
/-! DEFINITION. The arithmetic check and the correction of a finished vector (R36, R321 to R323). -/

namespace Sys2Proof.Machine

/-- Slice gain G (Table 14-3). -/
def sliceGain (w : BitVec 2) : Rat :=
  let ks := (List.range 4).filter fun k => copies w k != 0
  rsum (ks.map fun k => nr (16 ^ k) / nr (copies w k)) + nr (nsum (ks.map fun k => 4 ^ k)) * nr (nsum (ks.map fun k => 4 ^ k))

/-- σ_D² of a vector and check group, in FP32 (R322). -/
def sigmaD2 (w : BitVec 2) (sigmaN : Rat) (phases : Rat) (sumX2 : Nat) : Rat :=
  r32 (1056 * (sliceGain w * (sigmaN * sigmaN + 1/12) * phases) + 91 * nr sumX2)

/-- τ, rounded down (R321, R322). -/
def tauOf (sd2 : Rat) : Nat := (r32 (6 * sqrt32 sd2)).floor.toNat

/-- Full scale FS of an activation and weight width (R321's units). -/
def fullScale (aBits : Nat) (w : BitVec 2) : Nat := 1024 * 2 ^ (aBits - 1) * 2 ^ (weightBits w - 1)

/-- Codes of the 36 columns of the first column group of a check group (R338). -/
def groupCodes (w : BitVec 2) (codes : List Byte) (g : Nat) : List Byte :=
  let q := g * perWeight w
  (codes.drop (32 * q)).take 32 ++ (codes.drop (1024 + 2 * q)).take 2 ++ (codes.drop (1088 + q)).take 1 ++ (codes.drop (1120 + q)).take 1

/-- Change epoch `e` of a bough. -/
def Bough.onEpoch (x : Bough) (e : Nat) (f : Epoch → Epoch) : Bough := { x with epochs := x.epochs.map fun y => if y.num = e then f y else y }

/-- One vector on leaf `k` is complete: corrected values from the combined P̂, checks, and the contribution to accumulator memory (R36, R321, R163). `sig` is Σ over phases in σ_y² (R322). A vector with a phase marked failed (`bad`) is accumulated like any other; its check counts as failed already (R52, R162). -/
def State.finishVector (s : State) (bad : Bool) (b k : Nat) (j : PhaseJob) (p : Nat → Rat) (sig : Rat) (codes : List (List Byte)) (digits : List Byte) : State :=
  let l := s.leaf k
  let w := l.width
  let n := logicals w
  match (s.bough b).epochs.find? (·.num == j.epoch) with
  | none => s
  | some e =>
    let bits := if j.twoPhase then 8 else if j.aO = 8 then 4 else 2
    let y := fun (c : Nat) =>
      let wj : Int := if c < n then smGet 0 l.wSum c else smGet 0 l.wChk (c - n)
      rhe (p c - ((ni (weightOffset w) * ni j.sumX + ni j.aO * wj : Int) : Rat))
    let ys := (List.range n).map y
    let sd2 := sigmaD2 w (l.sigmaN e.temp) sig j.sumX2
    let tau := tauOf sd2
    let groups := (List.range (checkGroups w)).filter fun g => !l.unavailable g
    let ds := groups.map fun g => (g, isum ((ys.drop (32 * g)).take 32) - 32 * y (n + g))
    let fails := (ds.filter fun p => decide (tau < p.2.natAbs)).map fun p => EpochFail.check k p.1 p.2 tau (codes.flatMap fun c => groupCodes w c p.1) digits
    let s1 := s.onBough b fun x =>
      { x.onEpoch j.epoch (fun e => if bad then e else { e with fails := e.fails ++ fails, evals := e.evals ++ ds.map fun p => (k, p.1, p.2, sd2, fullScale bits w) }) with
          contribs := x.contribs ++ [{ epoch := j.epoch, dslot := j.dslot, outIdx := j.outIdx, init := j.init, last := j.last, tag := j.tag, cols := j.cols,
                                       tensor := j.tensor, ys := ys }] }
    s1.drainContribs b

end Sys2Proof.Machine
end

