-- ==== Sys2Proof/Machine/TwigOps.lean ====
section
/-! DEFINITION. Issue of twig operations: task start, run-time values, iterations of descriptors, shape checks and waits (chapters 07 and 08). -/

namespace Sys2Proof.Machine

/-- The number of an address within its space. -/
def Addr.num (a : Addr) : Nat :=
  match a with
  | .sap o | .hbm o | .host o | .acc o => o
  | _ => 0

/-- Level `i` of a descriptor, and descriptor `i` of an image. -/
def Desc.level (d : Desc) (i : Nat) : Level := nth {} d.levels i
def Canopy.desc (c : Canopy) (i : Nat) : Desc := nth {} c.descs i

/-- Why an operation does not issue now. -/
inductive Stall where
  | dep | ptr | lines | credit
  /-- ACTIVE leaves without a calibration slot (R69). -/
  | cal (leaves : List Nat)
  /-- An uncorrectable word of HBM (R319). -/
  | ue (a : Nat)
  /-- The run-ahead limits of R171. -/
  | window
  /-- The task faults (R204). -/
  | fault (c : Cause) (detail : Word)
  deriving DecidableEq, Repr

/-- Outcome of an attempt to issue. -/
abbrev Issue (α : Type) : Type := Except Stall α

/-- A SHAPE fault (R203). -/
def shape {α : Type} : Issue α := .error (.fault .shape 0)

/-- Fields of an operation word (R167): opcode, flags, operands A and B. -/
structure OpWord where
  opcode : Nat
  flags : Nat
  a : Nat
  b : Nat
  deriving DecidableEq, Repr

def opWord (w : DWord) : OpWord := { opcode := fld w 63 58, flags := fld w 57 48, a := fld w 47 32, b := fld w 31 0 }

/-- The canopy in force on a bough's stand. -/
def State.canopyOf (s : State) (b : Nat) : Option Canopy := (s.stand (standOf b)).canopy

/-- The device is awake and its start-up has come as far as the leaves. -/
def State.awake (s : State) : Bool := decide (s.bud.power = .full ∨ s.bud.power = .entering) && !s.trunk.warmBusy

/-- The twig of bough `b` may issue; it stops during a drain (R186) and waits while its image lies in a stand under reset (R347). -/
def State.twigLive (s : State) (b : Nat) : Bool :=
  let x := s.bough b
  let img : Bool := match s.canopyOf b with | some _ => s.beforeExit (hbmStand (s.stand (standOf b)).cnpAddr.toNat) | none => false
  s.usable b && s.awake && !s.inReset (standOf b) && !img && !x.drained && !x.draining && !x.logicRunning && !x.parked && !x.clockStopped

/-- max_tiles and max_layers as they act (Table 7-8). -/
def Bough.maxTiles (x : Bough) : Nat := clampN 1 8 (fld x.raCtrl 3 0)
def Bough.maxLayers (x : Bough) : Nat := min 2 (fld x.raCtrl 5 4)
def Bough.replayMax (x : Bough) : Nat := max 1 (fld x.raCtrl 9 8)
def Epoch.satReplayMax (e : Epoch) : Nat := clampN 1 4 (fld e.qnt 2 0)

/-- Layer boundaries crossed since the oldest unretired epoch. -/
def Bough.layersAhead (x : Bough) : Nat := match x.epochs.head? with | some e => x.layer - e.layer | none => 0

/-- R171: another epoch may be issued, whose opening operation fills `n` lines. -/
def Bough.canOpen (x : Bough) (n : Nat) : Bool :=
  decide (x.epochs.length < x.maxTiles) && decide (x.layersAhead ≤ x.maxLayers) && decide (n ≤ x.freeLines)

/-- Open an epoch of task `t` at the present position (R169). A replayed epoch keeps its counts and the leaves of its first issue (R182, R183). -/
def Bough.openEpoch (x : Bough) (t : Nat) (gen : Nat) (tile : Bool) : Bough :=
  let n := x.nextEpoch.toNat
  let old := x.replay.find? fun r => r.1 == n
  let e : Epoch :=
    { num := n, task := t, tile := tile, ckpt := { x.ck with mapGen := gen, slotMap := match old with | some r => r.2.2.2 | none => [] },
      layer := x.layer, replayMax := x.replayMax, qnt := x.qntCtrl, checkFails := match old with | some r => r.2.1 | none => 0, satSquashes := match old with | some r => r.2.2.1 | none => 0 }
  { x with epochs := x.epochs ++ [e], nextEpoch := x.nextEpoch + 1, issuedEpoch := x.nextEpoch }

/-- The task window: sapwood offset of the record's copy (R255). -/
def taskWindow : Nat := 0x5FFF80

/-- Nothing unretired reads the task window and no line is held toward it: a new task's record may be copied there (R175, R255). -/
def Bough.windowFree (x : Bough) : Bool :=
  let ls := linesTouched [(taskWindow, 128)]
  !(x.held.any fun h => ls.any fun l => decide (h.dest = .sap l))
    && !(x.epochs.any fun y => y.readBytes.any fun r => decide (r.2 ≠ 0) && (linesTouched [r]).any ls.contains) && !x.sapPending taskWindow 128

/-- The task that begins to issue next, and the bough without it: one whose first epoch was undone, else a waiting SLOT task before a yielded one of another class, else the yielded one, else the first that waits (R181, R246, R259). -/
def Bough.nextTask (x : Bough) : Option (Yielded × (Bough → Bough)) :=
  let fresh := fun (t : Task) => (({ task := t, ckpt := {} } : Yielded), fun (y : Bough) => { y with waiting := y.waiting.filter (·.id != t.id) })
  match x.yielded with
  | [] => x.waiting.head?.map fresh
  | z :: _ =>
    match (if z.redo || z.task.cls == 0 then none else x.waiting.find? (·.cls == 0)) with
    | some t => some (fresh t)
    | none => some (z, fun y => { y with yielded := y.yielded.drop 1 })

/-- Start the next task, or resume one, when nothing is being issued (R169, R170, R246): the boundary counts in R171 before the epoch opens, swaps apply, and the task window holds the task's record (R255). -/
def State.beginTask (s : State) (b : Nat) : State :=
  let x := s.bough b
  if x.task.isSome ∨ x.draining ∨ !({ x with layer := x.layer + 1 } : Bough).canOpen 0 ∨ !x.windowFree then s
  else match x.nextTask with
    | none => s
    | some (z, f) => (s.applySwaps b).onBough b fun x =>
      let y : Bough := { f x with task := some { z.task with started := true }, program := z.task.trec.program, ck := z.ckpt, layer := x.layer + 1, wait := .none, ptrOk := false }
      ((y.sapPut taskWindow z.task.trec.bytes none).openEpoch z.task.id s.trunk.map.gen.toNat false).onLast fun e => { e with start := true }

-- Run-time values (R200, R201).

/-- Sapwood bytes that a value is read from. -/
def Val.reads : Val → List (Nat × Nat)
  | .sap o => [(o, 4)]
  | _ => []

/-- Note sapwood reads of the present epoch (R175, R320). -/
def Bough.noteReads (x : Bough) (rs : List (Nat × Nat)) : Bough := rs.foldl (fun x r => x.noteRead r.1 r.2) x

/-- Read a value of Table 8-2 as bough `b` does; `lim` checks its bound. -/
def State.readVal (s : State) (b : Nat) (v : Val) : Issue Nat :=
  let x := s.bough b
  let chk := fun n => if 16777215 < n then shape else .ok n
  match v with
  | .imm n => .ok n
  | .sap o => if x.sapPending o 4 then .error .dep else chk (leNat (x.sapBytes o 4))
  | .hbm a => if !x.ptrOk then .error .ptr else match s.firstUe a 4 with | some u => .error (.ue u) | none => chk (s.hbmNat a 4)
  | .bad => shape

/-- Bytes at a list address, in sapwood or HBM (R207). -/
def State.readList (s : State) (b : Nat) (a : Addr) (off n : Nat) : Issue (List Byte) :=
  let x := s.bough b
  match a.add off with
  | .sap o => if 6 * 2 ^ 20 < o + n then shape else if x.sapPending o n then .error .dep else .ok (x.sapBytes o n)
  | .hbm o => if hbmSize < o + n then shape else if !x.ptrOk then .error .ptr else match s.firstUe o n with | some u => .error (.ue u) | none => .ok (s.hbmBytes o n)
  | _ => shape

/-- The list level of a descriptor with a pointer list (R207). -/
def Desc.listLevel (d : Desc) : Option Nat :=
  if d.ptrList = .none then none
  else (List.range d.levels.length).find? fun i => decide ((d.level i).dim = .m ∧ (d.level i).tag ≠ .eval ∧ (d.level i).bound = .imm 0)

/-- The pointer list of a descriptor: the task's own where its record names one (R255); it starts 64-byte aligned (R207). -/
def State.listOf (s : State) (b : Nat) (d : Desc) : Addr :=
  let a : Addr := match (s.bough b).task with
    | some (t : Task) => if t.trec.listAddr = Addr.none then d.ptrList else t.trec.listAddr
    | none => d.ptrList
  match a with
  | .sap o => if o % 64 = 0 then a else .bad
  | .hbm o => if o % 64 = 0 then a else .bad
  | _ => a

/-- Bound of level `i`: the list's count at the list level, else the level's value. -/
def State.readBound (s : State) (b : Nat) (d : Desc) (i : Nat) : Issue Nat :=
  if d.listLevel = some i then do
    let h ← s.readList b (s.listOf b d) 0 4
    if 16777215 < leNat h then shape else return leNat h
  else s.readVal b (d.level i).bound

/-- Sapwood that the bound of level `i` is read from. -/
def State.boundReads (s : State) (b : Nat) (d : Desc) (i : Nat) : List (Nat × Nat) :=
  if d.listLevel = some i then (match s.listOf b d with | .sap o => [(o, 4)] | _ => []) else (d.level i).bound.reads

/-- Latch the bounds of every governed depth that has none (R200). -/
def State.latchBounds (s : State) (b : Nat) (c : Canopy) (p : Program) : Issue State :=
  (List.range 6).foldlM (fun s i =>
    if p.governMask.testBit i ∧ (smFind (s.bough b).ck.bounds i).isNone then do
      let n ← s.readBound b (c.desc (nth 0 p.govern i)) i
      return s.onBough b fun x => { x.noteReads (s.boundReads b (c.desc (nth 0 p.govern i)) i) with ck := { x.ck with bounds := smSet x.ck.bounds i n } }
    else return s) s

/-- Skip levels whose body is at hand with counter 0 and bound 0 (R192). -/
def Bough.skipEmpty (x : Bough) (c : Canopy) (p : Program) : Nat → Bough
  | 0 => x
  | n + 1 =>
    match (List.range 6).find? fun i =>
        let l := (c.desc (nth 0 p.govern i)).level i
        p.governMask.testBit i && l.body == x.ck.pc && nth 0 x.ck.counters i == 0 && smFind x.ck.bounds i == some 0 with
    | some i => { x with ck := { x.ck with pc := ((c.desc (nth 0 p.govern i)).level i).stop + 1 } }.skipEmpty c p n
    | none => x

/-- Extents of a descriptor for the present task, latched at its first operation (R200). -/
def State.latchExtents (s : State) (b dIdx : Nat) (d : Desc) : Issue (State × Nat × Nat) :=
  match smFind (s.bough b).ck.extents dIdx with
  | some e => .ok (s, e)
  | none => do
    let k ← s.readVal b d.extentK
    let m ← s.readVal b d.extentM
    return (s.onBough b fun x => { x.noteReads (d.extentK.reads ++ d.extentM.reads) with ck := { x.ck with extents := smSet x.ck.extents dIdx (k, m) } }, k, m)

-- Iterations (R191, R196, R199).

/-- Every combination of private counters, innermost fastest. -/
def counterSpace : List Nat → List (List Nat)
  | [] => [[]]
  | n :: r => (List.range n).flatMap fun i => (counterSpace r).map (i :: ·)

/-- One iteration: counters, addresses, weight-row offset, positions, and whether the edge tests let it move data. -/
structure Iter where
  cs : List Nat
  inA : Addr
  outA : Addr
  auxA : Addr
  w : Int
  posM : Int
  posK : Int
  /-- Extents in force; none = no edge. -/
  extM : Option Nat
  extK : Option Nat
  deriving DecidableEq, Repr

/-- The iteration lies inside the extents (R199). -/
def Iter.inside (i : Iter) : Bool :=
  (match i.extM with | some m => decide (i.posM < (m : Int)) | none => true) && (match i.extK with | some k => decide (i.posK < (k : Int)) | none => true)

/-- The space has rings (R196). -/
def Addr.ringed : Addr → Bool
  | .sap _ => true
  | .acc _ => true
  | _ => false

/-- Offset of an address under R196: levels from `from_` on, with a stride of each level. -/
def Desc.offset (d : Desc) (base : Addr) (cs : List Nat) (from_ : Nat) (stride : Level → Int) : Int :=
  isum ((List.range d.levels.length).map fun i =>
    let l := d.level i
    let k := nth 0 cs i + l.skew
    if i < from_ then 0 else if 2 ≤ l.ring ∧ base.ringed then ((k % l.ring : Nat) : Int) * stride l else (k : Int) * stride l)

/-- Position along a dimension. -/
def Desc.pos (d : Desc) (cs : List Nat) (dim : Dim) : Int :=
  isum ((List.range d.levels.length).map fun i =>
    let l := d.level i
    if l.dim = dim then ((nth 0 cs i + l.skew) * l.step : Nat) else 0)

/-- Form one iteration (R196, R207). -/
def State.formIter (s : State) (b : Nat) (d : Desc) (cs : List Nat) (ext : Nat × Nat) : Issue Iter := do
  let hdrK := if d.extentK = .imm 0 then none else some ext.1
  let hdrM := if d.extentM = .imm 0 then none else some ext.2
  let w := d.offset .none cs 0 (·.wStride)
  let aux := if d.auxBase = .none then .none else d.auxBase.add (d.offset d.auxBase cs 0 (·.wStride))
  let mk := fun (inB outB : Addr) (from_ : Nat) (eM eK : Option Nat) =>
    ({ cs := cs, inA := if inB = .none then .none else inB.add (d.offset inB cs from_ (·.inStride)),
       outA := if outB = .none then .none else outB.add (d.offset outB cs from_ (·.outStride)), auxA := aux, w := w,
       posM := d.pos cs .m, posK := d.pos cs .k, extM := eM, extK := eK } : Iter)
  match d.listLevel with
  | none => return mk d.inBase d.outBase 0 hdrM hdrK
  | some lv =>
    let bs ← s.readList b (s.listOf b d) (32 + 32 * nth 0 cs lv) 32
    let m := le bs 16 4
    let k := le bs 20 4
    return mk (decodeAddr (le bs 0 8)) (decodeAddr (le bs 8 8)) (lv + 1) (if m = 0 then hdrM else some m) (if k = 0 then hdrK else some k)

/-- The iterations of an operation that takes the first `shared` levels from the shared counters; also the private bounds. -/
def State.iterate (s : State) (b dIdx : Nat) (d : Desc) (shared : Nat) : Issue (State × List Nat × List Iter) := do
  let (s1, ext) ← s.latchExtents b dIdx d
  let priv ← (List.range (d.levels.length - shared)).mapM fun i => s1.readBound b d (shared + i)
  let sh := (s1.bough b).ck.counters.take shared
  let its ← (counterSpace priv).mapM fun p => s1.formIter b d (sh ++ p) ext
  return (s1, priv, its)

/-- Sapwood that an operation's private bounds and list entries are read from: an input of its epoch (R175, R200, R207). -/
def State.valueReads (s : State) (b : Nat) (d : Desc) (shared : Nat) (its : List Iter) : List (Nat × Nat) :=
  let bounds := (List.range (d.levels.length - shared)).flatMap fun i => s.boundReads b d (shared + i)
  match d.listLevel, s.listOf b d with
  | some lv, .sap o => bounds ++ (its.map fun i => (o + 32 + 32 * nth 0 i.cs lv, 32)).eraseDups
  | _, _ => bounds

/-- Bytes of a run lie inside their space (Table 8-5, Address range). -/
def Addr.room (a : Addr) (n : Nat) : Bool :=
  match a with
  | .sap o => decide (o + n ≤ 6 * 2 ^ 20)
  | .hbm o => decide (o + n ≤ hbmSize)
  | .host o => decide (o + n ≤ 2 ^ 60)
  | .acc o => decide (o + n ≤ 131072)
  | _ => false

/-- Bytes of one element, 1 where several share a byte. -/
def Fmt.elemBytes (f : Fmt) : Nat := max 1 (f.bits / 8)

/-- Quantisation entry of a tensor. -/
def Canopy.quant (c : Canopy) (t : Nat) : Quant := nth {} c.quants t

/-- A tensor is exponent-carrying (R137). -/
def Quant.carries (q : Quant) : Bool := q.expCarry || decide (q.fmt = .bsi8)

/-- Companion layout of a descriptor's operand (R222). -/
def Canopy.companion (c : Canopy) (desc operand : Nat) : Option Companion := c.companions.find? fun k => k.desc == desc && k.operand == operand

/-- Scales a task latched for a tensor (R151). -/
def Task.scale (t : Task) (c : Canopy) (i : Nat) : Scale :=
  match smFind t.scales i with
  | some v => v
  | none => { s := (c.quant i).sInit }

-- Waits and faults at issue.

/-- Settle an attempt to issue on bough `b`: the new state, or the wait with its counter (Tables 7-9 and 7-10), or the task's fault. -/
def State.settleIssue (s : State) (b : Nat) (r : Issue State) : State :=
  match r with
  | .ok s1 => s1.onBough b fun x => { x with wait := match x.wait with | .knot n => .knot n | .xrecv r t l => .xrecv r t l | _ => .none, ptrOk := false }
  | .error .dep => s.onBough b fun x =>
      { x with wait := .dep, depStalls := if x.wait = .dep then x.depStalls else satInc x.depStalls }
  | .error .lines => s.onBough b fun x =>
      { x with wait := .lines, holdStalls := if x.wait = .lines then x.holdStalls else satInc x.holdStalls }
  | .error .ptr => s.onBough b fun x => { x with wait := .ptr }
  | .error .credit => s.onBough b fun x => { x with wait := .credit }
  | .error .window => s.onBough b fun x => { x with wait := .none }
  | .error (.ue a) => s.onBough b fun x => { x with wait := .ue a, ptrOk := false }
  -- The trunk measures the leaves at once, whatever auto_recal_en and the spacing (R69).
  | .error (.cal ks) => ks.foldl (fun (s : State) k => s.startMeas k 7) (s.onBough b fun x => { x with wait := .cal })
  | .error (.fault c d) => s.faultTask b c d

/-- The operation that bough `b` would issue now, after the task start and the skips of R192: state, task, canopy, program and word. -/
def State.present (s : State) (b : Nat) : Issue (Option (State × Task × Canopy × OpWord)) := do
  if !s.twigLive b then return none
  let s0 := s.beginTask b
  let x := s0.bough b
  match x.task, s0.canopyOf b with
  | some t, some c =>
    if (match x.wait with | .knot _ => true | .xrecv .. => true | _ => false) then return none
    else
      let p := nth ({} : Program) c.programs t.trec.program
      let s1 ← s0.latchBounds b c p
      let s2 := s1.onBough b fun x => x.skipEmpty c p 7
      match p.ops[(s2.bough b).ck.pc]? with
      | some w => return some (s2, t, c, opWord w)
      | none => return none
  | _, _ => return none

/-- Go on to the next operation. -/
def State.advance (s : State) (b : Nat) : State := s.onBough b fun x => { x with ck := { x.ck with pc := x.ck.pc + 1 } }

/-- Bring the task up to issue even where its operation stalls (its start stands). -/
def State.prepared (s : State) (b : Nat) : State := if s.twigLive b then s.beginTask b else s

/-- Issue the present operation of bough `b` if `want` holds of its word; else nothing happens (log entry 7). -/
def State.issueIf (s : State) (b : Nat) (want : OpWord → Bool) (go : State → Task → Canopy → OpWord → Issue State) : State :=
  match s.present b with
  | .error e => (s.prepared b).settleIssue b (.error e)
  | .ok none => s
  | .ok (some (s1, t, c, w)) => if want w then s1.settleIssue b (go s1 t c w) else s

/-- Charge lines to the present epoch (R177): SHAPE past 2,048, a wait when they are not free. -/
def State.charge (s : State) (b n : Nat) : Issue State :=
  let x := s.bough b
  let fp := match x.epochs.getLast? with | some e => e.footprint | none => 0
  if 2048 < fp + n then shape
  else if x.freeLines < n then .error .lines
  else .ok (s.onBough b fun x => x.onLast fun e => { e with footprint := e.footprint + n })

/-- Commit an operation that fills `n` lines if they fit (R177). -/
def State.commitCount (s : State) (b n : Nat) (run : State) : Issue State := do
  let s1 ← s.charge b n
  let fp := (s1.bough b).epochs.getLast?.elim 0 (·.footprint)
  return run.onBough b fun x => x.onLast fun e => { e with footprint := fp }

/-- Execute an operation at issue: run it, count the lines it filled and commit it if they fit (R177). -/
def State.commitLines (s : State) (b : Nat) (run : State) : Issue State := s.commitCount b ((run.bough b).held.length - (s.bough b).held.length) run

/-- Hold the runs of the present operation, joined to lines it has held since position `mark`. -/
def Bough.holdJoin (x : Bough) (mark t : Nat) (mk : Nat → Dest) (runs : List (Nat × List Byte)) (poison : Option Nat) : Bough :=
  let (e, op) := x.here
  (runLines runs).foldl (fun x p =>
    match (x.held.drop mark).findIdx? fun h => decide (h.dest = mk p.1) with
    | some i => { x with held := modAt x.held (mark + i) fun h =>
        { h with bytes := h.bytes ++ p.2, poison := match h.poison with | some a => some (match poison with | some q => min a q | none => a) | none => poison } }
    | none => x.hold [{ epoch := e, task := t, op := op, dest := mk p.1, bytes := p.2, poison := poison }]) x

end Sys2Proof.Machine
end

