-- ==== Sys2Proof/Machine/TwigRun.lean ====
section
/-! DEFINITION. The twig's own operations: transfers, drives, exchanges, knots, loops and boundaries (chapters 07 and 08). -/

namespace Sys2Proof.Machine

/-- Exchange operand: descriptor in [31:16], level in [2:0], as a local operand (log entry 8). -/
def exchDesc (b : Nat) : Nat × Nat := (b / 65536 % 65536, b % 8)

/-- Two byte ranges meet. -/
def rangesMeet (a b : Nat × Nat) : Bool := decide (a.1 < b.1 + b.2 ∧ b.1 < a.1 + a.2)

/-- A held line of the bough writes a byte of an HBM or host range, or belongs to a STORE that does (R214); answers whether one is of the present epoch (R175). -/
def Bough.heldRange (x : Bough) (mk : Nat → Dest) (off n : Nat) : Option Bool :=
  let e := x.here.1
  let store := fun (h : HeldLine) => h.span.any (rangesMeet (off, n)) && (match h.dest, mk 0 with | .hbm _, .hbm _ | .host _, .host _ => true | _, _ => false)
  let hit := x.held.filter fun h => store h || (linesTouched [(off, n)]).any fun l => decide (h.dest = mk l) && h.bytes.any fun p => decide (off ≤ 64 * l + p.1 ∧ 64 * l + p.1 < off + n)
  if hit.isEmpty then none else some (hit.any fun h => h.epoch == e && !h.retired)

/-- A direct write of sapwood may be made (R175): none = yes. -/
def Bough.directStall (x : Bough) (off n : Nat) : Option Stall :=
  let ls := linesTouched [(off, n)]
  let e := x.here.1
  let held := x.held.filter fun h => ls.any fun l => decide (h.dest = .sap l)
  if held.any fun h => h.epoch == e && !h.retired then some (.fault .shape 0)
  else if !held.isEmpty then some .dep
  else if x.epochs.dropLast.any fun y => y.readBytes.any fun r => decide (r.2 ≠ 0) && (linesTouched [r]).any ls.contains then some .dep
  else if x.sapPending off n then some .dep
  else none

/-- A task that needs host memory faults where its function issues no requests (R287, R288). -/
def State.hostRequest (s : State) (t : Task) (a : Nat) : Issue Unit :=
  if (s.func t.function).busMaster then .ok () else .error (.fault .descriptor (wordOf a))

/-- Elements of the innermost run of a descriptor (Table 8-1). -/
def Desc.lastRun (d : Desc) : Nat := (d.level (d.levels.length - 1)).run

/-- The read that one iteration of a FETCH begins, or its fault (R287, Table 8-5). -/
def State.fetchRead (s : State) (b : Nat) (t : Task) (n : Nat) (i : Iter) : Issue PendRead :=
  let x := s.bough b
  match i.outA with
  | .sap o =>
    if !i.inA.room n || !i.outA.room n then shape
    else match i.inA with
      | .hbm a => .ok { epoch := x.here.1, task := t.id, op := x.ck.pc, src := .hbm a, dst := o, len := n, poison := bit (s.stand (standOf b)).hbmCtrl 8 }
      | .host a => (s.hostRequest t a).map fun _ => { epoch := x.here.1, task := t.id, op := x.ck.pc, src := .host a, dst := o, len := n }
      | _ => shape
  | _ => shape

/-- What keeps a read of a FETCH from issuing: a direct write of sapwood that may not be made (R175), or a held write to its source (R214). -/
def Bough.fetchStalls (x : Bough) (r : PendRead) : List Stall :=
  let held := fun (o : Option Bool) => match o with | some own => [if own then Stall.fault .shape 0 else .dep] | none => []
  (x.directStall r.dst r.len).toList ++ (match r.src with | .hbm a => held (x.heldRange .hbm a r.len) | .host a => held (x.heldRange .host a r.len) | _ => [])

/-- FETCH (Table 7-3): one read per iteration that moves data; the data arrives with its completion. A read beyond a limit waits (R213, R287). -/
def opFetch (b : Nat) (s : State) (t : Task) (c : Canopy) (w : OpWord) : Issue State := do
  let d := c.desc w.a
  let (s1, _, its) ← s.iterate b w.a d (w.b + 1)
  let rs ← (its.filter Iter.inside).mapM (s1.fetchRead b t d.lastRun)
  let blocked := rs.flatMap (s1.bough b).fetchStalls
  match blocked.find? (fun k => match k with | .fault _ _ => true | _ => false), blocked with
  | some k, _ => .error k
  | none, k :: _ => .error k
  | none, [] =>
    let s2 := s1.onBough b fun x => { (x.onLast fun e => { e with opsLeft := e.opsLeft + rs.length }).noteReads (s1.valueReads b d (w.b + 1) its) with reads := x.reads ++ rs }
    return (s2.pumpBough b).advance b

/-- STORE on one iteration: the bytes read are held toward HBM or host memory, joined to the operation's lines since `mark`. -/
def storeBody (b mark : Nat) (t : Task) (n elem : Nat) (s : State) (i : Iter) : Issue State :=
  let x := s.bough b
  match i.inA with
  | .sap o =>
    if !i.inA.room n || !i.outA.room n || n % elem != 0 then shape
    else if x.sapPending o n then .error .dep
    else
      let y := x.noteRead o n
      match i.outA with
      | .hbm a => .ok (s.onBough b fun _ => y.holdJoin mark t.id .hbm [(a, y.sapBytes o n)] (x.sapMark o n))
      | .host a => (s.hostRequest t a).map fun _ => s.onBough b fun _ => y.holdJoin mark t.id .host [(a, y.sapBytes o n)] (x.sapMark o n)
      | _ => shape
  | _ => shape

/-- The iterations of a STORE that move data. -/
def State.storeRun (s : State) (b : Nat) (t : Task) (c : Canopy) (w : OpWord) (its : List Iter) : Issue State :=
  let d := c.desc w.a
  (its.filter Iter.inside).foldlM (storeBody b (s.bough b).held.length t d.lastRun (c.quant d.outTensor).fmt.elemBytes)
    (s.onBough b fun x => x.noteReads (s.valueReads b d (w.b + 1) its))

/-- STORE (Table 7-3): sapwood lines held toward HBM or host memory, each with all that the STORE writes (R214). -/
def opStore (b : Nat) (s : State) (t : Task) (c : Canopy) (w : OpWord) : Issue State := do
  let (s1, _, its) ← s.iterate b w.a (c.desc w.a) (w.b + 1)
  let s2 ← s1.storeRun b t c w its
  let mark := (s1.bough b).held.length
  let span := (its.filter Iter.inside).map fun i => (i.outA.num, (c.desc w.a).lastRun)
  let s3 ← s1.commitLines b (s2.onBough b fun x => { x with held := x.held.take mark ++ (x.held.drop mark).map fun h => { h with span := span } })
  return s3.advance b

-- DRIVE (R195 to R208).

/-- a_o, phases and bits of an activation format (Table 2-4). -/
def actFormat (q : Quant) : Option (Nat × Bool × Nat) :=
  match q.fmt with
  | .int8 | .cint8 | .bsi8 => some (128, true, 8)
  | .uint8 => some (0, true, 8)
  | .int4 => some (8, false, 4)
  | .int2 => some (2, false, 2)
  | _ => none

/-- Bytes in ascending order as ranges. -/
def runsOf (l : List Nat) : List (Nat × Nat) :=
  (l.foldl (fun (rs : List (Nat × Nat)) a => match rs with
    | (o, n) :: q => if a = o + n then (o, n + 1) :: q else if decide (o ≤ a ∧ a < o + n) then rs else (a, 1) :: rs
    | [] => [(a, 1)]) []).reverse

/-- One vector on one slot: x' of every row, its exponent tag and the sapwood it reads. -/
structure DriveVec where
  /-- x' of each row. -/
  xs : List Nat
  tag : Int := 0
  reads : List (Nat × Nat) := []
  /-- A byte it reads lies outside sapwood (Table 8-5). -/
  out : Bool := false
  deriving DecidableEq, Repr

/-- Rows and values of one vector on one slot (R35, R126, R205): `base` is the operand's base after any list substitution. What is read is the mask bits of rows inside the edge, and the elements and exponents of rows that are driven. -/
def Bough.driveVec (x : Bough) (c : Canopy) (dIdx : Nat) (d : Desc) (it : Iter) (addr baseOff : Nat) (sl : SlotEnt) (r0 : Nat) : DriveVec :=
  let q := c.quant d.inTensor
  let (ao, _, bits) := (actFormat q).getD (128, true, 8)
  let el := fun (r : Nat) => sl.rowBlock * 1024 + r - r0
  let near := (List.range 1024).filter fun r => decide (r0 ≤ r) && (match it.extK with | some k => decide (it.posK + (el r : Nat) < (k : Int)) | none => true)
  let on := near.filter fun r => match d.rowMask with | some m => (x.sapByte (m + r / 8)).getLsbD (r % 8) | none => true
  let byteAt := fun (r : Nat) => addr + el r * bits / 8
  let raw := fun (r : Nat) => (x.sapByte (byteAt r)).toNat / 2 ^ (el r * bits % 8) % 2 ^ bits
  let disp := match c.companion dIdx 0 with | some k => k.compDisp | none => 0
  let expAt := fun (r : Nat) => (baseOff : Int) + disp + ((byteAt r - baseOff) / 32 : Nat)
  let expOf := fun (r : Nat) => sext 8 (x.sapByte (expAt r).toNat).toNat
  -- A poisoned activation byte is driven as activation zero (R320).
  let rows := on.filter fun r => (x.sapMark (byteAt r) 1).isNone
  let tag := if q.carries then rows.foldl (fun (m : Int) r => if expOf r = -128 then m else if m < expOf r then expOf r else m) (-128) else 0
  let val := fun (r : Nat) =>
    let v : Int := if ao = 0 then (raw r : Int) else sext bits (raw r)
    if q.carries then (if expOf r = -128 then 0 else bsiAlign tag (expOf r) v) else v
  let exps := if q.carries then on.map expAt else []
  let reads := runsOf (match d.rowMask with | some m => near.map fun r => m + r / 8 | none => []) ++ runsOf (on.map byteAt) ++ runsOf (exps.map Int.toNat)
  { xs := (List.range 1024).map fun r => if rows.contains r then toBits bits (val r + ao) else ao, tag := tag, reads := reads,
    out := exps.any (fun e => decide (e < 0)) || reads.any fun r => decide (6 * 2 ^ 20 < r.1 + r.2) }

/-- Physical leaf that serves a descriptor slot: a replayed epoch keeps the leaves of its first issue (R182). -/
def State.driveLeaf (s : State) (b slot : Nat) : Option Nat :=
  let x := s.bough b
  match x.replay.find? fun r => r.1 == x.nextEpoch.toNat with
  | some r => match smFind r.2.2.2 slot with
    | some k => some k
    | none => s.serving? b slot
  | none => s.serving? b slot

/-- Gains in use on a leaf, by physical column, where they differ from 1 (R69, R70). -/
def Leaf.gains (lf : Leaf) (u : Nat × Nat × Nat) : SMap Rat :=
  let keys := ((nth {} lf.cal u.1).trims ++ (nth {} lf.cal u.2.1).trims).map (·.1)
  keys.foldl (fun m c => smSet m c (lf.gain u c)) []

/-- The epoch with what a tile latches from leaf `k` under a selection at a load (R70, R73): its gains, and the slot in use with the highest recorded load, that load and the trim generation. -/
def Epoch.latchLeaf (e : Epoch) (lf : Leaf) (k sel load : Nat) : Epoch :=
  match lf.trimSlots sel load with
  | some u => { e with gains := smSet e.gains k (lf.gains u), mism := smSet e.mism k (u.2.1, (nth {} lf.cal u.2.1).load, lf.generation) }
  | none => { e with gains := smErase e.gains k, mism := smErase e.mism k }

/-- Digits of a phase by row, rows whose digit is 0 not listed. -/
def digitsOf (xs : List Nat) (f : Nat → Nat) : SMap Nat := ((List.range 1024).map fun r => (r, f (nth 0 xs r))).filter fun p => p.2 != 0

/-- Jobs of one vector on one slot at range shifts `ks`: one or two phases, or none where Σu is 0 in both (R33, R46, R146). -/
def vecJobs (v : DriveVec) (ao : Nat) (two : Bool) (ks : Nat × Nat) (j : PhaseJob) : List PhaseJob :=
  let sumX := nsum v.xs
  let sumX2 := nsum (v.xs.map fun x => (ni x - ni ao).natAbs ^ 2)
  let base := { j with shift := ks.1, twoPhase := two, sumX := sumX, sumX2 := sumX2, aO := ao, tag := v.tag }
  if two then
    let hi := nsum (v.xs.map (· / 16))
    let lo := nsum (v.xs.map (· % 16))
    [{ base with second := false, digits := digitsOf v.xs (· / 16), sumU := hi }, { base with second := true, shift := ks.2, digits := digitsOf v.xs (· % 16), sumU := lo }]
  else [{ base with second := false, digits := digitsOf v.xs id, sumU := sumX }]

/-- Accumulator nesting (Table 8-5). -/
def nestingOk (d : Desc) (spanCols : Nat) (evalBounds : List (Nat × Int)) : Bool :=
  let r := evalBounds.reverse.foldl (fun (a : Bool × Nat) p => (a.1 && decide (a.2 ≤ p.2.natAbs), p.2.natAbs * p.1)) (true, spanCols)
  r.1 && (decide (d.vecGroups ≤ 1) || decide (r.2 ≤ d.groupOutStride.natAbs))

/-- A vector of a DRIVE on one enabled slot. -/
structure DrivePart where
  slot : Nat
  leaf : Nat
  job : List PhaseJob
  reads : List (Nat × Nat) := []
  deriving DecidableEq, Repr

/-- What a DRIVE works on: its descriptor, loop counts and iterations, operand format, enabled slots and columns per slot. -/
structure DriveRun where
  dIdx : Nat
  d : Desc
  /-- Levels of the loops around it. -/
  shared : Nat
  priv : List Nat
  its : List Iter
  ao : Nat
  two : Bool
  bits : Nat
  slots : List Nat
  lc : Nat
  deriving DecidableEq, Repr

/-- Slot that serves descriptor slot `sl` in an iteration (R197). -/
def driveSlot (i : Iter) (sl : Nat) : Nat := sl + i.w.toNat / 1024

/-- Slots used over every vector (R197). -/
def driveSlots (its : List Iter) (slots : List Nat) : List Nat := (its.flatMap fun i => slots.map fun sl => driveSlot i sl).eraseDups

/-- Vectors of a DRIVE with the phases of each enabled slot, and driven slots without a serving leaf (R195 to R207). Address ranges are checked for every vector, driven or not (R203). -/
def State.driveParts (s : State) (b : Nat) (c : Canopy) (flags : Nat) (v : DriveRun) : Issue (List DrivePart × List Nat) :=
  let d := v.d
  let x := s.bough b
  let lev := d.level v.shared
  let baseOf := fun (i : Iter) => match i.inA.add (- d.offset d.inBase i.cs (match d.listLevel with | some l => l + 1 | none => 0) (·.inStride)) with | .sap o => o | _ => 0
  let kLevels := (List.range d.levels.length).filter fun i => decide ((d.level i).dim = .k)
  let bound := fun (i : Nat) => if i < v.shared then smGet 0 x.ck.bounds i else nth 0 v.priv (i - v.shared)
  let vecs := (v.its.flatMap fun i => (List.range (max 1 d.vecGroups)).map fun g => (i, g)).zipIdx
  vecs.foldlM (fun (acc : List DrivePart × List Nat) vg =>
    let i := vg.1.1
    let g := vg.1.2
    let posM := i.posM + ((g * nth 0 v.priv 0 * lev.step : Nat) : Int)
    let mine := v.slots.filter fun sl => (nth {} d.slots sl).vecGroup == g
    match i.inA.add ((g : Int) * d.groupInStride), i.outA.add ((g : Int) * d.groupOutStride) with
    | .sap a, .acc o =>
      if mine.any fun sl => decide (131072 < o + ((nth {} d.slots sl).colBlock + 1) * v.lc) then shape
      else if (match i.extM with | some m => !decide (posM < (m : Int)) | none => false) then (.ok acc : Issue (List DrivePart × List Nat))
      else
        let first := kLevels.all fun l => nth 0 i.cs l == 0
        let final := kLevels.all fun l => nth 0 i.cs l + 1 == bound l
        mine.foldlM (fun (acc : List DrivePart × List Nat) sl =>
          let e := nth {} d.slots sl
          let same := mine.filter fun m => (nth {} d.slots m).colBlock == e.colBlock
          let ls := driveSlot i sl
          match s.driveLeaf b ls with
          | none => (.ok (acc.1, insertN acc.2 ls) : Issue (List DrivePart × List Nat))
          | some k =>
            let u := x.driveVec c v.dIdx d i a (baseOf i) e (i.w.toNat % 1024)
            let top := e.colBlock * v.lc
            let colBytes := match d.colMask with | some m => [(m + top / 8, v.lc / 8)] | none => []
            if u.out || colBytes.any fun r => decide (6 * 2 ^ 20 < r.1 + r.2) then shape
            -- Elements, masks and exponents are waited for (R174).
            else if (u.reads ++ colBytes).any fun r => x.sapPending r.1 r.2 then .error .dep
            else
              let cols := (List.range v.lc).filter fun j => match d.colMask with
                | some m => (x.sapByte (m + (top + j) / 8)).getLsbD ((top + j) % 8)
                | none => true
              let lf := s.leaf k
              let j : PhaseJob :=
                { epoch := x.nextEpoch.toNat, vec := vg.2, dslot := sl, second := false, twoPhase := v.two, digits := [], sumU := 0, sumX := 0, sumX2 := 0, aO := v.ao,
                  outIdx := o + top, init := flags.testBit 0 && first && same.head? == some sl, last := flags.testBit 1 && final && same.getLast? == some sl,
                  tag := u.tag, cols := cols, tensor := d.outTensor }
              .ok (acc.1 ++ [{ slot := ls, leaf := k, job := vecJobs u v.ao v.two (lf.rangeFirst.toNat, lf.rangeSecond.toNat) j, reads := u.reads ++ colBytes }], acc.2)) acc
    | _, _ => shape) ([], [])

/-- Accumulator lines that the parts add to and that this DRIVE does not initialise: their pre-images are held. -/
def drivePre (parts : List DrivePart) (lc : Nat) : List Nat :=
  let lines := fun (p : DrivePart) => accLines ((p.job.head?.map (·.outIdx)).getD 0) lc
  let inits := (parts.filter fun p => p.job.any (·.init)).flatMap lines
  (((parts.filter fun p => !p.job.any (·.init)).flatMap lines).foldl insertN []).filter fun l => !inits.contains l

/-- Raised range shifts of bough `b`'s leaves take effect, and BGH_QNT_CTRL acts, at a tile's issue (R146, R159). -/
def State.atTile (s : State) (b : Nat) : State :=
  (leavesOf b).foldl (fun (s : State) k =>
    let l := s.leaf k
    if !l.raiseFirst && !l.raiseSecond then s
    else s.onLeaf k fun l =>
      { l.setRange (l.rangeFirst + (if l.raiseFirst then 1 else 0)) (l.rangeSecond + (if l.raiseSecond then 1 else 0)) with
          raiseFirst := false, raiseSecond := false, winFirst := if l.raiseFirst then (0, 0) else l.winFirst, winSecond := if l.raiseSecond then (0, 0) else l.winSecond })
    (s.onBough b fun x => { x with qntNow := x.qntCtrl })

/-- Open the epoch of a DRIVE with what it latches from the leaves it drives (R182, R184, R70). -/
def State.driveEpoch (s : State) (b : Nat) (t : Task) (parts : List DrivePart) (footprint : Nat) (bad : Option Nat) : State :=
  let load := s.bud.loadPct.toNat
  s.onBough b fun x => (x.openEpoch t.id s.trunk.map.gen.toNat true).onLast fun e =>
    { ((parts.map (·.leaf)).eraseDups).foldl (fun (e : Epoch) k => e.latchLeaf (s.leaf k) k t.calSel load) e with
      footprint := footprint,
      ckpt := { e.ckpt with slotMap := parts.foldl (fun m p => smSet m p.slot p.leaf) e.ckpt.slotMap },
      temp := smGet 0 s.bud.temps b,
      fails := match bad with | some ls => [.leafState ls] | none => [] }

/-- Issue one part's phases; where both are skipped, P is 0 exactly (R46). -/
def State.drivePhases (s : State) (b : Nat) (p : DrivePart) : State :=
  if p.job.all (·.sumU == 0) then
    match p.job.head? with
    | some j =>
      let n := if j.twoPhase then 2 else 1
      s.finishVector false b p.leaf j (fun _ => 0) 0 (List.replicate n (List.replicate 1152 0)) (List.replicate (1024 * n) 0)
    | none => s
  else (s.onLeaf p.leaf fun l => { l with jobs := l.jobs ++ p.job }).onBough b fun x =>
    x.onLast fun e => { e with phasesLeft := e.phasesLeft + (p.job.filter (·.sumU != 0)).length }

/-- First driven slot without a serving leaf, with a leaf in another role, or with an unmasked column of an unavailable check group (R54, R184, R326). -/
def State.badSlot (s : State) (parts : List DrivePart) (missing : List Nat) : Option Nat :=
  let bad := (parts.filter fun p => (s.leaf p.leaf).role != .active || p.job.any fun j => j.cols.any fun o => (s.leaf p.leaf).unavailable (o / 32)).map (·.slot)
  (missing ++ bad).foldl (fun m k => match m with | some q => some (min q k) | none => some k) none

/-- The state after a DRIVE has opened its epoch: its phases issued, or for a failed slot none. -/
def State.driveGo (s : State) (b : Nat) (t : Task) (parts : List DrivePart) (missing : List Nat) (values : List (Nat × Nat)) (footprint : Nat) : State :=
  let badSlot := s.badSlot parts missing
  let s2 := s.driveEpoch b t parts footprint badSlot
  match badSlot with
  | some ls =>
    match parts.find? fun p => p.slot == ls && (s.leaf p.leaf).role != .active with
    | some p => s2.onLeaf p.leaf fun l => { l with errStatus := l.errStatus ||| 4#5 }
    | none => s2
  | none =>
    -- Poison and parity marks of what is read fail the epoch (R320).
    let s3 := s2.onBough b fun x => x.noteReads (values ++ (parts.flatMap (·.reads)).eraseDups)
    (parts.foldl (fun (s : State) p => s.drivePhases b p) s3).drainContribs b

/-- Levels around a DRIVE: its first evaluation level is its own (R195). -/
def Desc.driveShared (d : Desc) : Nat := (d.levels.findIdx? fun l => decide (l.tag = .eval)).getD d.levels.length

/-- What a DRIVE works on, or SHAPE where its format, slots, addresses or accumulator nesting break Table 8-5. -/
def State.driveForm (s : State) (b : Nat) (c : Canopy) (w : OpWord) (priv : List Nat) (its : List Iter) : Issue DriveRun :=
  let d := c.desc w.a
  let q := c.quant d.inTensor
  match (if q.carries && (c.companion w.a 0).isNone then none else actFormat q) with
  | none => shape
  | some (ao, two, bits) =>
    let slots := (List.range 16).filter fun i => w.b.testBit i
    let found := (driveSlots its slots).filterMap (s.driveLeaf b)
    let lc := match found with | k0 :: _ => logicals (s.leaf k0).width | [] => 128
    let evalB := ((List.range priv.length).map fun i => (nth 0 priv i, (d.level (d.driveShared + i)).outStride))
    if (slots.any fun i => !(nth {} d.slots i).present) || (its.any fun i => decide (i.w < 0))
      || (its.any fun i => slots.any fun sl => decide (15 < driveSlot i sl)) || (found.any fun k => logicals (s.leaf k).width != lc)
      || !nestingOk d ((slots.foldl (fun m i => max m (nth {} d.slots i).colBlock) 0 + 1) * lc) evalB then shape
    else .ok { dIdx := w.a, d := d, shared := d.driveShared, priv := priv, its := its, ao := ao, two := two, bits := bits, slots := slots, lc := lc }

/-- Leaves that a DRIVE drives without a calibration slot: they hold the twig (R54, R69). -/
def State.bareLeaves (s : State) (parts : List DrivePart) : List Nat :=
  ((parts.map (·.leaf)).filter fun (k : Nat) => ((s.leaf k).role == .active) && (s.leaf k).validSlots.isEmpty).eraseDups

/-- DRIVE (Table 7-3). -/
def opDrive (b : Nat) (s : State) (t : Task) (c : Canopy) (w : OpWord) : Issue State := do
  let d := c.desc w.a
  let (s0, priv, its) ← s.iterate b w.a d d.driveShared
  let s1 := s0.atTile b
  let v ← s1.driveForm b c w priv its
  let (parts, missing) ← s1.driveParts b c w.flags v
  let n := (drivePre parts v.lc).length
  if 2048 < n then shape
  if !(s1.bareLeaves parts).isEmpty then .error (.cal (s1.bareLeaves parts))
  if (s1.bough b).freeLines < n then .error .lines
  if !(s1.bough b).canOpen n then .error .window
  return (s1.driveGo b t parts missing (s.valueReads b d d.driveShared its) n).advance b

-- Exchanges (R209 to R211).

/-- Sender's entry of a route. -/
def Route.staging (r : Route) (sender : Nat) : Option Nat := (r.senders.find? (·.1 == sender)).map (·.2)

/-- Bytes and tags of an XSEND's transfer, with the HBM line of any poison. -/
def State.sendData (s : State) (b : Nat) (halo : Bool) (its : List Iter) (n : Nat) : Issue (List Byte × List Int × Option Nat × List (Nat × Nat)) :=
  its.foldlM (fun (a : List Byte × List Int × Option Nat × List (Nat × Nat)) (i : Iter) =>
    let x := s.bough b
    if halo then
      match i.inA with
      | .sap o => if !i.inA.room n then shape else if x.sapPending o n then .error .dep
          else .ok (a.1 ++ x.sapBytes o n, a.2.1 ++ List.replicate (n / 64) 0, (match a.2.2.1 with | some m => some m | none => x.sapMark o n), a.2.2.2 ++ [(o, n)])
      | _ => shape
    else
      match i.inA with
      | .acc o =>
        let k := n / 4
        if !i.inA.room k || o % 16 != 0 || n % 64 != 0 then shape else if s.accPending b o k then .error .dep
        else
          let ls := accLines o k
          let fl := ls.map fun l => (x.accLine l).flat
          .ok (a.1 ++ fl.flatMap (fun l => l.1.flatMap fun v => leBytes 4 (toBits 32 v)), a.2.1 ++ fl.map (·.2),
               (match a.2.2.1 with | some m => some m | none => ls.findSome? fun l => (x.accLine l).poison), a.2.2.2)
      | _ => shape) ([], [], none, [])

/-- Number of the next transfer that bough `b` puts on a route: those released, and those held whose last line has not left (R209). -/
def Bough.nextSeq (x : Bough) (route : Nat) : Nat :=
  smGet 0 x.sent route + (x.held.filter fun h => match h.dest with | .xfer r _ _ last _ => r == route && last | _ => false).length

/-- XSEND (Table 7-3): the transfer's lines are held against a route credit. One whose iterations all lie outside the extents, or whose private bound is 0, moves nothing (R199, R201; log entry 158). -/
def opXsend (b : Nat) (s : State) (t : Task) (c : Canopy) (w : OpWord) : Issue State := do
  let (dIdx, lv) := exchDesc w.b
  let d := c.desc dIdx
  match c.routes[w.a]? with
  | none => shape
  | some r =>
    match r.staging b with
    | none => shape
    | some _ =>
      let (s1, _, its) ← s.iterate b dIdx d (lv + 1)
      let values := s1.valueReads b d (lv + 1) its
      let moves := its.filter Iter.inside
      let n := d.lastRun
      if moves.isEmpty || n == 0 then return (s1.onBough b fun x => x.noteReads values).advance b
      if r.depth ≤ smGet 0 (s1.bough b).credits w.a then .error .credit
      let (data, tags, poison, reads) ← s1.sendData b r.halo moves n
      let k := ceilDiv data.length 64
      if r.bufferBytes < 64 * k + (if r.halo then 0 else tags.length) then shape
      let x := s1.bough b
      let (e, op) := x.here
      let lines := (List.range k).map fun i =>
        ({ epoch := e, task := t.id, op := op, dest := .xfer w.a (x.nextSeq w.a) i (i + 1 == k) (nth 0 tags i),
           bytes := (List.range 64).filterMap (fun p => (data[64 * i + p]?).map fun v => (p, v)), poison := poison } : HeldLine)
      let s2 ← s1.charge b k
      let s3 := s2.onBough b fun x =>
        { ((x.noteReads (values ++ reads)).hold lines).onLast (fun e => { e with sends := e.sends ++ [w.a] }) with credits := smUpd 0 x.credits w.a (· + 1) }
      return s3.advance b

/-- Every sender's transfer that bough `b`'s XRECV consumes has landed: sequence number by sender. -/
def Bough.landedAll (x : Bough) (c : Canopy) (route : Nat) : Bool :=
  let r := nth ({} : Route) c.routes route
  r.senders.all fun p => (smGet [] x.landed (16 * route + p.1)).any fun l => l.seq == smGet 0 x.received (16 * route + p.1)

/-- Add the lines of one sender's transfer, staged at `base`, into the owner's lines under their tags (R127, R210). -/
def Bough.addTransfer (x : Bough) (e task tensor : Nat) (lines : List Nat) (base : Nat) (land : Landed) : Bough :=
  (lines.zipIdx.filter fun p => decide (p.2 < land.lines)).foldl (fun (x : Bough) p =>
    if !(x.accLine p.1).valid then { x.failEpoch e (.descriptor (16 * p.1)) with pipeErr := x.pipeErr ||| 8#5 }
    else
      let vals := (List.range 16).map fun i => (i, sext 32 (leNat (x.sapBytes (base + 64 * p.2 + 4 * i) 4)))
      let (u, clips) := (x.preImage e task x.ck.pc p.1).accAdd e p.1 vals (nth 0 land.tags p.2) (x.sapMark (base + 64 * p.2) 64)
      u.stat e tensor fun st => { st with clips := st.clips + clips }) x

/-- Raise a tensor's amax over finished partials: whole accumulator lines (R138, R208). -/
def Bough.raiseLines (x : Bough) (e tensor : Nat) (lines : List Nat) : Bough :=
  (lines.filter fun l => (x.accLine l).valid).foldl (fun (x : Bough) l => (List.range 16).foldl (fun (x : Bough) i =>
    let (q, tg) := x.partial_ (16 * l + i)
    let (a, cl) := amaxOf q tg
    x.stat e tensor fun st => { st.raise a with clips := st.clips + b2n cl }) x) x

/-- Consume the landed transfers of a route: for a combine route, add the senders' lines into the owner's region in ascending bough number; the partials are then finished (R208, R210). -/
def Bough.consume (x : Bough) (r : Route) (route tensor : Nat) (lines : List Nat) : Bough :=
  let e := x.here.1
  let task := x.taskOf e
  let y := ((r.senders.map (·.1)).foldl insertN []).foldl (fun (x : Bough) snd =>
    let key := 16 * route + snd
    let seq := smGet 0 x.received key
    let land := ((smGet [] x.landed key).find? (·.seq == seq)).getD { seq := seq, lines := 0 }
    let base := (r.staging snd).getD 0 + (seq % max 1 r.depth) * r.bufferBytes
    let y := (x.noteRead base (64 * land.lines)).onLast fun e => { e with consumed := e.consumed ++ [(route, snd)] }
    let z := if r.halo then y else y.addTransfer e task tensor lines base land
    { z with received := smUpd 0 z.received key (· + 1) }) x
  { (if r.halo then y else y.raiseLines e tensor lines).opDone e with wait := .none }

/-- The XRECV that bough `b` waits in, if any, consumes its transfers once they have all landed and its own partials are in the region (R210). -/
def State.tryXrecv (s : State) (b : Nat) : State :=
  match (s.bough b).wait, s.canopyOf b with
  | .xrecv route tensor lines, some c =>
    if (s.bough b).landedAll c route && !(lines.any fun l => s.accPending b (16 * l) 16) then s.onBough b fun x => x.consume (nth {} c.routes route) route tensor lines else s
  | _, _ => s

/-- An XRECV that waits on a transfer from a bough of a stand under reset fails at once, unless the stand released the whole of it before (R212). -/
def State.failXrecv (s : State) (b : Nat) : State :=
  let x := s.bough b
  match x.wait, s.canopyOf b with
  | .xrecv r _ _, some c =>
    let missing := fun (p : Nat × Nat) =>
      let key := 16 * r + p.1
      let n := smGet 0 x.received key
      s.inReset (standOf p.1) && standOf p.1 != standOf b && !((smGet [] x.landed key).any fun l => l.seq == n) && !((smGet [] x.inbound key).any fun t => t.seq == n && t.whole)
    match (nth ({} : Route) c.routes r).senders.find? missing with
    | some p => s.onBough b fun y =>
      { y.onLast (fun e => { e with opsLeft := e.opsLeft - 1, fails := e.fails ++ [.peerReset (peerDetail true 0 (standOf p.1) s.myDev)] }) with wait := .none }
    | none => s
  | _, _ => s

/-- Accumulator lines of an XRECV's region, one iteration after another, or SHAPE where a region breaks Table 8-5. -/
def xrecvLines (r : Route) (moves : List Iter) (n : Nat) : Issue (List Nat) :=
  (moves.mapM fun (i : Iter) => match i.outA with
    | .acc o => if r.halo || !i.outA.room (n / 4) || o % 16 != 0 || n % 64 != 0 then (shape : Issue (List Nat)) else .ok (accLines o (n / 4))
    | .sap _ => if !r.halo || !i.outA.room n then shape else .ok []
    | .none => if r.halo then .ok [] else shape
    | _ => shape).map List.flatten

/-- Open the epoch of an XRECV: it waits on a route for an out tensor, or for nothing. -/
def State.xrecvOpen (s : State) (b : Nat) (t : Task) (values : List (Nat × Nat)) (on : Option (Nat × Nat)) (lines : List Nat) : State :=
  s.onBough b fun x =>
    let y := ((x.openEpoch t.id s.trunk.map.gen.toNat false).onLast fun e => { e with footprint := lines.eraseDups.length, opsLeft := b2n on.isSome }).noteReads values
    match on with | some (route, tensor) => { y with wait := .xrecv route tensor lines } | none => y

/-- XRECV (Table 7-3): open an epoch and wait for every sender's transfer of the present number; one that moves nothing waits for none (R199, R201; log entry 158). -/
def opXrecv (b : Nat) (s : State) (t : Task) (c : Canopy) (w : OpWord) : Issue State := do
  let (dIdx, lv) := exchDesc w.b
  let d := c.desc dIdx
  match c.routes[w.a]? with
  | none => shape
  | some r =>
    if r.receiver ≠ b then shape
    let (s1, _, its) ← s.iterate b dIdx d (lv + 1)
    let moves := its.filter Iter.inside
    let n := d.lastRun
    let lines ← xrecvLines r moves n
    let fill := lines.eraseDups.length
    if 2048 < fill || r.bufferBytes < 65 * lines.length then shape
    if (s1.bough b).freeLines < fill then .error .lines
    if !(s1.bough b).canOpen fill then .error .window
    let idle := moves.isEmpty || n == 0
    return (((s1.xrecvOpen b t (s1.valueReads b d (lv + 1) its) (if idle then none else some (w.a, d.outTensor)) lines).advance b).tryXrecv b).failXrecv b

/-- KSIG: one held signal (R262). -/
def opKsig (b : Nat) (s : State) (t : Task) (_c : Canopy) (w : OpWord) : Issue State := do
  let s1 ← s.charge b 1
  let s2 := s1.onBough b fun x => x.hold [{ epoch := x.here.1, task := t.id, op := x.ck.pc, dest := .knot w.a }]
  return s2.advance b

/-- KWAIT: open an epoch and wait for a token; a wait on knot 0 ends at once, one on the done knot of a failed entry fails its epoch (R262, R263, R303). -/
def opKwait (b : Nat) (s : State) (t : Task) (_c : Canopy) (w : OpWord) : Issue State := do
  if !(s.bough b).canOpen 0 then .error .window
  let s1 := (s.onBough b fun x => x.openEpoch t.id s.trunk.map.gen.toNat false).advance b
  if w.a = 0 then return s1
  match s1.failedDone w.a with
  | some (code, dev, stand) => return s1.onBough b fun x => x.onLast fun e => { e with fails := e.fails ++ [.peerReset (peerDetail false code.toNat stand dev)] }
  | none =>
    let s2 := s1.onBough b fun x => { x.onLast (fun e => { e with opsLeft := 1 }) with wait := .knot w.a }
    return s2.waitKnot w.a (.bough b)

/-- LOOP (R192). -/
def opLoop (b : Nat) (s : State) (_t : Task) (c : Canopy) (w : OpWord) : Issue State :=
  let x := s.bough b
  let l := (c.desc w.a).level w.b
  let k := nth 0 x.ck.counters w.b + 1
  let deeper := (List.range 6).filter (w.b < ·)
  let ctr := (List.range 6).map fun i => if i < w.b then nth 0 x.ck.counters i else if i = w.b then k else 0
  .ok (s.onBough b fun x =>
    if k < smGet 0 x.ck.bounds w.b then
      -- Deeper levels are entered again (R192, R200).
      { x with ck := { x.ck with pc := l.body, counters := ctr, bounds := x.ck.bounds.filter fun p => !deeper.contains p.1 } }
    else { x with ck := { x.ck with pc := x.ck.pc + 1, counters := ctr.set w.b 0 } })

/-- The bough's running task yields at a boundary: it is not of class SLOT and a SLOT task waits for the bough (R246, R259). -/
def Bough.wantsYield (x : Bough) : Bool :=
  match x.task with
  | some t => t.cls != 0 && x.waiting.any (·.cls == 0)
  | none => false

/-- LBND (R170): swaps apply; a yield, an in-field test or a power-state entry begins its drain (R186). -/
def opLbnd (b : Nat) (s : State) (_t : Task) (_c : Canopy) (_w : OpWord) : Issue State :=
  let s1 := ((s.applySwaps b).advance b).onBough b fun x => { x with layer := x.layer + 1 }
  let x := s1.bough b
  .ok (if x.wantsYield ∨ x.logicStop ∨ s1.bud.power = .entering then s1.onBough b fun x => { x with draining := true } else s1)

/-- END: the completion is held as the task's last line; the next task may issue (R167, R172). -/
def opEnd (b : Nat) (s : State) (t : Task) (_c : Canopy) (_w : OpWord) : Issue State := do
  let s1 ← s.charge b 1
  let s2 := s1.onBough b fun x =>
    { x.hold [{ epoch := x.here.1, task := t.id, op := x.ck.pc, dest := .completion t.id }] with
        task := none, ending := x.ending ++ [{ t with issueDone := true }] }
  return s2.applySwaps b

end Sys2Proof.Machine
end

