-- ==== Sys2Proof/Machine/CambiumOps.lean ====
section
/-! DEFINITION. Local operations: COMBINE3, RESCALE, TABLE, CVT, the VEC functions and CONE (chapters 05 to 07). -/

namespace Sys2Proof.Machine

/-- Base of an operand of an iteration (0 in, 1 out, 2 aux), after any list substitution (R207, R222). -/
def Desc.baseOf (d : Desc) (it : Iter) (operand : Nat) : Int :=
  let first := match d.listLevel with | some l => l + 1 | none => 0
  match operand with
  | 0 => ni it.inA.num - d.offset it.inA it.cs first (·.inStride)
  | 1 => ni it.outA.num - d.offset it.outA it.cs first (·.outStride)
  | _ => ni it.auxA.num - d.offset d.auxBase it.cs 0 (·.wStride)

/-- An operand in sapwood: its quantisation entry, place, number of components and, for an exponent-carrying tensor, base and displacement of its exponents (R222). -/
structure Opd where
  q : Quant
  off : Nat
  n : Nat
  base : Int := 0
  disp : Int := 0
  deriving DecidableEq, Repr

/-- Bytes of the operand's elements (R111). -/
def Opd.size (o : Opd) : Nat := ceilDiv (o.n * o.q.fmt.bits) 8

/-- Address of the exponent of component `i`. -/
def Opd.expAt (o : Opd) (i : Nat) : Int := o.base + o.disp + (ni (o.off + i) - o.base) / 32

/-- Byte ranges the operand covers. -/
def Opd.ranges (o : Opd) : List (Nat × Nat) :=
  (o.off, o.size) :: (if o.q.carries ∧ 0 < o.n then [((o.expAt 0).toNat, (o.expAt (o.n - 1) - o.expAt 0 + 1).toNat)] else [])

/-- Form an operand of an iteration: SHAPE outside sapwood, past its end or without its companion layout (Table 8-5). -/
def Canopy.opd (c : Canopy) (dIdx : Nat) (d : Desc) (it : Iter) (operand tensor n : Nat) : Issue Opd :=
  let q := c.quant tensor
  let a := match operand with | 0 => it.inA | 1 => it.outA | _ => it.auxA
  match a with
  | .sap off =>
    let o : Opd := { q := q, off := off, n := n }
    if !a.room o.size then shape
    else if !q.carries then .ok o
    else match c.companion dIdx operand with
      | none => shape
      | some k =>
        let o1 := { o with base := d.baseOf it operand, disp := k.compDisp }
        if o1.expAt 0 < 0 ∨ ni (6 * 2 ^ 20) ≤ o1.expAt (n - 1) then shape else .ok o1
  | _ => shape

/-- The operand waits for data of an unfinished operation (R174). -/
def Opd.waits (o : Opd) (x : Bough) : Bool := o.ranges.any fun r => x.sapPending r.1 r.2

/-- Stored bits and block exponent of each component. -/
def Opd.raw (o : Opd) (x : Bough) : List (Nat × Int) :=
  let bs := x.sapBytes o.off o.size
  (List.range o.n).map fun i => (compBits o.q.fmt bs i, if o.q.carries then sext 8 (x.sapByte (o.expAt i).toNat).toNat else 0)

/-- A number times a positive factor. -/
def Num.scale (v : Num) (r : Rat) : Num :=
  match v with
  | .fin q => .fin (q * r)
  | w => w

/-- Value of a stored component under its block exponent, before the tensor scale (R137). -/
def Quant.valueOf (q : Quant) (p : Nat × Int) : Num :=
  if q.carries then (if p.2 = -128 then .zero false else (q.fmt.decode p.1).scale (pow2 p.2)) else q.fmt.decode p.1

/-- Values of an operand. -/
def Opd.nums (o : Opd) (x : Bough) : List Num := (o.raw x).map o.q.valueOf

/-- Note the reads of operands in the present epoch. -/
def Bough.noteOpds (x : Bough) (os : List Opd) : Bough := (os.flatMap Opd.ranges).foldl (fun x r => x.noteRead r.1 r.2) x

/-- Poison that operands carry (R320). -/
def Bough.markOpds (x : Bough) (os : List Opd) : Option Nat := (os.flatMap Opd.ranges).findSome? fun r => x.sapMark r.1 r.2

/-- What an output operand receives. -/
structure Written where
  runs : List (Nat × List Byte)
  clips : Nat := 0
  nonfinite : Nat := 0
  amax : Rat := 0
  deriving DecidableEq, Repr

/-- Larger of two rationals. -/
def rmax (a b : Rat) : Rat := if a < b then b else a

/-- Encode values into an output operand (Table 5-7): a plain tensor in its format; an exponent-carrying one with E = d, its q saturated to ±127 (R139, R141). -/
def Opd.encode (o : Opd) (d : Nat) (vs : List Num) : Written :=
  if o.q.carries then
    let r := vs.map fun v => match v with
      | .nan => (0, 0, 1)
      | .inf neg => ((if neg then (-127 : Int) else 127), 0, 1)
      | w => let i := rhe (w.val / pow2 d); let c := clampI (-127) 127 i; (c, b2n (c != i), 0)
    { runs := (o.off, packComps .int8 (r.map fun p => toBits 8 p.1)) :: (List.range o.n).map fun i => ((o.expAt i).toNat, [byteOf d]),
      clips := nsum (r.map (·.2.1)), nonfinite := nsum (r.map (·.2.2)), amax := r.foldl (fun m p => rmax m (ni p.1.natAbs * pow2 d)) 0 }
  else
    let r := vs.map o.q.fmt.encode
    { runs := [(o.off, packComps o.q.fmt (r.map (·.1)))], clips := nsum (r.map fun p => b2n p.2.1), nonfinite := nsum (r.map fun p => b2n p.2.2),
      amax := r.foldl (fun m p => rmax m (rabs (o.q.fmt.decode p.1).val)) 0 }

/-- Encode values into an exponent-carrying operand by R124, block by block (R427). -/
def Opd.encodeBlocks (o : Opd) (vs : List Num) : Written :=
  let keys := ((List.range o.n).map o.expAt).eraseDups
  let r := keys.map fun k =>
    let part := ((List.range o.n).filter fun i => o.expAt i == k).map fun i => nth .nan vs i
    (k, bsiEncode part)
  { runs := [(o.off, packComps .int8 (r.flatMap fun p => p.2.2.1.map (toBits 8)))] ++ r.map fun p => (p.1.toNat, [byteOf (toBits 8 p.2.1)]),
    nonfinite := nsum (r.map fun p => p.2.2.2),
    amax := r.foldl (fun m p => if p.2.1 = -128 then m else p.2.2.1.foldl (fun m q => rmax m (ni q.natAbs * pow2 p.2.1)) m) 0 }

/-- A layer entry of the image writes the tensor (R137). -/
def Canopy.layerWrites (c : Canopy) (tensor : Nat) : Bool := c.layers.any (·.outTensor == tensor)

/-- Hold what an operation writes, and add its events to the tensor's statistics (R138, R173). -/
def State.putWritten (s : State) (b mark t tensor : Nat) (w : Written) (amax : Rat) (real : Bool) (poison : Option Nat) : State :=
  s.onBough b fun x =>
    let e := x.here.1
    let (a, clip) := fp32.round amax
    (x.holdJoin mark t .sap w.runs poison).stat e tensor fun st =>
      { st.raise (fp32.decode a).val with clips := st.clips + w.clips + b2n clip, nonfinite := st.nonfinite + w.nonfinite, real := st.real || real }

/-- What a local operation does for one of its iterations, with the descriptor, the run of its innermost level, and the held lines before the operation. -/
abbrev LocalBody := State → Nat → Desc → Nat → Nat → Iter × Nat → Issue State

/-- Descriptor of a local operation (R168). -/
def OpWord.localDesc (w : OpWord) : Nat := w.b / 65536 % 65536

/-- The iterations of a local operation that handle data, each with its number, in order. -/
def State.localRun (s : State) (b : Nat) (c : Canopy) (w : OpWord) (its : List Iter) (body : LocalBody) : Issue State :=
  let d := c.desc w.localDesc
  (its.zipIdx.filter fun i => i.1.inside).foldlM (fun t i => body t w.localDesc d d.lastRun (s.bough b).held.length i)
    (s.onBough b fun x => x.noteReads (s.valueReads b d (w.b % 8 + 1) its))

/-- A local operation (R168): its iterations, then the lines they fill. -/
def State.localOp (s : State) (b : Nat) (c : Canopy) (w : OpWord) (body : LocalBody) : Issue State := do
  let (s1, _, its) ← s.iterate b w.localDesc (c.desc w.localDesc) (w.b % 8 + 1)
  let s2 ← s1.localRun b c w its body
  let s3 ← s1.commitLines b s2
  return s3.advance b

/-- An accumulator region of `n` partials (Table 8-5). -/
def accRegion (a : Addr) (n : Nat) : Issue Nat :=
  match a with
  | .acc o => if !a.room n || o % 16 != 0 then shape else .ok o
  | _ => shape

/-- First line of a region whose valid bit is 0: a descriptor fault (R163). -/
def Bough.accInvalid (x : Bough) (o n : Nat) : Option Nat := (accLines o n).find? fun l => !(x.accLine l).valid

/-- An add or read of an invalid line fails the epoch as a descriptor fault (R163, R184). -/
def State.accFault (s : State) (b l : Nat) : State :=
  s.onBough b fun x => { x.failEpoch x.here.1 (.descriptor (16 * l)) with pipeErr := x.pipeErr ||| 8#5 }

-- COMBINE3 (R429).

/-- Outputs of one column: yr, yi, tag, clips. -/
def combineOne (a b c : Int × Int) : Int × Int × Int × Nat :=
  let tags := [a.2, b.2, c.2].filter (· != -128)
  match tags with
  | [] => (0, 0, -128, 0)
  | t :: r =>
    let e := r.foldl (fun m x => if m < x then x else m) t
    let al := fun (p : Int × Int) => if p.2 = -128 then 0 else rshr p.1 (e - p.2).toNat
    let (yr, k1) := sat32 (al a - al b)
    let (yi, k2) := sat32 (2 * al c - al a - al b)
    (yr, yi, e, b2n k1 + b2n k2)

/-- Write one line of COMBINE3's output whole, each output with its own tag and the rest of the line 0 (log entry 152): a pre-image where the line is valid, else an initialising write. -/
def Bough.combineLine (x : Bough) (t i : Nat) (outs : List (Nat × Int × Int)) (poison : Option Nat) : Bough :=
  let (e, op) := x.here
  let line := (List.range 16).map fun p => match outs.find? (·.1 == p) with | some v => v | none => (p, 0, -128)
  if (x.accLine i).valid then
    let y := x.preImage e t op i
    { y with acc := smSet y.acc i { (y.accLine i).put line with writer := e + 1, poison := poison } }
  else x.accInit e i line poison

/-- COMBINE3 on one iteration. -/
def combine3Body (b : Nat) (t : Task) : LocalBody := fun s _ d n _ (i, _) => do
  let o ← accRegion i.inA (3 * n)
  let q ← accRegion i.outA (2 * n)
  if s.accPending b o (3 * n) || s.accPending b q (2 * n) then .error .dep
  let x := s.bough b
  match x.accInvalid o (3 * n) with
  | some l => return s.accFault b l
  | none =>
    let r := (List.range n).map fun j => combineOne (x.partial_ (o + j)) (x.partial_ (o + n + j)) (x.partial_ (o + 2 * n + j))
    let ys := r.map (fun p => (p.1, p.2.2.1)) ++ r.map (fun p => (p.2.1, p.2.2.1))
    let mark := (accLines o (3 * n)).findSome? fun l => (x.accLine l).poison
    let z := (accLines q (2 * n)).foldl (fun (x : Bough) l =>
      let here := (List.range 16).filterMap fun p => if decide (q ≤ 16 * l + p) then (ys[16 * l + p - q]?).map fun v => (p, v) else none
      x.combineLine t.id l here mark) x
    return s.onBough b fun _ => z.stat z.here.1 d.outTensor fun st => { st with clips := st.clips + nsum (r.map (·.2.2.2)) }

/-- COMBINE3 (R429). -/
def opCombine3 (b : Nat) (s : State) (t : Task) (c : Canopy) (w : OpWord) : Issue State := s.localOp b c w (combine3Body b t)

-- RESCALE (R130, R131, R139, R141).

/-- Value of one rescaled partial before the destination's rounding: acc × M × 2^(E_acc − s). -/
def rescaled (sc : Scale) (p : Int × Int) : Num :=
  if p.2 = -128 then .zero false else numOf ((p.1 * ni sc.mult : Int) * pow2 (p.2 - ni sc.shift))

/-- The most recent Δ that a task's GRAFT_APPLY formed for the graft of a tensor (R240). -/
def Task.delta (t : Task) (c : Canopy) (tensor : Nat) : Option (List Word) :=
  match c.grafts.findIdx? fun g => g.outTensor == tensor with
  | some g => (t.deltas.find? fun p => p.1 == g).map (·.2.2)
  | none => none

/-- S_acc = S_in × S_w of a tensor that a layer writes, else its own S (R137). -/
def Task.accScale (t : Task) (c : Canopy) (tensor : Nat) : Rat :=
  match c.layers.find? (·.outTensor == tensor) with
  | some l => f32val (t.scale c l.inTensor).s * f32val l.sW
  | none => f32val (t.scale c tensor).s

/-- Add a graft's Δ element into a partial (R240): partial and clip. -/
def addDelta (sAcc : Rat) (p : Int × Int) (w : Word) : (Int × Int) × Bool :=
  if p.2 = -128 then (p, false)
  else let r := sat32 (p.1 + rhe (r32 (f32val w / (sAcc * pow2 p.2)))); ((r.1, p.2), r.2)

/-- RESCALE on one iteration. -/
def rescaleBody (b : Nat) (t : Task) (c : Canopy) (w : OpWord) : LocalBody := fun s dIdx d n mark (i, num) => do
  if d.outTensor ≠ w.a then shape
  let o ← accRegion i.inA n
  let out ← c.opd dIdx d i 1 w.a n
  if s.accPending b o n then .error .dep
  let x := s.bough b
  match x.accInvalid o n with
  | some l => return s.accFault b l
  | none =>
    let delta := t.delta c w.a
    let ps := (List.range n).map fun j => match delta with
      | some l => addDelta (t.accScale c w.a) (x.partial_ (o + j)) (nth 0 l (num * n + j))
      | none => (x.partial_ (o + j), false)
    let r := out.encode (smGet 0 t.dbl w.a) (ps.map fun p => rescaled (t.scale c w.a) p.1)
    let r1 := { r with clips := r.clips + nsum (ps.map fun p => b2n p.2) }
    return s.putWritten b mark t.id w.a r1 0 false ((accLines o n).findSome? fun l => (x.accLine l).poison)

/-- RESCALE (R130). -/
def opRescale (b : Nat) (s : State) (t : Task) (c : Canopy) (w : OpWord) : Issue State := s.localOp b c w (rescaleBody b t c w)

-- TABLE (R164).

/-- The table step: value before saturation. -/
def tableStep (sl : TabSlot) (x : Int) : Int :=
  let v := x + 32768
  let i := (v / 256).toNat
  let f := v % 256
  let y := nth 0 sl.y i + rshr ((nth 0 sl.y (i + 1) - nth 0 sl.y i) * f) 8
  rshr y sl.nlFrac

/-- TABLE on one iteration. -/
def tableBody (b : Nat) (t : Task) (c : Canopy) (w : OpWord) : LocalBody := fun s dIdx d n mark (i, _) => do
  match smFind (s.bough b).tables w.a with
  | none => shape
  | some sl =>
    let a ← c.opd dIdx d i 0 sl.preTensor n
    let out ← c.opd dIdx d i 1 sl.outTensor n
    let x := s.bough b
    if a.waits x then .error .dep
    let src := { a with q := { a.q with fmt := .int16, expCarry := false } }
    let dst := { out with q := { out.q with fmt := sl.outFmt } }
    let vs := (src.nums x).map fun v => numOf (tableStep sl v.val.floor)
    let r := dst.encode (smGet 0 t.dbl sl.outTensor) vs
    let am := if c.layerWrites sl.outTensor then 0 else r.amax
    return (s.onBough b fun x => x.noteOpds [src]).putWritten b mark t.id sl.outTensor r am false (x.markOpds [src])

/-- TABLE (R164). -/
def opTable (b : Nat) (s : State) (t : Task) (c : Canopy) (w : OpWord) : Issue State := s.localOp b c w (tableBody b t c w)

-- CVT (R427).

/-- CVT on one iteration. -/
def cvtBody (b : Nat) (t : Task) (c : Canopy) : LocalBody := fun s dIdx d n mark (i, _) => do
  if (c.quant d.inTensor).fmt = .cone4 ∨ (c.quant d.outTensor).fmt = .cone4 then shape
  let a ← c.opd dIdx d i 0 d.inTensor n
  let out ← c.opd dIdx d i 1 d.outTensor n
  let x := s.bough b
  if a.waits x then .error .dep
  let sIn := f32val (t.scale c d.inTensor).s
  let vs := a.nums x
  let ys := vs.map fun v => v.scale (sIn / f32val (t.scale c d.outTensor).s)
  let r := if out.q.carries then out.encodeBlocks ys else out.encode 0 ys
  let real := a.q.fmt.fp?.isSome
  let am := if real then vs.foldl (fun m v => rmax m (rabs v.val * sIn)) 0 else if c.layerWrites d.outTensor then 0 else r.amax
  return (s.onBough b fun x => x.noteOpds [a]).putWritten b mark t.id d.outTensor r am real (x.markOpds [a])

/-- CVT (R427). -/
def opCvt (b : Nat) (s : State) (t : Task) (c : Canopy) (w : OpWord) : Issue State := s.localOp b c w (cvtBody b t c)

-- VEC (Table 7-14).

/-- FP32 word of a number. -/
def numWord (v : Num) : Word := wordOf (fp32.encode v).1

/-- The smaller or larger of two numbers; of NaN, a value the manual leaves open (log entry 22). -/
def pick (code : Nat) (larger : Bool) (a b : Num) : Num :=
  if a = .nan ∨ b = .nan then f32num (Config.minMaxNaN code (numWord a) (numWord b))
  else if larger then (if numLt a b then b else a) else (if numLt b a then b else a)

/-- Result of a two-source function on one element: in, aux and out as values, and aux as stored bits. -/
def vecElem (code : Nat) (a b o : Num) (count : Nat) : Num :=
  match code with
  | 0 => numAdd a b
  | 1 => numAdd a (numNeg b)
  | 2 => numMul a b
  | 3 | 14 => numAdd (numMul a b) o
  | 4 => pick 4 false a b
  | 5 => pick 5 true a b
  | 6 => (match a with | .fin q => .fin (rabs q) | .inf _ => .inf false | .zero _ => .zero false | .nan => .nan)
  | 7 => if a = .nan ∨ b = .nan then b else if numLt a b then b else a
  | 8 => if 64 ≤ count then a.scale (pow2 64) else a.scale (pow2 (ni count))
  | _ => if 64 ≤ count then .zero false else numOf (rshr a.val.floor count)

/-- One addition of a SUM: FP32 rounds each, integers are summed exactly. -/
def sumStep (fp : Bool) (a b : Num) : Num :=
  let r := numAdd a b
  if fp then r.to32 else r

/-- SUM in the order of R166: lanes of each chunk of 128 ascending, then chunks ascending. -/
def laneSum (fp : Bool) (vs : List Num) : Num :=
  let chunks := (List.range (ceilDiv vs.length 128)).map fun k => (vs.drop (128 * k)).take 128
  let sums := chunks.map fun ch => match ch with | v :: r => r.foldl (sumStep fp) v | [] => .zero false
  match sums with
  | v :: r => r.foldl (sumStep fp) v
  | [] => .zero false

/-- Complex product of components (re, im); `conj` conjugates the second. -/
def complexMul (conj : Bool) (a b : Int × Int) : Int × Int :=
  let bi := if conj then - b.2 else b.2
  (a.1 * b.1 - a.2 * bi, a.1 * bi + a.2 * b.1)

/-- Results of a VEC function from the values of its sources, and of out where it is read. -/
def vecValues (code : Nat) (fp : Bool) (ins aux outs : List Num) (counts : List Nat) : List Num :=
  match code with
  | 10 | 11 =>
    (List.range (ins.length / 2)).flatMap fun i =>
      let g := fun (l : List Num) => ((nth .nan l (2 * i)).val.floor, (nth .nan l (2 * i + 1)).val.floor)
      let p := complexMul (code == 11) (g ins) (g aux)
      [numOf p.1, numOf p.2]
  | 12 => [laneSum fp ins]
  | 13 => (match ins with | v :: r => [r.foldl (pick 13 true) v] | [] => [])
  | _ => (List.range ins.length).map fun i => vecElem code (nth .nan ins i) (nth .nan aux i) (nth .nan outs i) (nth 0 counts i)

/-- Results that derive from finite sources only: of the others the nonfinite event alone counts (R135). -/
def vecClean (code : Nat) (ins aux outs vs : List Num) : List Num :=
  if code = 12 ∨ code = 13 then (if ins.all Num.isFinite then vs else [])
  else (vs.zipIdx.filter fun p => (nth (.zero false) ins p.2).isFinite && (nth (.zero false) aux p.2).isFinite && (nth (.zero false) outs p.2).isFinite).map (·.1)

/-- A VEC function below 0x80 on one iteration (R168, Table 7-14). -/
def vecBody (b : Nat) (t : Task) (c : Canopy) (w : OpWord) : LocalBody := fun s dIdx d n mark (i, _) => do
  let code := w.a
  let comps := (c.quant d.inTensor).fmt.comps
  let a ← c.opd dIdx d i 0 d.inTensor (n * comps)
  let two := !(code == 6 || code == 12 || code == 13)
  let y ← if two then c.opd dIdx d i 2 d.inTensor (n * comps) else .ok a
  let out ← c.opd dIdx d i 1 d.outTensor (if code = 12 ∨ code = 13 then 1 else n * comps)
  let reads := [a] ++ (if two then [y] else []) ++ (if code = 3 ∨ code = 14 then [out] else [])
  let x := s.bough b
  if reads.any fun o => o.waits x then .error .dep
  let ins := a.nums x
  let aux := if two then y.nums x else []
  let outs := if code = 3 ∨ code = 14 then out.nums x else []
  let vs := vecValues code a.q.fmt.fp?.isSome ins aux outs ((y.raw x).map (·.1))
  let nf := ((ins ++ aux ++ outs).filter fun v => !v.isFinite).length
  let dbl := smGet 0 t.dbl d.outTensor
  let r := { out.encode dbl vs with nonfinite := nf, clips := (out.encode dbl (vecClean code ins aux outs vs)).clips }
  let am := if c.layerWrites d.outTensor then 0 else r.amax
  return (s.onBough b fun x => x.noteOpds reads).putWritten b mark t.id d.outTensor r am false (x.markOpds reads)

/-- A VEC function (R168). -/
def opVec (b : Nat) (s : State) (t : Task) (c : Canopy) (w : OpWord) : Issue State := s.localOp b c w (vecBody b t c w)

-- CONE (R156, R157).

/-- An FP32 operation's result and its clip. -/
def fpOp (q : Rat) : Rat × Nat := let r := fp32.round q; ((fp32.decode r.1).val, b2n r.2)

/-- Bytes at an address in sapwood, or in HBM. -/
def State.bytesAt (s : State) (b : Nat) (a : Addr) (n : Nat) : List Byte :=
  match a with
  | .sap o => (s.bough b).sapBytes o n
  | .hbm o => s.hbmBytes o n
  | _ => List.replicate n 0

/-- One weight block applied to 32 activations with exponent `ex` (R157): the running sum, clips, and whether the block is well formed. -/
def coneBlock (st : Rat) (hdr : Word) (codes side : List Nat) (xs : List Int) (ex : Int) (y : Rat × Nat) : (Rat × Nat) × Bool :=
  let kind := fld hdr 9 8
  let scaleB := blockScale (fld hdr 7 0) st
  let add := fun (y : Rat × Nat) (v : Rat) => let p := fpOp v; let r := fpOp (y.1 + p.1); (r.1, y.2 + p.2 + r.2)
  match coneDecode st (hdr &&& 0x3FF#32) codes side with
  | none => (y, false)
  | some _ =>
    if ex = -128 then (y, true)
    else if kind = 3 then
      let v := fun i => let u := nth 0 side (i / 2); let b := sext 8 (if i % 2 = 0 then u % 256 else u / 256); if b = -128 then -127 else b
      let acc := isum ((List.range 32).map fun i => v i * nth 0 xs i)
      (add y (acc * scaleB * pow2 ex / 127), true)
    else
      let acc := isum ((List.range 32).map fun i => let k := nth 7 codes i; if k = 15 then 0 else coneGrid k * nth 0 xs i)
      let y1 := add y (acc * scaleB * pow2 ex / 32768)
      let esc := (List.range 32).filter fun i => nth 7 codes i == 15
      (esc.zipIdx.foldl (fun y p => add y ((fp16.decode (nth 0 side p.2)).val * nth 0 xs p.1 * st * pow2 ex)) y1, true)

/-- A range that CONE reads lies in its space, and whether it must wait for data or for a held write. -/
def State.coneRange (s : State) (b : Nat) (a : Addr) (n : Nat) : Issue Unit :=
  if n = 0 then .ok ()
  else if !a.room n then shape
  else match a with
    | .sap o => if (s.bough b).sapPending o n then .error .dep else .ok ()
    | .hbm o => match (s.bough b).heldRange .hbm o n with
      | some own => if own then shape else .error .dep
      | none => .ok ()
    | _ => shape

/-- Note a read by CONE: sapwood marks, or an uncorrectable word of HBM (R319, R320). -/
def State.noteAt (s : State) (b : Nat) (a : Addr) (n : Nat) : State :=
  match a with
  | .sap o => s.onBough b fun x => x.noteRead o n
  | .hbm o => match s.firstUe o n with
    | some u => (s.reportUe u).onBough b fun x => x.failEpoch x.here.1 (.poison u)
    | none => s
  | _ => s

/-- An address displaced within its space. -/
def Addr.at (a : Addr) (k : Int) : Addr := (match a with | .sap _ => Addr.sap 0 | .hbm _ => Addr.hbm 0 | v => v).add k

/-- First weight block of an iteration of CONE, counted from the operand's base. -/
def Desc.coneFirst (d : Desc) (i : Iter) : Int := (ni i.auxA.num - d.baseOf i 2) / 16

/-- What one iteration of CONE reads of its weights: codes, headers and side list (R118, R222). -/
def coneAreas (d : Desc) (i : Iter) (cp : Companion) (nb n : Nat) : List (Addr × Nat) :=
  let base := d.baseOf i 2
  [(i.auxA, 16 * nb * n), (i.auxA.at (base + cp.compDisp + 4 * d.coneFirst i), 4 * nb * n), (i.auxA.at (base + cp.sideDisp), 2 * cp.sideUnits)]

/-- CONE's activations: the integer of each element and the exponent of its block, with the nonfinite events; floating-point ones are converted to BSI8 first (R124, R156). -/
def Opd.coneInput (o : Opd) (x : Bough) : List (Int × Int) × Nat :=
  if o.q.fmt.fp?.isSome then
    let r := (List.range (ceilDiv o.n 32)).map fun m => bsiEncode (((o.nums x).drop (32 * m)).take 32)
    (r.flatMap fun p => p.2.1.map fun q => (q, p.1), nsum (r.map (·.2.2)))
  else ((o.raw x).map fun p => ((o.q.fmt.decode p.1).val.floor, p.2), 0)

/-- Formats of CONE's activations: INT8 or BSI8, and floating-point ones, which it converts (R156, Table 7-13; log entry 153). -/
def coneFormat (f : Fmt) : Bool := f == .int8 || f == .bsi8 || f.fp?.isSome

/-- An operand of `n` FP32 elements at a sapwood address. -/
def fp32Opd (a : Addr) (n : Nat) : Issue Opd :=
  match a with
  | .sap o => if a.room (4 * n) then .ok { q := { fmt := .fp32 }, off := o, n := n } else shape
  | _ => shape

/-- Header, codes and side list of weight block `e`, counted from the operand's base, as CONE reads it (R118, R157, R222). -/
def State.coneBlockAt (s : State) (b : Nat) (d : Desc) (i : Iter) (cp : Companion) (e : Int) : Word × List Nat × List Nat :=
  let base := d.baseOf i 2
  let hdr := wordOf (leNat (s.bytesAt b (i.auxA.at (base + cp.compDisp + 4 * e)) 4))
  let bs := s.bytesAt b (i.auxA.at (base + 16 * e)) 16
  let idx := fld hdr 31 10
  let have_ := min 16 (cp.sideUnits - idx)
  let sd := s.bytesAt b (i.auxA.at (base + cp.sideDisp + 2 * idx)) (2 * have_)
  (hdr, bs.flatMap fun v => [v.toNat % 16, v.toNat / 16], (List.range have_).map fun u => le sd (2 * u) 2)

/-- CONE on one iteration: its n outputs are FP32 whatever the format of out_tensor, which receives their statistics (Table 7-13, log entry 153). -/
def coneBody (b : Nat) (t : Task) (c : Canopy) (w : OpWord) : LocalBody := fun s dIdx d n mark (i, _) => do
  let k := i.extK.getD 0
  let nb := ceilDiv k 32
  if !coneFormat (c.quant d.inTensor).fmt then shape
  let a ← c.opd dIdx d i 0 d.inTensor k
  let out ← fp32Opd i.outA n
  let x := s.bough b
  if a.waits x then .error .dep
  match c.companion dIdx 2 with
  | none => shape
  | some cp =>
    let first := d.coneFirst i
    let areas := coneAreas d i cp nb n
    areas.forM fun a => s.coneRange b a.1 a.2
    let (xs, events) := a.coneInput x
    let st := f32val (t.scale c w.a).s
    let outs := (List.range n).map fun j => (List.range nb).foldl (fun (y : (Rat × Nat) × List Int) m =>
      let e := first + (nb * j + m : Nat)
      let (hdr, codes, side) := s.coneBlockAt b d i cp e
      let part := (List.range 32).map fun u => (nth (0, 0) xs (32 * m + u)).1
      let ex := (nth (0, 0) xs (32 * m)).2
      let (z, good) := coneBlock st hdr codes side part ex y.1
      (z, if good then y.2 else y.2 ++ [e])) ((0, 0), [])
    let r := out.encode 0 (outs.map fun y => numOf y.1.1)
    let bad := outs.flatMap (·.2)
    let am := if c.layerWrites d.outTensor then 0 else r.amax
    let s1 := (areas.take 2).foldl (fun s a => s.noteAt b a.1 a.2) (s.onBough b fun x => x.noteOpds [a])
    let s2 := s1.putWritten b mark t.id d.outTensor { r with clips := r.clips + nsum (outs.map (·.1.2)), nonfinite := r.nonfinite + events } am false (x.markOpds [a])
    return s2.onBough b fun x =>
      { x.onLast (fun e => { e with badBlocks := e.badBlocks + bad.length }) with
               task := x.task.map fun (t : Task) => match bad, t.fault with
                 | m :: _, none => { t with fault := some { cause := .badBlock, detail := wordOf (at_ w.a 20 + m.toNat % 2 ^ 20), opIndex := x.ck.pc } }
                 | _, _ => t }

/-- CONE (R156): a malformed block ends the task after the operation's zeros are written (R120). -/
def opCone (b : Nat) (s : State) (t : Task) (c : Canopy) (w : OpWord) : Issue State := do
  let r ← s.localOp b c w (coneBody b t c w)
  return match (r.bough b).task with
    | some { fault := some f, .. } => r.faultTask b f.cause f.detail
    | _ => r

end Sys2Proof.Machine
end

