-- ==== Sys2Proof/Machine/GraftOps.lean ====
section
/-! DEFINITION. Graft operations: the graft state block, Δ, gradients and the optimiser step (chapter 10). -/

namespace Sys2Proof.Machine

-- Layout of a graft region (Table 10-3).

/-- n′ and r′. -/
def Graft.nPad (g : Graft) : Nat := roundUp g.n 32
def Graft.rPad (g : Graft) : Nat := roundUp g.rank 32

/-- e_A and e_B. -/
def Graft.eA (g : Graft) : Nat := g.rank * g.nPad
def Graft.eB (g : Graft) : Nat := g.m * g.rPad

/-- Elements of A (false) or B (true). -/
def Graft.elems (g : Graft) (bSide : Bool) : Nat := if bSide then g.eB else g.eA

/-- Bytes of a weight array of `e` elements. -/
def Graft.wBytes (g : Graft) (e : Nat) : Nat := if g.cone then e / 2 + e / 8 + e else e + e / 32

/-- Offsets of arrays of given sizes, each at the next 64-byte boundary. -/
def place64 (sizes : List Nat) : List Nat := (sizes.foldl (fun (a : List Nat × Nat) n => (a.1 ++ [a.2], roundUp (a.2 + n) 64)) ([], 0)).1

/-- Offsets in a bank: weights of A and B, first moments of A and B, second moments of A and B. -/
def Graft.bankOffs (g : Graft) : List Nat :=
  let sb := fun e => e + e / 32
  place64 [g.wBytes g.eA, g.wBytes g.eB, sb g.eA, sb g.eB, sb g.eA, sb g.eB]

/-- Bytes of a bank's arrays (R236). -/
def Graft.bankNeed (g : Graft) : Nat := nth 0 g.bankOffs 5 + g.eB + g.eB / 32

/-- Offsets of the gradients of A and B, and the bytes of the gradient area. -/
def Graft.gradOff (g : Graft) (bSide : Bool) : Nat := if bSide then roundUp (g.eA + g.eA / 32) 64 else 0
def Graft.gradNeed (g : Graft) : Nat := g.gradOff true + g.eB + g.eB / 32

/-- Parts of A, then of B (R242). -/
def Graft.partsA (g : Graft) : Nat := ceilDiv g.eA 8192
def Graft.parts (g : Graft) : Nat := g.partsA + ceilDiv g.eB 8192

/-- Tensor, first block and number of blocks of a part. -/
def Graft.partOf (g : Graft) (p : Nat) : Bool × Nat × Nat :=
  let side := decide (g.partsA ≤ p)
  let q := if side then p - g.partsA else p
  (side, 256 * q, min 256 (g.elems side / 32 - 256 * q))

/-- The context's block passes R238 for the image in force. -/
def State.graftBlockOk (s : State) (c : Canopy) (base ctx : Nat) : Bool :=
  let bytes := s.hbmNat (base + 20) 4
  base != 0 && s.hbmNat base 4 == 0x46545247 && s.hbmNat (base + 4) 2 == 1 && s.hbmNat (base + 6) 2 == c.grafts.length
    && s.hbmNat (base + 8) 8 == c.imageId.toNat && s.hbmNat (base + 16) 4 % 2 ^ 18 == ctx
    && c.grafts.all fun g => decide (g.region + 2 * g.bankBytes + g.gradNeed ≤ bytes)

-- Scale-blocked tensors (R122, R243).

/-- One weight block of an array of `e` elements at an HBM address, as a Cone4 header, codes and side units; INT8 weights take the form of a kind-3 block (R239). -/
def State.weightBlock (s : State) (cone : Bool) (base e k : Nat) : Word × List Nat × List Nat :=
  if cone then
    let hdr := wordOf (s.hbmNat (base + e / 2 + 4 * k) 4)
    let idx := fld hdr 31 10
    let have_ := min 16 (e / 2 - idx)
    let sd := s.hbmBytes (base + e / 2 + e / 8 + 2 * idx) (2 * have_)
    (hdr, (s.hbmBytes (base + 16 * k) 16).flatMap (fun v => [v.toNat % 16, v.toNat / 16]), (List.range have_).map fun u => le sd (2 * u) 2)
  else
    let vs := s.hbmBytes (base + 32 * k) 32
    (wordOf (0x300 + s.hbmNat (base + e + k) 1), List.replicate 32 7, (List.range 16).map fun u => le vs (2 * u) 2)

/-- Values of a weight block in FP32 (none: malformed). -/
def State.weightVals (s : State) (cone : Bool) (base e k : Nat) (st : Rat) : Option (List Num) :=
  let (hdr, codes, side) := s.weightBlock cone base e k
  (coneDecode st (hdr &&& 0x3FF#32) codes side).map fun l => l.map fun v => (numOf v).to32

/-- Values of one block of a scale-blocked array (Table 5-5), in FP32. -/
def State.scaledBlock (s : State) (f : Fmt) (base e k : Nat) (st : Rat) : List Num :=
  let sb := blockScale (s.hbmNat (base + e + k) 1) st
  (s.hbmBytes (base + 32 * k) 32).map fun v =>
    let x := f.decode v.toNat
    match f with
    | .int8 => x.scale (sb / 127)
    | .uint8 => x.scale (sb / 255)
    | _ => x.scale sb

/-- Largest finite magnitude of a block. -/
def blockAmax (xs : List Num) : Rat := xs.foldl (fun m x => rmax m (rabs x.val)) 0

/-- Encode a block of 32 (R243): its bytes, its scale byte and its saturations. -/
def encodeScaled (f : Fmt) (st : Rat) (xs : List Num) : List Byte × Byte × Nat :=
  let full : Rat := match f with | .e5m2 => 57344 | .e4m3 => 448 | _ => 1
  let sb := (clampI 0 255 (rceil (256 * blockAmax xs / (full * st)) - 1)).toNat
  let scale := blockScale sb st
  let unit : Rat := match f with | .int8 => 127 | .uint8 => 255 | _ => 1
  let r := xs.map fun x => f.encode (x.scale (unit / scale))
  (r.map fun p => byteOf p.1, byteOf sb, nsum (r.map fun p => b2n p.2.1))

-- The call record (Table 10-4).

structure GraftCall where
  xAddr : Nat
  xStride : Nat
  xExp : Option Nat
  vecs : Nat
  dAddr : Nat
  dStride : Nat
  part : Nat
  last : Bool
  lrScale : Word
  deriving DecidableEq, Repr

def parseCall (bs : List Byte) : GraftCall :=
  let e := le bs 8 4
  { xAddr := le bs 0 4, xStride := le bs 4 4, xExp := if e = 0xFFFFFFFF then none else some e, vecs := le bs 12 4, dAddr := le bs 16 4,
    dStride := le bs 20 4, part := le bs 24 2, last := (nth 0 bs 26).getLsbD 0, lrScale := wordOf (le bs 28 4) }

/-- Sapwood ranges of the input vectors and their exponents. -/
def GraftCall.xRanges (k : GraftCall) (n : Nat) : List (Nat × Nat) :=
  (List.range k.vecs).flatMap fun v =>
    (k.xAddr + v * k.xStride, n) :: (match k.xExp with | some e => [(e + v * k.xStride / 32, ceilDiv n 32)] | none => [])

/-- Sapwood ranges of Δ or δ. -/
def GraftCall.dRanges (k : GraftCall) (m : Nat) : List (Nat × Nat) := (List.range k.vecs).map fun v => (k.dAddr + v * k.dStride, 4 * m)

/-- Components of vector `v` and the exponent of each block. -/
def Bough.graftX (x : Bough) (k : GraftCall) (n v : Nat) : List Int × (Nat → Int) :=
  let a := k.xAddr + v * k.xStride
  ((x.sapBytes a n).map fun y => sext 8 y.toNat,
   fun i => match k.xExp with | some e => sext 8 (x.sapByte (e + v * k.xStride / 32 + i)).toNat | none => 0)

/-- FP32 fused multiply-add on numbers. -/
def fmaN (a b c : Num) : Num := (numAdd (numMul a b) c).to32

/-- FP32 product and sum. -/
def mulN (a b : Num) : Num := (numMul a b).to32
def addN (a b : Num) : Num := (numAdd a b).to32

/-- z of one vector (R239): S_in · (A · x), and blocks of A that are malformed. -/
def State.graftZ (s : State) (g : Graft) (baseA : Nat) (sIn : Rat) (xs : List Int) (ex : Nat → Int) : List Num × List Nat :=
  let nb := g.nPad / 32
  let rows := (List.range g.rank).map fun i => (List.range nb).foldl (fun (y : (Rat × Nat) × List Nat) j =>
    let (hdr, codes, side) := s.weightBlock g.cone baseA g.eA (nb * i + j)
    let part := (List.range 32).map fun u => nth 0 xs (32 * j + u)
    let (z, good) := coneBlock (f32val g.stA) hdr codes side part (ex j) y.1
    (z, if good then y.2 else y.2 ++ [nb * i + j])) ((0, 0), [])
  (rows.map fun y => (numOf (sIn * y.1.1)).to32, rows.flatMap (·.2))

/-- B decoded to FP32, row by row of `rPad`, and its malformed blocks. -/
def State.graftB (s : State) (g : Graft) (baseB : Nat) : List Num × List Nat :=
  let bs := (List.range (g.eB / 32)).map fun k => (k, s.weightVals g.cone baseB g.eB k (f32val g.stB))
  (bs.flatMap fun p => p.2.getD (List.replicate 32 (.zero false)), (bs.filter fun p => p.2.isNone).map (·.1))

/-- What a graft operation works on. -/
structure GraftCtx where
  g : Graft
  idx : Nat
  k : GraftCall
  /-- Sapwood range of the call record. -/
  call : Nat × Nat
  /-- Block, status record and region addresses; the active bank's address and the other's. -/
  block : Nat
  status : Nat
  region : Nat
  active : Nat
  other : Nat
  enabled : Bool
  sIn : Rat

/-- Checks shared by the three functions: call record, block, ranges (R238, Table 8-5). -/
def State.graftCtx (s : State) (b : Nat) (t : Task) (c : Canopy) (w : OpWord) : Issue GraftCtx := do
  let idx := w.b / 2 ^ 22 % 1024
  let rec_ := 64 * (w.b % 2 ^ 17)
  let x := s.bough b
  if 6 * 2 ^ 20 < rec_ + 64 then shape
  if x.sapPending rec_ 64 then .error .dep
  match c.grafts[idx]? with
  | none => .error (.fault .badGraft (wordOf idx))
  | some g =>
    let k := parseCall (x.sapBytes rec_ 64)
    if !s.graftBlockOk c t.graftState (fld t.trec.context 17 0) then .error (.fault .badGraft (wordOf idx))
    if k.vecs = 0 ∨ 256 < k.vecs then shape
    let (en, bank) := smGet (false, false) t.grafts idx
    let region := t.graftState + g.region
    return { g := g, idx := idx, k := k, call := (rec_, 64), block := t.graftState, status := t.graftState + 64 + 64 * idx, region := region,
             active := region + b2n bank * g.bankBytes, other := region + b2n (!bank) * g.bankBytes, enabled := en,
             sIn := f32val (t.scale c g.inTensor).s }

/-- Sapwood ranges are in the space and their data has arrived. -/
def Bough.rangesReady (x : Bough) (rs : List (Nat × Nat)) : Issue Unit :=
  if rs.any fun r => decide (6 * 2 ^ 20 < r.1 + r.2) then shape
  else if rs.any fun r => x.sapPending r.1 r.2 then .error .dep
  else .ok ()

/-- Malformed blocks of a graft's weights fault the task once the operation's writes are made (R120). -/
def State.graftBad (s : State) (b : Nat) (g : Graft) (bad : List Nat) : State :=
  match bad with
  | [] => s
  | m :: _ => (s.onBough b fun x => x.onLast fun e => { e with badBlocks := e.badBlocks + bad.length }).faultTask b .badBlock (wordOf (at_ g.outTensor 20 + m % 2 ^ 20))

/-- Note reads of sapwood ranges, and of HBM ranges (R319, R320). -/
def State.noteRanges (s : State) (b : Nat) (sap hbm : List (Nat × Nat)) : State :=
  hbm.foldl (fun s r => s.noteAt b (.hbm r.1) r.2) (s.onBough b fun x => sap.foldl (fun x r => x.noteRead r.1 r.2) x)

/-- What a GRAFT_APPLY holds and notes (R239), and the malformed blocks that it met. -/
def State.graftApplyRun (s : State) (b : Nat) (t : Task) (q : GraftCtx) : State × List Nat :=
  let g := q.g
  let x := s.bough b
  let (bv, badB) := s.graftB g (q.active + nth 0 g.bankOffs 1)
  let zs := (List.range q.k.vecs).map fun v => let (xs, ex) := x.graftX q.k g.n v; s.graftZ g q.active q.sIn xs ex
  let words := zs.map fun z => (List.range g.m).map fun o =>
    if q.enabled then numWord (mulN (f32num g.alpha) ((List.range g.rank).foldl (fun y r => fmaN (nth .nan bv (o * g.rPad + r)) (nth .nan z.1 r) y) (.zero false))) else 0
  let runs := words.zipIdx.map fun p => (q.k.dAddr + p.2 * q.k.dStride, p.1.flatMap fun v => leBytes 4 v.toNat)
  ((s.noteRanges b (q.call :: q.k.xRanges g.n) [(q.active, g.bankNeed)]).onBough b fun y =>
    (y.holdJoin x.held.length t.id .sap runs ((q.k.xRanges g.n).findSome? fun r => x.sapMark r.1 r.2)).onTask t.id fun t =>
      { t with deltas := (q.idx, y.here.1, words.flatMap id) :: t.deltas },
   if q.enabled then badB ++ zs.flatMap (·.2) else [])

/-- GRAFT_APPLY (R239). -/
def opGraftApply (b : Nat) (s : State) (t : Task) (c : Canopy) (w : OpWord) : Issue State := do
  let q ← s.graftCtx b t c w
  (s.bough b).rangesReady (q.k.xRanges q.g.n)
  (s.bough b).rangesReady (q.k.dRanges q.g.m)
  let r := s.graftApplyRun b t q
  let s2 ← s.commitCount b (ceilDiv (q.k.vecs * q.g.m * 4) 64) r.1
  return (s2.advance b).graftBad b q.g r.2

/-- Held HBM writes of an older epoch to a range that a graft call reads: it waits for them. -/
def Bough.hbmReady (x : Bough) (rs : List (Nat × Nat)) : Issue Unit :=
  rs.foldlM (fun _ r => match x.heldRange .hbm r.1 r.2 with
    | some own => if own then shape else .error .dep
    | none => .ok ()) ()

/-- What a GRAFT_GRAD holds and notes (R243), and the malformed blocks that it met. -/
def State.graftGradRun (s : State) (b : Nat) (t : Task) (q : GraftCtx) : State × List Nat :=
  let g := q.g
  let x := s.bough b
  let (bv, badB) := s.graftB g (q.active + nth 0 g.bankOffs 1)
  let vs := List.range q.k.vecs
  let xv := vs.map fun v => x.graftX q.k g.n v
  let zs := xv.map fun p => s.graftZ g q.active q.sIn p.1 p.2
  let ds := vs.map fun v => (List.range g.m).map fun o => fp32.decode (leNat (x.sapBytes (q.k.dAddr + v * q.k.dStride + 4 * o) 4))
  let alpha := f32num g.alpha
  let us := ds.map fun d => (List.range g.rank).map fun r =>
    mulN alpha ((List.range g.m).foldl (fun y o => fmaN (nth .nan bv (o * g.rPad + r)) (nth .nan d o) y) (.zero false))
  let n : Rat := (q.k.vecs : Nat)
  let (bSide, k0, kn) := g.partOf q.k.part
  let realX := fun (v k : Nat) => match xv[v]? with
    | some (xs, ex) => if ex (k / 32) = -128 then .zero false else (numOf (nth 0 xs k * pow2 (ex (k / 32)) * q.sIn)).to32
    | none => Num.zero false
  let elem := fun (i : Nat) =>
    if bSide then
      let o := i / g.rPad
      let r := i % g.rPad
      if g.rank ≤ r then Num.zero false
      else mulN (numOf (f32val g.alpha / n)).to32 (vs.foldl (fun y v => fmaN (nth .nan (nth [] ds v) o) (nth .nan ((nth ([], []) zs v).1) r) y) (.zero false))
    else
      let r := i / g.nPad
      let k := i % g.nPad
      if g.n ≤ k then Num.zero false
      else match vs.foldl (fun y v => fmaN (nth .nan (nth [] us v) r) (realX v k) y) (.zero false) with
        | .fin z => (numOf (z / n)).to32
        | z => z
  let enc := (List.range kn).map fun j => encodeScaled .e5m2 (f32val g.stG) ((List.range 32).map fun u => elem (32 * (k0 + j) + u))
  let base := q.region + 2 * g.bankBytes + g.gradOff bSide
  let runs := [(base + 32 * k0, enc.flatMap (·.1)), (base + g.elems bSide + k0, enc.map (·.2.1))]
  let nf := (ds.flatMap id |>.filter fun d => !d.isFinite).length
  let sap := q.k.xRanges g.n ++ q.k.dRanges g.m
  ((s.noteRanges b (q.call :: sap) [(q.active, g.bankNeed)]).onBough b fun y =>
    (y.holdJoin x.held.length t.id .hbm runs (sap.findSome? fun r => x.sapMark r.1 r.2)).onTask t.id fun t =>
      { t with graftClips := (q.idx, y.here.1, nsum (enc.map (·.2.2))) :: t.graftClips,
               graftNonfinite := if nf = 0 then t.graftNonfinite else (q.idx, y.here.1, nf) :: t.graftNonfinite },
   badB ++ zs.flatMap (·.2))

/-- GRAFT_GRAD (R243): one part of the gradients. -/
def opGraftGrad (b : Nat) (s : State) (t : Task) (c : Canopy) (w : OpWord) : Issue State := do
  let q ← s.graftCtx b t c w
  if !q.g.trainable ∨ q.g.parts ≤ q.k.part then .error (.fault .badGraft (wordOf q.idx))
  (s.bough b).rangesReady (q.k.xRanges q.g.n)
  (s.bough b).rangesReady (q.k.dRanges q.g.m)
  let r := s.graftGradRun b t q
  let s2 ← s.commitLines b r.1
  return (s2.advance b).graftBad b q.g r.2

/-- The optimiser on one element (R244), every operation rounded to FP32: w1, m1, v1. -/
def graftUpdate (g : Graft) (lrScale : Word) (w m v grad : Num) : Num × Num × Num :=
  let f := f32num
  let sc := if lrScale = 0 then numOf 1 else f32num lrScale
  let lr := mulN (f g.lr) sc
  let one := fun (beta : Word) => addN (numOf 1) (numNeg (f beta))
  let m1 := addN (mulN (f g.beta1) m) (mulN (one g.beta1) grad)
  let v1 := addN (mulN (f g.beta2) v) (mulN (mulN (one g.beta2) grad) grad)
  let root := match v1 with | .fin z => numOf (sqrt32 z) | z => z
  let den := addN root (f g.eps)
  let quo := match m1, den with
    | .nan, _ => Num.nan
    | _, .nan => .nan
    | .inf _, .inf _ => .nan
    | .inf a, _ => .inf a
    | y, .inf _ => .zero y.neg
    | y, z => if y.val = 0 then y else (numOf (y.val / z.val)).to32
  let w1 := addN w (numNeg (mulN lr (addN quo (mulN (f g.decay) w))))
  (w1, m1, v1)

/-- Entries of a graft among a task's saturations and among its nonfinite inputs. -/
def Task.flushMark (t : Task) (g : Nat) : Nat × Nat := ((t.graftClips.filter (·.1 == g)).length, (t.graftNonfinite.filter (·.1 == g)).length)

/-- Saturations and nonfinite inputs of a graft's calls that no status write of the task has taken yet; the lists hold the newest entry first (R243). -/
def Task.unflushed (t : Task) (g : Nat) : Nat × Nat :=
  let taken := (t.graftFlushed.find? (·.1 == g)).elim (0, 0) (·.2.2)
  let rest := fun (l : List (Nat × Nat × Nat)) (n : Nat) => let own := l.filter (·.1 == g); nsum ((own.take (own.length - n)).map (·.2.2))
  (rest t.graftClips taken.1, rest t.graftNonfinite taken.2)

/-- Counts of a task's retired graft calls that its STEP calls have not written reach the status records when it ends (R243, log entry 154). -/
def State.flushGrafts (s : State) (t : Task) : State :=
  let old := fun (l : List (Nat × Nat × Nat)) => l.filter fun p => p.2.1 == 65536
  let t1 := { t with graftClips := old t.graftClips, graftNonfinite := old t.graftNonfinite, graftFlushed := t.graftFlushed.filter fun p => p.2.1 == 65536 }
  (((t1.graftClips ++ t1.graftNonfinite).map (·.1)).eraseDups).foldl (fun (s : State) g =>
    let (c, n) := t1.unflushed g
    let a := t.graftState + 64 + 64 * g
    if c + n = 0 then s
    else s.hbmWrite (a + 12) (leBytes 4 (min (2 ^ 32 - 1) (s.hbmNat (a + 12) 4 + c)) ++ leBytes 4 (min (2 ^ 32 - 1) (s.hbmNat (a + 16) 4 + n)))) s

/-- Every part of a graft's step is done once this call's part is. -/
def Task.stepsWhole (t : Task) (q : GraftCtx) : Bool :=
  (List.range q.g.parts).all fun p => p == q.k.part || t.stepParts.any fun d => d.1 == q.idx && d.2.2 == p

/-- Where a graft call's gradients lie: their region and its first block and number of blocks. -/
def GraftCtx.gradAt (q : GraftCtx) : Nat × Nat × Nat :=
  let (bSide, k0, kn) := q.g.partOf q.k.part
  (q.region + 2 * q.g.bankBytes + q.g.gradOff bSide, k0, kn)

/-- What a GRAFT_STEP holds and notes (R244), and the malformed blocks that it met. -/
def State.graftStepRun (s : State) (b : Nat) (t : Task) (q : GraftCtx) : State × List Nat :=
  let g := q.g
  let x := s.bough b
  let (bSide, k0, kn) := g.partOf q.k.part
  let e := g.elems bSide
  let off := fun (i : Nat) => nth 0 g.bankOffs (i + b2n bSide)
  let gradBase := q.gradAt.1
  let st := f32val (if bSide then g.stB else g.stA)
  let blocks := (List.range kn).map fun j =>
    let k := k0 + j
    let wv := s.weightVals g.cone (q.active + off 0) e k st
    let mv := s.scaledBlock .e4m3 (q.active + off 2) e k (f32val g.stM)
    let vv := s.scaledBlock .uint8 (q.active + off 4) e k (f32val g.stV)
    let gv := s.scaledBlock .e5m2 gradBase e k (f32val g.stG)
    let r := (List.range 32).map fun u =>
      graftUpdate g q.k.lrScale (nth (.zero false) (wv.getD []) u) (nth .nan mv u).to32 (nth .nan vv u).to32 (nth .nan gv u).to32
    let ew := if g.cone then
        let (hdr, codes, side, clips) := coneEncode st (16 * k) (r.map fun p => p.1.val)
        ([(q.other + off 0 + 16 * k, (List.range 16).map fun i => byteOf (nth 7 codes (2 * i) + 16 * nth 7 codes (2 * i + 1))),
          (q.other + off 0 + e / 2 + 4 * k, leBytes 4 hdr.toNat), (q.other + off 0 + e / 2 + e / 8 + 2 * (16 * k), side.flatMap (leBytes 2))], clips)
      else
        let (bs, sb, clips) := encodeScaled .int8 st (r.map (·.1))
        ([(q.other + off 0 + 32 * k, bs), (q.other + off 0 + e + k, [sb])], clips)
    let em := encodeScaled .e4m3 (f32val g.stM) (r.map fun p => p.2.1)
    let ev := encodeScaled .uint8 (f32val g.stV) (r.map fun p => p.2.2)
    (ew.1 ++ [(q.other + off 2 + 32 * k, em.1), (q.other + off 2 + e + k, [em.2.1]), (q.other + off 4 + 32 * k, ev.1), (q.other + off 4 + e + k, [ev.2.1])],
     ew.2 + em.2.2 + ev.2.2, if wv.isNone then [k] else [])
  let bad := blocks.flatMap (·.2.2)
  let clips := nsum (blocks.map (·.2.1))
  let done := (q.idx, x.here.1, q.k.part) :: t.stepParts
  -- No GRAFT_GRAD of the task, of whatever graft, met a nonfinite input.
  let flips := t.stepsWhole q && t.graftNonfinite.isEmpty
  let t1 := { t with stepParts := done, graftClips := (q.idx, x.here.1, clips) :: t.graftClips }
  let (allClips, nf) := t1.unflushed q.idx
  let sat := fun (o n : Nat) => leBytes 4 (min (2 ^ 32 - 1) (s.hbmNat (q.status + o) 4 + n))
  let flags := s.hbmNat q.status 1
  let rec_ := [(q.status, [byteOf (if flips then flags ^^^ 2 else flags)]),
               (q.status + 4, sat 4 (b2n flips) ++ sat 8 (b2n !flips) ++ sat 12 allClips ++ sat 16 nf)]
  ((s.noteRanges b [q.call] [(q.active, g.bankNeed), (gradBase + 32 * k0, 32 * kn)]).onBough b fun y =>
    let y1 := y.holdJoin x.held.length t.id .hbm (blocks.flatMap (·.1)) none
    let cut := y1.held.length
    -- The status record's line follows every other line of the task (R245).
    let y2 := if q.k.last then let z := y1.holdJoin cut t.id .hbm rec_ none
        { z with held := z.held.take cut ++ (z.held.drop cut).map fun h => { h with status := true } } else y1
    y2.onTask t.id fun _ => if q.k.last then { t1 with graftFlushed := (q.idx, x.here.1, t1.flushMark q.idx) :: t1.graftFlushed } else t1,
   bad)

/-- GRAFT_STEP (R244): one part of the optimiser step into the inactive bank; the last call writes the status record. -/
def opGraftStep (b : Nat) (s : State) (t : Task) (c : Canopy) (w : OpWord) : Issue State := do
  let q ← s.graftCtx b t c w
  let x := s.bough b
  if !q.g.trainable ∨ q.g.parts ≤ q.k.part then .error (.fault .badGraft (wordOf q.idx))
  let (gradBase, k0, kn) := q.gradAt
  x.hbmReady [(gradBase + 32 * k0, 32 * kn), (gradBase + q.g.elems (q.g.partOf q.k.part).1 + k0, kn)]
  -- A status line of an older epoch lands before the record is read.
  if q.k.last && x.heldRange .hbm q.status 20 == some false then .error .dep
  let r := s.graftStepRun b t q
  let s2 ← s.commitLines b r.1
  let s3 := (s2.advance b).graftBad b q.g r.2
  return if q.k.last && !t.stepsWhole q then s3.faultTask b .badGraft (wordOf q.idx) else s3

end Sys2Proof.Machine
end

