-- ==== Sys2Proof/Machine/IssueOps.lean ====
section
/-! DEFINITION. Issue of whatever operation a twig stands at, for the events that let a stalled twig go on (R177, R200). -/

namespace Sys2Proof.Machine

/-- NOP (Table 7-3). -/
def opNop (b : Nat) (s : State) (_t : Task) (_c : Canopy) (_w : OpWord) : Issue State := .ok (s.advance b)

/-- The effect of an operation word at issue, by opcode (Table 7-3). -/
def opAny (b : Nat) (s : State) (t : Task) (c : Canopy) (w : OpWord) : Issue State :=
  match w.opcode with
  | 0x00 => opNop b s t c w
  | 0x01 => opFetch b s t c w
  | 0x02 => opStore b s t c w
  | 0x03 => opDrive b s t c w
  | 0x04 => opCombine3 b s t c w
  | 0x05 => opRescale b s t c w
  | 0x06 => opTable b s t c w
  | 0x07 => opCvt b s t c w
  | 0x08 =>
    match w.a with
    | 0x80 => opGraftApply b s t c w
    | 0x81 => opGraftGrad b s t c w
    | 0x82 => opGraftStep b s t c w
    | _ => opVec b s t c w
  | 0x09 => opCone b s t c w
  | 0x0A => opXsend b s t c w
  | 0x0B => opXrecv b s t c w
  | 0x0C => opKsig b s t c w
  | 0x0D => opKwait b s t c w
  | 0x0E => opLoop b s t c w
  | 0x0F => opLbnd b s t c w
  | _ => opEnd b s t c w

/-- Issue the present operation of bough `b`, whatever it is. -/
def State.issueAny (s : State) (b : Nat) : State := s.issueIf b (fun _ => true) (opAny b)

/-- The word is VEC with a function code. -/
def OpWord.isVec (w : OpWord) (code : Nat) : Bool := w.opcode == 8 && w.a == code

end Sys2Proof.Machine
end

