-- ==== Sys2Proof/Machine/LeafRun.lean ====
section
/-! DEFINITION. Execution of leaf-phases: codes, drive monitors, trims, correction, the arithmetic check and what reaches the accumulator (chapters 02, 03 and 14). -/

namespace Sys2Proof.Machine

/-- Driven sum of every physical column: Σ over rows of digit × level. -/
def Leaf.colSums (lf : Leaf) (digits : SMap Nat) : SMap Nat :=
  lf.cells.foldl (fun m p =>
    let u := smGet 0 digits (p.1 / 1152)
    if u = 0 then m else smUpd 0 m (p.1 % 1152) (· + u * p.2)) []

/-- Codes of all 1,152 columns in one phase (R41, R43): reference columns follow their comparison current. -/
def Leaf.phaseCodes (lf : Leaf) (j : PhaseJob) (k : Nat) (o : PhaseObs) : List Nat :=
  let sums := lf.colSums j.digits
  (List.range 1152).map fun c =>
    if 1088 ≤ c ∧ c < 1120 then (clampI 0 255 (ni (smGet 192 lf.factoryCode (c - 1088)) + smGet 0 o.refDev (c - 1088))).toNat
    else codeOf (((2 ^ k * smGet 0 sums c : Nat) : Rat) / ((3 * j.sumU : Nat) : Rat)) (smGet 0 o.dev c)

/-- Slice columns of data and checksum logical columns, as served (R138). -/
def Leaf.counted (lf : Leaf) : List Nat :=
  (List.range (logicals lf.width + checkGroups lf.width)).flatMap fun j =>
    (List.range (offsetAt lf.width)).map fun o => servedBy lf.remap (firstCol lf.width j + o)

/-- P̂ of a logical column (checksum columns from `logicals` on) from the codes and gains (R45, R70). -/
def Leaf.reconstruct (lf : Leaf) (gains : SMap Rat) (codes : List Nat) (sumU k j : Nat) : Rat :=
  let w := lf.width
  let val := fun (o : Nat) => let c := servedBy lf.remap (firstCol w j + o); nr (nth 0 codes c) * smGet 1 gains c
  let off := val (offsetAt w)
  let sum := rsum ((List.range (offsetAt w)).map fun o => match nth none (sliceAt w) o with
    | some sl => nr (4 ^ sl) * (val o - off) / nr (copies w sl)
    | none => 0)
  sum * nr (3 * sumU) / nr (2 ^ (8 + k))

/-- End of a restore window: a raised range shift takes effect at the next tile issued (R146). -/
def State.endRangeWindow (s : State) (b k : Nat) (second : Bool) : State :=
  let l := s.leaf k
  let (n, top) := if second then l.winSecond else l.winFirst
  if n < 4096 then s
  else
    let cur := if second then l.rangeSecond else l.rangeFirst
    let img := if second then l.imgRangeSecond else l.imgRangeFirst
    let waits := if second then l.raiseSecond else l.raiseFirst
    let up := bit (s.bough b).qntNow 7 && !waits && decide (cur.toNat < img.toNat) && decide (top ≤ 119)
    let s1 := s.onLeaf k fun l => if second then { l with raiseSecond := waits || up, winSecond := (0, 0) } else { l with raiseFirst := waits || up, winFirst := (0, 0) }
    if up then s1.onBough b fun x => { x with rangeRaised := satInc x.rangeRaised } else s1

/-- Phases waiting on leaf `k` are refused: its role is not ACTIVE (R54, R184). -/
def State.refusePhases (s : State) (b k : Nat) : State :=
  let l := s.leaf k
  let s1 := s.onLeaf k fun l => { l with jobs := [], errStatus := l.errStatus ||| 4#5 }
  l.jobs.foldl (fun (s : State) j => s.onBough b fun x => x.onEpoch j.epoch fun e =>
    let slot := match e.ckpt.slotMap.find? fun p => p.2 == k with | some p => p.1 | none => 0
    { e with phasesLeft := e.phasesLeft - b2n (j.sumU != 0), fails := if e.fails.contains (.leafState slot) then e.fails else e.fails ++ [.leafState slot] }) s1

/-- Parity errors of a phase (R162, R316, R328). -/
def State.phaseParity (s : State) (b k : Nat) (o : PhaseObs) : State :=
  if !o.codeParity && !o.driveParity then s
  else
    let now := s.trunk.time
    let s1 := (s.onBough b fun x =>
      { x with pipeErr := x.pipeErr ||| (if o.codeParity then 1#5 else 0#5) ||| (if o.driveParity then 2#5 else 0#5),
               parityLog := if o.codeParity then (now, k) :: x.parityLog.filter fun p => decide (now ≤ p.1 + 10) else x.parityLog }).record
      .parity (uLeaf k) { source := 3, detail := 1 }
    if o.codeParity && decide (4 ≤ ((s1.bough b).parityLog.map (·.2)).eraseDups.length) then s1.fenceBough b 7 else s1

/-- A phase directed to an ACTIVE leaf without a valid slot is held, and the trunk measures the leaf at once (R54, R69): an automatic measurement, which the spacing of R78 follows. A tile whose first phase this is latches its trims when it issues (R70). -/
def State.holdPhase (s : State) (b k : Nat) (j : PhaseJob) : State :=
  let s1 := s.onBough b fun x => x.onEpoch j.epoch fun e => if e.phases = 0 then { e with gains := smErase e.gains k } else e
  let s2 := s1.startMeas k 7
  if (s.leaf k).meas.isNone then s2.onLeaf k fun l => { l with spacing := true } else s2

/-- Trims of a phase's tile on its leaf: those latched, or those of now where the tile's first phase was held (R69, R70). -/
def State.phaseEpoch (s : State) (b k : Nat) (e : Epoch) : Epoch :=
  if (smFind e.gains k).isSome then e
  else e.latchLeaf (s.leaf k) k (match (s.bough b).find e.task with | some t => t.calSel | none => 0) s.bud.loadPct.toNat

/-- Execute the next phase of leaf `k` with what it measures (R55). -/
def State.runPhase (s : State) (b k : Nat) (o : PhaseObs) : State :=
  let l := s.leaf k
  match l.jobs with
  | [] => s
  | j0 :: rest0 =>
    if l.role ≠ Role.active then s.refusePhases b k
    else if l.validSlots.isEmpty then s.holdPhase b k j0
    else
      -- A first phase whose digits are all 0 is not executed (R46).
      let skip := j0.sumU == 0
      let j := if skip then rest0.head?.getD j0 else j0
      let rest := if skip then rest0.drop 1 else rest0
      let l0 := if skip then { l with pFirst := [], sigFirst := 0, firstBad := false, codesFirst := List.replicate 1152 0, digitsFirst := List.replicate 1024 0 } else l
      let sA := ((s.onLeaf k fun _ => l0).endDriftBlock k |>.endRangeWindow b k j.second)
      let lf := sA.leaf k
      match (sA.bough b).epochs.find? (·.num == j.epoch) with
      | none => sA.onLeaf k fun l => { l with jobs := rest }
      | some e0 =>
        let e := sA.phaseEpoch b k e0
        let used := smFind e.mism k
        let mis : Bool := match used with | some u => loadMismatch u.2.1 s.bud.loadPct.toNat | none => false
        let kr := j.shift
        let codes := lf.phaseCodes j kr o
        let blocks := mismatchBlocks (fun i => nsum ((List.range 64).map fun r => smGet 0 j.digits (64 * i + r))) fun i => smGet 0 o.monitor i
        let cnt := lf.counted.map (nth 0 codes)
        let hi := (cnt.filter (· == 255)).length
        let lo := (cnt.filter (· == 0)).length
        let top := cnt.foldl max 0
        let bad := !blocks.isEmpty || o.codeParity || o.driveParity
        let pos := j.second
        let s1 := sA.onLeaf k fun l =>
          { l with jobs := rest, mismatchHold := false, phaseCnt := l.phaseCnt + 1,
                   lastCode := (List.range 32).map fun q => (q, nth 0 codes (1088 + q)), driftN := l.driftN + 1,
                   driftSum := (List.range 32).foldl (fun m q => smUpd 0 m q (· + nth 0 codes (1088 + q))) l.driftSum,
                   winFirst := if pos then l.winFirst else (l.winFirst.1 + 1, max l.winFirst.2 top),
                   winSecond := if pos then (l.winSecond.1 + 1, max l.winSecond.2 top) else l.winSecond,
                   mismatchActive := mis, mismatchNow := l.mismatchNow || mis, mismatchSlot := if mis then (used.map (·.1)).getD 0 else l.mismatchSlot,
                   mismatchLoad := if mis then (used.map (·.2.1)).getD 0 else l.mismatchLoad, mismatchGen := if mis then (used.map (·.2.2)).getD 0 else l.mismatchGen }
        let s2 := s1.onBough b fun x =>
          let y := x.onEpoch j.epoch fun e =>
            { sA.phaseEpoch b k e with phasesLeft := e.phasesLeft - 1, phases := e.phases + 1, fails := e.fails ++ (if !blocks.isEmpty then [.markedFailed k] else []) ++ (if o.codeParity || o.driveParity then [.parity k] else []) }
          y.stat j.epoch j.tensor fun st =>
            { st with hi := st.hi + hi, lo := st.lo + lo, hiAt := if hi ≠ 0 ∧ kr ≠ 0 ∧ !st.hiAt.contains (k, pos) then st.hiAt ++ [(k, pos)] else st.hiAt }
        let gains := smGet [] e.gains k
        let n := logicals lf.width + checkGroups lf.width
        let ps := (List.range n).map (lf.reconstruct gains codes j.sumU kr)
        let m : Rat := if j.twoPhase && !j.second then 16 else 1
        let sig := (m * nr (3 * j.sumU) / nr (2 ^ (8 + kr))) * (m * nr (3 * j.sumU) / nr (2 ^ (8 + kr)))
        let cb := codes.map byteOf
        let db := (List.range 1024).map fun r => byteOf (smGet 0 j.digits r)
        let s3 :=
          if j.twoPhase && !j.second then
            let s4 := s2.onLeaf k fun l => { l with pFirst := ps.zipIdx.map fun p => (p.2, p.1), sigFirst := sig, firstBad := bad, codesFirst := cb, digitsFirst := db }
            match rest with
            | j2 :: rest2 =>
              -- A second phase whose digits are all 0 ends the vector at once (R46).
              if j2.sumU = 0 then
                let s5 := s4.onLeaf k fun l => { l with jobs := rest2 }
                s5.finishVector bad b k j2 (fun c => 16 * nth 0 ps c) sig [cb, List.replicate 1152 0] (db ++ List.replicate 1024 0)
              else s4
            | [] => s4
          else
            let f := s2.leaf k
            if j.twoPhase then s2.finishVector (bad || f.firstBad) b k j (fun c => 16 * smGet 0 f.pFirst c + nth 0 ps c) (f.sigFirst + sig) [f.codesFirst, cb] (f.digitsFirst ++ db)
            else s2.finishVector bad b k j (nth 0 ps) sig [cb] db
        let s6 := if blocks.isEmpty then s3 else s3.driveMismatch k blocks (s3.leaf k).phaseCnt.toNat
        s6.phaseParity b k o

end Sys2Proof.Machine
end

