-- ==== Sys2Proof/Machine/RetireOps.lean ====
section
/-! DEFINITION. Retirement: the judgement of an epoch, squashes, failed retirements, and the release of held lines (R178 to R186, R140 to R145). -/

namespace Sys2Proof.Machine

-- Bias monitor (R324).

/-- The window of a check group is full: it trips or restarts. -/
def State.endBiasWindow (s : State) (k g : Nat) : State :=
  let l := s.leaf k
  let b := smGet {} l.bias g
  if b.n < 4096 then s
  else
    let s1 := s.onLeaf k fun l => { l with bias := smErase l.bias g }
    -- |S_D| > 6·√S_v + 0.001·N·32·FS.
    let lin : Rat := nr (b.n * 32 * b.fs) / 1000
    let dev := rabs b.sD - lin
    if decide (0 < dev) && decide (36 * b.sV < dev * dev) then
      let sat := clampI (-(2 ^ 63)) (2 ^ 63 - 1) b.sD
      ((s1.onLeaf k fun l => { l with biasTrips := l.biasTrips + 1 }).record .bias (uLeaf k)
        { source := 4, detail := g, detail2 := toBits 64 sat }).startDiag k (.bias g)
    else s1

/-- Add the evaluations of a retired epoch to the monitors; those of unavailable groups have stopped (R326; log entry 162). -/
def State.addEvals (s : State) (evals : List (Nat × Nat × Int × Rat × Nat)) : State :=
  evals.foldl (fun (s : State) ev =>
    let (k, g, d, v, fs) := ev
    let s1 := s.endBiasWindow k g
    if (s1.leaf k).unavailable g then s1
    else s1.onLeaf k fun l => { l with bias := smUpd {} l.bias g fun b => { sD := b.sD + d, sV := b.sV + v, n := b.n + 1, fs := fs } }) s

-- Saturation (R140 to R145).

/-- Step 1 of R140 holds for a tensor's statistics. -/
def Quant.convOver (q : Quant) (st : TStats) : Bool := q.convSatLimit != 0xFFFF && decide (q.convSatLimit < st.hi) && !st.hiAt.isEmpty

/-- The clips of a tensor exceed its limit. -/
def Quant.clipOver (q : Quant) (st : TStats) : Bool := q.clipLimit != 0xFFFF && decide (q.clipLimit < st.clips)

/-- What a tile's saturation calls for. -/
structure SatJudge where
  /-- Tensors of step 1 and of step 2. -/
  conv : List Nat
  clip : List Nat
  /-- Positions whose range shift can be lowered. -/
  lower : List (Nat × Bool)
  /-- Tensors whose doubling count can rise. -/
  double : List Nat
  deriving DecidableEq, Repr

/-- Judge the saturation of an epoch. -/
def State.judgeSat (s : State) (c : Canopy) (t : Task) (e : Epoch) : SatJudge :=
  let conv := (e.stats.filter fun p => (c.quant p.1).convOver p.2).map (·.1)
  let clip := (e.stats.filter fun p => (c.quant p.1).carries && (c.quant p.1).clipOver p.2).map (·.1)
  let pos := (conv.flatMap fun i => (smGet {} e.stats i).hiAt).eraseDups
  { conv := conv, clip := clip,
    lower := pos.filter fun p => let l := s.leaf p.1; decide (0 < (if p.2 then l.rangeSecond else l.rangeFirst).toNat),
    double := clip.filter fun i => decide (smGet 0 t.dbl i < 8) }

/-- Record field layout of BGH_QNT_LAST_EVENT (Table 6-6). -/
def satEvent (j : SatJudge) (ctx : Nat) : Word :=
  let all := (j.conv ++ j.clip).foldl insertN []
  wordOf (at_ (b2n (!j.conv.isEmpty) + 2 * b2n (!j.clip.isEmpty)) 30 + at_ (all.headD 0) 18 + ctx % 2 ^ 18)

/-- Counts kept for the replay of an epoch. -/
def Bough.recount (x : Bough) (e : Epoch) : Bough :=
  { x with replay := x.replay.filter (fun r => r.1 != e.num) ++ [(e.num, e.checkFails, e.satSquashes, e.ckpt.slotMap)] }

/-- The saturation squash of the oldest epoch (R141). -/
def State.satSquash (s : State) (b : Nat) (t : Task) (e : Epoch) (j : SatJudge) : State :=
  let tensors := (j.conv ++ j.clip).foldl insertN []
  let s1 := j.lower.foldl (fun (s : State) p => s.onLeaf p.1 fun l =>
    if p.2 then { l.setRange l.rangeFirst (l.rangeSecond - 1) with winSecond := (0, 0), raiseSecond := false } else { l.setRange (l.rangeFirst - 1) l.rangeSecond with winFirst := (0, 0), raiseFirst := false }) s
  let s2 := s1.onBough b fun x =>
    (({ x with qntSquashCnt := satInc x.qntSquashCnt, qntLast := satEvent j (fld t.trec.context 17 0), rangeLowered := satAdd x.rangeLowered j.lower.length }).recount
      { e with satSquashes := e.satSquashes + 1 }).onTask t.id fun t =>
        { t with satSquashes := t.satSquashes + 1, dbl := j.double.foldl (fun m i => smUpd 0 m i (· + 1)) t.dbl,
                 adaptWanted := tensors.foldl insertN t.adaptWanted, squashTensor := tensors.foldl (fun m i => smUpd 0 m i (· + 1)) t.squashTensor }
  s2.squashFrom b 0

-- Check failures (R179, R183, R184).

/-- A fault that is not replayed: cause and detail (Table 11-4). -/
def EpochFail.final : EpochFail → Option (Cause × Word)
  | .leafState slot => some (.leafState, wordOf (at_ slot 16))
  | .descriptor a => some (.descriptor, wordOf a)
  | .poison a => some (.poison, wordOf (a / 64))
  | .peerReset d => some (.peerReset, d)
  | _ => none

/-- Check group and physical leaf that a check failure names; 15 and 31 where it names none. -/
def EpochFail.place : EpochFail → Nat × Nat
  | .check k g _ _ _ _ => (g, k % 18)
  | .markedFailed k | .parity k => (15, k % 18)
  | _ => (15, 31)

/-- Cause code of BGH_RA_LAST_SQUASH (Table 7-11). -/
def EpochFail.squashCause : EpochFail → Nat
  | .check .. => 1
  | .markedFailed _ => 2
  | _ => 3

/-- Value of BGH_RA_LAST_SQUASH. -/
def lastSquashWord (cause : Nat) (place : Nat × Nat) (epoch : Nat) : Word := wordOf (at_ cause 29 + at_ place.1 25 + at_ place.2 20 + epoch % 65536)

/-- The PARITY record of a memory read that failed an epoch (R316). -/
def State.noteParity (s : State) (b : Nat) (f : EpochFail) : State :=
  match f with
  | .memParity l => s.record .parity (uBough b) { source := 3, detail := 2, detail2 := 64 * l }
  | _ => s

/-- The check squash of the oldest epoch (R181, R183). -/
def State.checkSquash (s : State) (b : Nat) (t : Task) (e : Epoch) (f : EpochFail) : State :=
  ((s.noteParity b f).onBough b fun x =>
    (({ x with squashCnt := satInc x.squashCnt, lastSquash := lastSquashWord f.squashCause f.place e.num }).recount { e with checkFails := e.checkFails + 1 }).onTask t.id
      fun t => { t with checkSquashes := t.checkSquashes + 1 }).squashFrom b 0

/-- Give a credit back to the sender of each transfer an epoch consumed, and free its staging (R209). -/
def State.returnCredits (s : State) (b : Nat) (e : Epoch) : State :=
  e.consumed.foldl (fun (s : State) p =>
    let key := 16 * p.1 + p.2
    (s.onBough p.2 fun x => { x with credits := smUpd 0 x.credits p.1 (· - 1) }).onBough b fun x => { x with landed := smUpd [] x.landed key (·.drop 1) }) s

/-- A failed tile is reported to the trunk: record and diagnosis of the leaf (R183, R325). -/
def State.reportCheck (s : State) (b : Nat) (f : EpochFail) : State :=
  match f with
  | .check k g d tau codes digits =>
    let now := s.trunk.time
    let again := match smFind (s.leaf k).lastCheck g with | some t => decide (now - t ≤ 100000) | none => false
    let d32 := toBits 32 (clampI (-(2 ^ 31)) (2 ^ 31 - 1) d)
    ((s.onLeaf k fun l => { l with checkRet := l.checkRet + 1, lastCheck := smSet l.lastCheck g now }).record .checkFail (uLeaf k)
      { source := 3, detail := g, detail2 := at_ d32 32 + min tau (2 ^ 32 - 1), sig := { check := some (d, ni tau, g), codes := codes, digits := digits } }).startDiag k (.check g again)
  | .markedFailed k | .parity k =>
    ((s.onLeaf k fun l => { l with checkRet := l.checkRet + 1 }).record .checkFail (uLeaf k) { source := 3, detail := 15 }).startDiag k (.check 15 false)
  | f => s.noteParity b f

/-- The oldest epoch retires failed (R183, R184): what it holds is discarded and restored, its task ends with a cause, younger epochs of its task vanish and those of later tasks are issued again. -/
def State.retireFailed (s : State) (b : Nat) (e : Epoch) (cause : Cause) (detail : Word) : State :=
  let x := s.bough b
  let others := (x.epochs.drop 1).filter fun y => y.task != e.task
  let mine := (x.epochs.drop 1).filter fun y => y.task == e.task
  -- Its transfers stay consumed and its token taken; its sends are never made.
  let s0 := s.returnCredits b e
  let s1 := s0.onBough b fun x => { x with epochs := x.epochs.map fun y => if y.num = e.num then { y with token := none, consumed := [] } else y }
  let s2 := s1.undoFrom b 0
  State.endDrains (s2.onBough b fun x =>
    let y := x.requeue others
    let drop := fun (l : List Task) => l.filter fun t => t.id != e.task
    let failed := ((x.task.toList ++ x.ending).filter fun t => t.id == e.task).map fun t =>
      { t with fault := some { cause := cause, detail := detail }, issueDone := true }
    { y with
      task := match y.task with | some t => if t.id = e.task then none else some t | none => none,
      ending := failed ++ drop y.ending,
      replay := y.replay.filter fun r => r.1 != e.num && !(mine.any fun z => z.num == r.1),
      nextEpoch := BitVec.ofNat 16 (match others with | z :: _ => z.num | [] => e.num + 1),
      retiredEpoch := BitVec.ofNat 16 e.num, retireCnt := x.retireCnt + 1, failCnt := satInc x.failCnt,
      pipeErr := x.pipeErr ||| 16#5 ||| (if cause = .leafState then 4#5 else 0#5) }) b

-- Normal retirement (R178, R135, R180).

/-- Statistics of a tensor added to others of the same tensor. -/
def TStats.merge (a b : TStats) : TStats :=
  { amax := rmax a.amax b.amax, hi := a.hi + b.hi, lo := a.lo + b.lo, clips := a.clips + b.clips, nonfinite := a.nonfinite + b.nonfinite,
    hiAt := [], real := a.real || b.real, written := a.written || b.written }

/-- An epoch's statistics enter its task's and the bough's counters (R139, R144, R159). -/
def Bough.takeStats (x : Bough) (c : Canopy) (t : Task) (e : Epoch) : Bough :=
  let sum := fun (f : TStats → Nat) => nsum (e.stats.map fun p => f p.2)
  let wanted := (e.stats.filter fun p => (c.quant p.1).clipOver p.2 || (c.quant p.1).convOver p.2).map (·.1)
  ({ x with
    convHiCnt := satAdd x.convHiCnt (sum (·.hi)), convLoCnt := satAdd x.convLoCnt (sum (·.lo)), clipCnt := satAdd x.clipCnt (sum (·.clips)),
    nonfiniteCnt := satAdd x.nonfiniteCnt (sum (·.nonfinite)), badBlockCnt := satAdd x.badBlockCnt e.badBlocks }).onTask t.id fun t =>
      { t with stats := e.stats.foldl (fun (m : SMap TStats) (p : Nat × TStats) => smUpd {} m p.1 fun (st : TStats) => st.merge p.2) t.stats, adaptWanted := wanted.foldl insertN t.adaptWanted,
               nonfinite := t.nonfinite || decide (sum (·.nonfinite) ≠ 0) || t.graftNonfinite.any (·.2.1 == e.num), phases := t.phases + e.phases,
               deltas := t.deltas.map fun (p : Nat × Nat × List Word) => if p.2.1 = e.num then (p.1, 65536, p.2.2) else p,
               stepParts := t.stepParts.map fun (p : Nat × Nat × Nat) => if p.2.1 = e.num then (p.1, 65536, p.2.2) else p,
               graftClips := t.graftClips.map fun (p : Nat × Nat × Nat) => if p.2.1 = e.num then (p.1, 65536, p.2.2) else p,
               graftNonfinite := t.graftNonfinite.map fun (p : Nat × Nat × Nat) => if p.2.1 = e.num then (p.1, 65536, p.2.2) else p,
               graftFlushed := t.graftFlushed.map fun (p : Nat × Nat × Nat × Nat) => if p.2.1 = e.num then (p.1, 65536, p.2.2) else p }

/-- A tile keeps its saturation: the persist counter, and its task's sat_persist and saturation flags, which are set before its checks are judged (R143). -/
def Bough.persist (x : Bough) (t : Task) (tensors : List Nat) : Bough :=
  if tensors.isEmpty then x
  else ({ x with persistCnt := satInc x.persistCnt }).onTask t.id fun t => { t with satPersist := tensors.foldl insertN t.satPersist, saturation := true }

/-- The oldest epoch retires (R178, R180). -/
def State.retireGood (s : State) (b : Nat) (c : Canopy) (t : Task) (e : Epoch) : State :=
  let s1 := (s.returnCredits b e).onBough b fun x =>
    let y := x.takeStats c t e
    { y with
      epochs := y.epochs.drop 1,
      held := (y.held.filter fun h => !(h.epoch == e.num && !h.retired && match h.dest with | .preImage _ => true | _ => false)).map fun h =>
        if h.epoch = e.num then { h with retired := true } else h,
      acc := y.acc.map fun p => if p.2.writer = e.num + 1 then (p.1, { p.2 with writer := 0 }) else p,
      replay := y.replay.filter fun r => r.1 != e.num, retiredEpoch := BitVec.ofNat 16 e.num, retireCnt := y.retireCnt + 1 }
  (s1.addEvals e.evals).endDrains b

/-- The oldest epoch has nothing left to execute and no operation can still join it (R178). -/
def State.canRetire (s : State) (b : Nat) (e : Epoch) : Bool :=
  let x := s.bough b
  let closed := decide (1 < x.epochs.length) || x.draining || (match x.task with | some t => t.id != e.task | none => true)
  let final := e.fails.any fun f => f.final.isSome
  decide (e.phasesLeft = 0) && !(x.contribs.any fun c => c.epoch == e.num) && ((decide (e.opsLeft = 0) && closed) || final)

/-- Judge and retire, squash or fail the oldest epoch (R140, R179). -/
def State.judgeOldest (s : State) (b : Nat) : State :=
  let x := s.bough b
  match x.epochs with
  | [] => s
  | e :: _ =>
    if !s.canRetire b e then s
    else
      let c := (s.canopyOf b).getD {}
      let t := (x.find e.task).getD { id := e.task, queue := 0, sqIndex := 0, trec := {}, cls := 0, hold := false, function := 0 }
      match e.fails.findSome? EpochFail.final with
      | some (cause, detail) =>
        let s1 := s.retireFailed b e cause detail
        let s2 := s1.onBough b fun x => { x with lastSquash := lastSquashWord 4 (15, 31) e.num }
        if cause = .poison then
          s2.record .poison (uBough b) { source := 3, queue := some t.queue, context := some (fld t.trec.context 17 0), detail2 := detail.toNat }
        else s2
      | none =>
        let j := s.judgeSat c t e
        let sat := e.tile && bit e.qnt 6 && !(j.conv.isEmpty && j.clip.isEmpty)
        let possible := decide (e.satSquashes < e.satReplayMax) && !(j.lower.isEmpty && j.double.isEmpty)
        if sat && possible then s.satSquash b t e j
        else
          let marked := if sat then s.onBough b fun x => x.persist t ((j.conv ++ j.clip).foldl insertN []) else s
          match e.fails with
          | f :: _ =>
            if e.checkFails < e.replayMax then s.checkSquash b t e f
            else
              let p := f.place
              let s1 := marked.retireFailed b e .check (wordOf (at_ p.1 25 + at_ p.2 20 + e.num % 65536))
              (s1.onBough b fun x => { x with lastSquash := lastSquashWord 4 p e.num }).reportCheck b f
          | [] => marked.retireGood b c t e

-- Release of held lines (R180).

/-- The first line that may be released. -/
def Bough.frontLine (x : Bough) : Option HeldLine := x.held.find? (·.retired)

/-- Words of HBM that a line's bytes touch. -/
def HeldLine.words (h : HeldLine) (line : Nat) : List Nat := (h.bytes.map fun p => (64 * line + p.1) / 8).eraseDups

/-- Write the bytes of a held line one by one. -/
def HeldLine.put (h : HeldLine) (m : List Host.Cell) (line : Nat) : List Host.Cell := h.bytes.foldl (fun m p => memPut m (64 * line + p.1) p.2) m

/-- A line's bytes as a run, where they are contiguous from the first. -/
def HeldLine.runs (h : HeldLine) : List (Nat × List Byte) :=
  let final := (List.range 64).filterMap fun o => (h.bytes.reverse.find? fun p => p.1 == o).map fun p => (o, p.2)
  final.foldl (fun (rs : List (Nat × List Byte)) p => match rs.getLast? with
    | some r => if r.1 + r.2.length = p.1 then rs.dropLast ++ [(r.1, r.2 ++ [p.2])] else rs ++ [(p.1, [p.2])]
    | none => [(p.1, [p.2])]) []

/-- A held line of a task was answered with an error: the task faults, and no status record of a graft is written for it (R245, R347). -/
def State.loseLine (s : State) (b id : Nat) (c : Cause) (detail : Word) : State :=
  (s.onBough b fun x => x.onTask id fun t => { t with lost := true }).faultTaskId b id c detail

/-- A line of a transfer leaves its sender (R209). The port of a bough that is not enabled is closed: the line is answered with an error and the sender's task faults (R20; log entry 143). -/
def State.sendLine (s : State) (b : Nat) (h : HeldLine) (route seq : Nat) (last : Bool) (tag : Int) : State :=
  match s.canopyOf b with
  | none => s
  | some c =>
    let r := nth ({} : Route) c.routes route
    if !s.allBoughs.contains r.receiver then s.loseLine b h.task .descriptor (wordOf (((r.staging b).getD 0) + (seq % max 1 r.depth) * r.bufferBytes)) else
    let key := 16 * route + b
    let data := (List.range 64).map fun o => ((h.bytes.reverse.find? fun p => p.1 == o).map (·.2)).getD 0
    let add := fun (t : InXfer) => { t with data := t.data ++ data, tags := t.tags ++ [tag], whole := last, poison := match t.poison with | some a => some a | none => h.poison }
    let s1 := s.onBough r.receiver fun x =>
      let l := smGet [] x.inbound key
      { x with inbound := smSet x.inbound key (if l.any fun t => t.seq == seq then l.map fun t => if t.seq = seq then add t else t else l ++ [add { seq := seq }]) }
    if last then s1.onBough b fun x => { x with sent := smUpd 0 x.sent route (· + 1) } else s1

/-- Release the first held line of bough `b` (R180, Table 14-1); a completion's line waits for TASK_COMPLETION (log entry 163). -/
def State.releaseLine (s : State) (b : Nat) (accepted parityBad : Bool) : State :=
  let x := s.bough b
  match x.frontLine with
  | none => s
  | some h =>
    let t := x.find h.task
    let quiet : Bool := match t with | some t => t.quarantine | none => false
    let gone : Bool := match t with | some t => t.discard | none => false
    let fn := match t with | some t => t.function | none => 0
    let drop := fun (s : State) => s.onBough b fun x => { x with held := x.held.erase h, stalledCredit := false }
    let hold := s.onBough b fun x => { x with stalledCredit := true }
    match h.dest with
    | .completion _ => s
    | .sap l =>
      let s1 := (drop s).onBough b fun x =>
        let whole := decide (64 ≤ (h.bytes.map (·.1)).eraseDups.length)
        { x with sapwood := h.put x.sapwood l,
                 sapParity := if parityBad then insertN x.sapParity l else if whole then removeN x.sapParity l else x.sapParity,
                 sapPoison := match h.poison with
                   | some a => smUpd a x.sapPoison l (min a)
                   | none => if whole then smErase x.sapPoison l else x.sapPoison }
      if parityBad then s1.record .parity (uBough b) { source := 3, detail := 5, detail2 := 64 * l } else s1
    | .preImage _ => drop s
    | .hbm l =>
      let i := hbmStand (64 * l)
      if quiet ∨ (h.status && (match t with | some t => t.lost | none => false)) then drop s
      -- The router group of a stand under reset answers with an error, and the task faults (R347).
      else if s.inReset i then (drop s).loseLine b h.task .peerReset (peerDetail true 0 i s.myDev)
      else if !accepted then hold
      else
        let s1 := h.runs.foldl (fun (s : State) r => s.hbmWrite (64 * l + r.1) r.2) (drop s)
        let s2 := if parityBad ∨ h.poison.isSome then s1.poisonWords (h.words l) else s1
        if parityBad then
          (s2.onStand i fun d => { d with xylPoison := satInc d.xylPoison, xylStatus := d.xylStatus ||| 4#3 }).record .parity (uStand i)
            { source := 6, detail := 4, detail2 := 64 * l }
        else s2
    | .host l =>
      if !accepted then hold
      else if quiet ∨ gone then drop s
      else
        let s1 := h.runs.foldl (fun (s : State) r => s.hostPost fn (64 * l + r.1) r.2 parityBad true) (drop s)
        if parityBad then s1.record .parity (uBough b) { source := 3, detail := 6, detail2 := 64 * l } else s1
    | .xfer route seq _ last tag =>
      if !accepted then hold else if quiet then drop s else (drop s).sendLine b h route seq last tag
    | .knot n => if quiet then drop s else (drop s).signalKnot n

/-- Staging bytes of a transfer on a route from `sender`: its data and, on a combine route, a tag byte per line (R209, R210). -/
def Route.stage (r : Route) (sender : Nat) (t : InXfer) : Nat × List Byte :=
  ((r.staging sender).getD 0 + (t.seq % max 1 r.depth) * r.bufferBytes, t.data ++ (if r.halo then [] else t.tags.map fun v => byteOf (toBits 8 v)))

/-- The oldest transfer on its way to bough `b` from a sender of a route lands. -/
def State.landNow (s : State) (b route sender : Nat) : State :=
  let key := 16 * route + sender
  match s.canopyOf b, (smGet [] (s.bough b).inbound key).head? with
  | some c, some t =>
    let (base, bytes) := (nth ({} : Route) c.routes route).stage sender t
    s.onBough b fun x =>
      let y := x.sapPut base bytes t.poison
      { y with inbound := smUpd [] y.inbound key (·.drop 1), landed := smUpd [] y.landed key (· ++ [{ seq := t.seq, lines := t.data.length / 64, tags := t.tags }]) }
  | _, _ => s

/-- A transfer lands in the receiver's staging buffer (R209, R211), unless R175 holds it back. -/
def State.landXfer (s : State) (b route sender : Nat) : State :=
  let x := s.bough b
  match s.canopyOf b, (smGet [] x.inbound (16 * route + sender)).head? with
  | some c, some t =>
    let r := nth ({} : Route) c.routes route
    let (base, bytes) := r.stage sender t
    let ls := linesTouched [(base, bytes.length)]
    let busy := x.epochs.any (fun e => e.readBytes.any fun q => decide (q.2 ≠ 0) && (linesTouched [q]).any ls.contains)
      || x.held.any (fun h => ls.any fun l => decide (h.dest = .sap l))
    if (r.staging sender).isNone ∨ !t.whole ∨ busy then s else (s.landNow b route sender).tryXrecv b
  | _, _ => s

/-- The drain of bough `b` ends (R186): its task keeps its checkpoint; what the drain was for goes on (R246, R332, R363). -/
def State.endDrain (s : State) (b : Nat) : State :=
  let x := s.bough b
  if !x.draining ∨ !x.epochs.isEmpty ∨ !x.held.isEmpty then s
  else
    let yields := x.wantsYield
    let s1 := s.onBough b fun x =>
      { x with draining := false, wait := .none, ptrOk := false, drained := x.drained || x.logicStop || decide (s.bud.power = .entering),
               yielded := match x.task with
                 | some t => { task := { t with yielded := t.yielded || yields }, ckpt := x.ck } :: x.yielded
                 | none => x.yielded,
               task := none }
    if yields then s1.onStand (standOf b) fun d => { d with yieldCnt := satInc d.yieldCnt } else s1

end Sys2Proof.Machine
end

