-- ==== Sys2Proof/Machine/ScaleOps.lean ====
section
/-! DEFINITION. Scale history blocks: the scales a task latches at dispatch and the update at its completion (R147 to R155). -/

namespace Sys2Proof.Machine

/-- M and s of a ratio, and whether it falls outside their range (R149). -/
def deriveMs (r : Rat) : Nat × Nat × Bool :=
  let m := fun (s : Nat) => (rhe (r * ((2 ^ s : Nat) : Rat))).toNat
  match (List.range 63).reverse.find? fun s => decide (m s ≤ 2 ^ 31 - 1) with
  | some s => (m s, s, m s == 0)
  | none => (2 ^ 31 - 1, 0, true)

/-- S_acc of a tensor under scales `sc` (R137). -/
def Canopy.accOf (c : Canopy) (sc : Nat → Rat) (i : Nat) : Rat :=
  match c.layers.find? fun l => l.outTensor == i with
  | some l => sc l.inTensor * f32val l.sW
  | none => sc i

/-- Address of a tensor's slot (R153). -/
def slotAddr (base i : Nat) : Nat := base + 64 + 128 * i

/-- Bytes of a block. -/
def blockBytes (count : Nat) : Nat := 64 + 128 * count

/-- The block is that of the image in force and of the context (R154). -/
def State.blockFits (s : State) (c : Canopy) (base count : Nat) : Bool :=
  s.hbmNat base 4 == 0x51485342 && s.hbmNat (base + 4) 2 == 1 && s.hbmNat (base + 6) 2 == count && s.hbmNat (base + 8) 8 == c.imageId.toNat

/-- The initial slot of a tensor (R154, Table 6-4). -/
def Canopy.initSlot (c : Canopy) (i : Nat) : List Byte :=
  let q := c.quant i
  let (m, sh, _) := deriveMs (c.accOf (fun t => f32val (c.quant t).sInit) i / f32val q.sInit)
  leBytes 4 q.sInit.toNat ++ leBytes 4 m ++ [byteOf sh, byteOf (b2n q.runMax), byteOf q.window, 0] ++ leBytes 2 q.headroom.toNat
    ++ List.replicate 114 0

/-- Initialise a whole block (R154). -/
def State.initBlock (s : State) (c : Canopy) (base count : Nat) : State :=
  let hdr := leBytes 4 0x51485342 ++ leBytes 2 1 ++ leBytes 2 count ++ leBytes 8 c.imageId.toNat ++ List.replicate 48 0
  let slots := (List.range count).flatMap fun i => if i < c.quants.length then c.initSlot i else List.replicate 128 0
  s.hbmWrite base (hdr ++ slots)

/-- Outcome of latching what a task uses at dispatch (R151, R154, R155, R241). -/
inductive Latch where
  | good (t : Task)
  | fault (c : Cause) (detail : Word)
  /-- An uncorrectable word at this address. -/
  | ue (a : Nat)

/-- Scales of a context without a block (R152). -/
def Canopy.initScales (c : Canopy) : SMap Scale :=
  (List.range c.quants.length).map fun i =>
    let q := c.quant i
    let (m, sh, _) := deriveMs (c.accOf (fun t => f32val (c.quant t).sInit) i / f32val q.sInit)
    (i, { s := q.sInit, mult := m, shift := sh })

/-- Graft flags of a context's block, by graft (R241). -/
def State.latchGrafts (s : State) (c : Canopy) (base : Nat) : SMap (Bool × Bool) :=
  if base = 0 then []
  else (List.range c.grafts.length).map fun i => let f := s.hbmNat (base + 64 + 64 * i) 1; (i, (f.testBit 0, f.testBit 1))

/-- Latch scales and graft banks for a task. -/
def State.latch (s : State) (c : Canopy) (t : Task) : State × Latch :=
  let n := c.quants.length
  let gUe := if t.graftState = 0 then none else s.firstUe t.graftState (64 + 64 * c.grafts.length)
  match gUe with
  | some a => (s, .ue a)
  | none =>
    let t1 := { t with grafts := s.latchGrafts c t.graftState }
    if t.scaleHist = 0 then (s, .good { t1 with scales := c.initScales })
    else if t.tensorCount < n then (s, .fault .shape 0)
    else match s.firstUe t.scaleHist (blockBytes t.tensorCount) with
      | some a => (s, .ue a)
      | none =>
        let s1 := if s.blockFits c t.scaleHist t.tensorCount then s else s.initBlock c t.scaleHist t.tensorCount
        let w := fun i o k => s1.hbmNat (slotAddr t.scaleHist i + o) k
        match (List.range n).find? fun i => !f32pos (wordOf (w i 0 4)) with
        | some i => (s1, .fault .badScale (wordOf i))
        | none => (s1, .good { t1 with scales := (List.range n).map fun i => (i, { s := wordOf (w i 0 4), mult := w i 4 4 % 2 ^ 31, shift := min 62 (w i 8 1) }) })

/-- Nominal full scale F of a format (R148). -/
def Fmt.fullScale (f : Fmt) : Nat := if f = .uint8 then 256 else if f = .bsi8 then 128 else (-(f.range).1).toNat

/-- Push A into the ring of a slot: fill, head and entries (R148). -/
def ringPush (n head fill : Nat) (ring : List Word) (a : Word) : Nat × Nat × List Word :=
  let f := min fill n
  let h := head % n
  if f < n then (h, f + 1, modAt ring ((h + f) % n) fun _ => a) else ((h + 1) % n, f, modAt ring h fun _ => a)

/-- A of a tensor at a task's end, and its clip (R139). -/
def Task.amaxReal (t : Task) (c : Canopy) (i : Nat) (st : TStats) : Word × Bool :=
  let r := fp32.round (if st.real then st.amax else st.amax * t.accScale c i)
  (wordOf r.1, r.2)

/-- Step 1 of R150 for one tensor: the new S of a running-max tensor, if it is set. -/
def State.pushRing (s : State) (c : Canopy) (base i : Nat) (a : Word) : State × Bool :=
  let at0 := slotAddr base i
  if s.hbmNat (at0 + 9) 1 ≠ 1 then (s, false)
  else
    let n := s.hbmNat (at0 + 10) 1 % 16 + 1
    let ring := (List.range 16).map fun k => wordOf (s.hbmNat (at0 + 16 + 4 * k) 4)
    let (head, fill, ring1) := ringPush n (s.hbmNat (at0 + 14) 1) (s.hbmNat (at0 + 15) 1) ring a
    let s1 := ((s.pokeNat (at0 + 14) 1 head).pokeNat (at0 + 15) 1 fill).poke (at0 + 16) (ring1.flatMap fun w => leBytes 4 w.toNat)
    let top := (ring1.take fill).foldl (fun m w => rmax m (f32val w)) 0
    if top ≤ 0 then (s1, false)
    else
      let h : Rat := nr (max 0x8000 (s.hbmNat (at0 + 12) 2)) / 32768
      (s1.pokeNat at0 4 (fp32.round (h * top / nr (c.quant i).fmt.fullScale)).1, true)

/-- Add to a saturating 4-byte count. -/
def State.addSat (s : State) (a n : Nat) : State := s.pokeNat a 4 (min (2 ^ 32 - 1) (s.hbmNat a 4 + n))

/-- The update of a context's block at a task's completion (R150, R152). -/
def State.updateScales (s : State) (c : Canopy) (t : Task) : State :=
  if t.scaleHist = 0 ∨ t.scales.isEmpty then s
  else match s.firstUe t.scaleHist (blockBytes t.tensorCount) with
    | some a => s.reportUe a
    | none =>
      let n := c.quants.length
      let wrote := t.stats.filter fun p => decide (p.1 < n)
      let scale := fun (s : State) (i : Nat) => f32val (wordOf (s.hbmNat (slotAddr t.scaleHist i) 4))
      -- 1. rings and scales
      let (s1, set_) := wrote.foldl (fun (acc : State × List Nat) (p : Nat × TStats) =>
        let (s2, on) := acc.1.pushRing c t.scaleHist p.1 (t.amaxReal c p.1 p.2).1
        (s2, if on then acc.2 ++ [p.1] else acc.2)) (s, [])
      let changed := set_.filter fun i => scale s i != scale s1 i
      -- 2. M and s of the tensors that depend on a changed scale
      let s2 := (List.range n).foldl (fun (s : State) i =>
        let feeds := match c.layers.find? fun l => l.outTensor == i with | some l => changed.contains l.inTensor | none => false
        if changed.contains i || feeds then
          let (m, sh, lim) := deriveMs (c.accOf (scale s) i / scale s i)
          let a := slotAddr t.scaleHist i
          ((s.pokeNat (a + 4) 4 m).pokeNat (a + 8) 1 sh).pokeNat (a + 11) 1 (s.hbmNat (a + 11) 1 ||| at_ (b2n lim) 2)
        else s) s1
      -- 3. counts and flags
      let touched := (wrote.map (·.1) ++ t.adaptWanted ++ t.satPersist ++ t.squashTensor.map (·.1)).eraseDups.filter fun i => decide (i < n)
      let s3 := touched.foldl (fun (s : State) i =>
        let a := slotAddr t.scaleHist i
        let f := s.hbmNat (a + 11) 1 ||| b2n (t.adaptWanted.contains i) ||| at_ (b2n (t.satPersist.contains i)) 1
        let s4 := (s.pokeNat (a + 11) 1 (if set_.contains i then f &&& 0xFE else f)).addSat (a + 100) (smGet 0 t.squashTensor i)
        match smFind wrote i with
        | some st =>
          let (amax, clip) := t.amaxReal c i st
          ((((((s4.pokeNat (a + 80) 4 amax.toNat).addSat (a + 84) (st.clips + b2n clip)).addSat (a + 88) st.hi).addSat (a + 92) st.lo).addSat (a + 96)
            st.nonfinite).addSat (a + 104) 1).pokeNat (a + 108) 4 (t.scale c i).s.toNat
        | none => s4) s2
      -- 4. update_count
      s3.pokeNat (t.scaleHist + 16) 4 (s3.hbmNat (t.scaleHist + 16) 4 + 1)

end Sys2Proof.Machine
end

