-- ==== Sys2Proof/Machine/TaskOps.lean ====
section
/-! DEFINITION. Doorbells, the choice and dispatch of tasks, and their completions (R251 to R270). -/

namespace Sys2Proof.Machine

-- Readiness of the device for host accesses.

/-- A BAR0 access reaches the trunk's registers: the link is up, the function is in D0 and the trunk runs; in Dormant too (R277, R282, R366). -/
def State.regLive (s : State) : Bool :=
  s.live && !s.pcie.d3hot && s.bud.power != .bare && s.trunk.fwRunning && !s.trunk.warmBusy

/-- Heads that are wanted from host rings are asked for, and knot-gated queues whose head has become ready begin to wait (R257, R261). -/
def State.settleQueues (s : State) : State :=
  if s.que.ctrl then s.que.queues.foldl (fun (s : State) (p : Nat × QRun) => s.enlist p.1) s.askHeads else s

-- FLUSH and DISABLE (R251, R269).

/-- The signal of a completion with flags [1] set (R262). -/
def State.taskSignal (s : State) (t : TaskRec) : State := if bit t.flags 1 then s.signalKnot t.signalKnot else s

/-- Complete one undispatched record of a flushed queue, if its ring has room and the record is at hand; its signal is given (R262). -/
def State.flushOne (s : State) (q : Nat) : State :=
  let r := s.queue q
  let room := decide ((r.cqTail - r.cqHead).toNat + r.inflight.length + r.owed + 1 ≤ 2 ^ r.desc.cqLog2)
  if !r.flushing ∨ r.sqTail = r.sqHead ∨ !room then s
  else match s.headRec q with
    | none => s.askHead q
    | some bs =>
      let t := parseTask bs
      let s1 := s.onQueue q fun r => { r with sqHead := r.sqHead + 1, fetched := none, releases := r.releases - 1 }
      (s1.complete q { userTag := t.userTag, sqIndex := r.sqHead, context := wordOf (fld t.context 17 0), status := 3, irq := bit t.flags 0 }).taskSignal t

/-- FLUSH goes on as far as the completion ring allows, then clears the halt. -/
def State.flushOn (s : State) (q : Nat) : State :=
  if !(s.queue q).flushing then s
  else
    let s1 := (List.range (s.queue q).undispatched).foldl (fun (s : State) _ => s.flushOne q) s
    if (s1.queue q).sqTail = (s1.queue q).sqHead then
      (s1.onQueue q fun r => { r with flushing := false, halted := false, haltCause := 0 }).onQue fun x => { x with cmdBusy := false, cmdResult := 0 }
    else s1

-- Doorbells (R252).

/-- Doorbells to a queue are acted on now. -/
def State.doorbellsActed (s : State) (q : Nat) : Bool :=
  s.que.ctrl && s.serving && s.bud.power == .full && !(decide ((s.queue q).desc.owner < 4) && s.inReset (s.queue q).desc.owner)

/-- A doorbell is checked and acted on. -/
def State.actDoorbell (s : State) (q : Nat) (tail head : Word) : State :=
  let r := s.queue q
  if 2 ^ r.desc.sqLog2 < (tail - r.sqHead).toNat ∨ (r.cqTail - r.cqHead).toNat < (head - r.cqHead).toNat then
    ((s.onQueue q fun r => { r with pendingDb := none }).haltQueue q 0x10).onQue fun x => { x with dbErr := satInc x.dbErr }
  else
    let s1 := if r.desc.owner < 4 then (s.touchQueue q).onStand r.desc.owner fun d => { d with schedStopped := false } else s
    let s2 := s1.onQueue q fun r =>
      let y := { r with sqTail := tail, cqHead := head, pendingDb := none }
      if y.heldEdge ∧ y.releases < y.undispatched then { y with releases := y.releases + 1, heldEdge := false } else y
    let s3 := s2.flushOn q
    if (s3.queue q).undispatched = 0 then s3 else s3.askHead q

/-- Act on every doorbell kept so far that can be acted on. -/
def State.actPending (s : State) : State :=
  s.que.queues.foldl (fun (s : State) (p : Nat × QRun) =>
    match (s.queue p.1).pendingDb with
    | some (t, h) => if (s.queue p.1).enabled ∧ s.doorbellsActed p.1 then s.actDoorbell p.1 t h else s
    | none => s) s

/-- The outcome of a QUE_CMD (Table 11-9). -/
def State.queResult (s : State) (code : Nat) : State := s.onQue fun x => { x with cmdBusy := false, cmdResult := byteOf code }

/-- A queue's descriptor is read and checked, and the queue enabled (R251, R256). -/
def State.enableQueue (s : State) (q : Nat) : State :=
  let a := s.descAddr q
  if (s.queue q).enabled then s.queResult 0
  else match s.firstUe a 64 with
    | some u => (s.reportUe u).queResult 4
    | none =>
      match (if a + 64 ≤ hbmSize then parseDesc (s.hbmBytes a 64) else none) with
      | none => s.queResult 1
      | some d =>
        let gated := s.que.queues.filter fun (p : Nat × QRun) => p.2.enabled && p.2.desc.owner == d.owner && p.2.desc.gate != QGate.none
        if d.gate ≠ .none ∧ d.owner < 4 ∧ 2048 ≤ gated.length then s.queResult 2
        else
          let w := fun (o : Nat) => wordOf (s.hbmNat (a + o) 4)
          let run : QRun := { desc := d, sqTail := w 32, sqHead := w 36, cqTail := w 40, cqHead := w 44, dropped := w 48, missed := w 52, enabled := true,
                              halted := bit (w 56) 1, haltCause := byteOf (fld (w 56) 15 8) }
          let s1 := (s.onQue fun x => { x with queues := smSet x.queues q run }).queResult 0
          if run.undispatched = 0 then s1 else s1.askHead q

/-- A Function Level Reset of the function in a descriptor is still under way (R280). -/
def State.flrHolds (s : State) (q : Nat) : Bool :=
  let fn := s.hbmNat (s.descAddr q + 26) 1
  decide (fn < 32) && bit s.pcie.vfFlr fn

-- Dispatch (R254 to R259).

/-- An ENABLE held back by a reset of its function or of the queue table's stand takes effect once both are over (R280, R347). -/
def State.retryEnable (s : State) : State :=
  let q := s.que.cmdQueue
  if s.que.cmdBusy ∧ s.que.cmdOp = 1 ∧ !s.flrHolds q ∧ !s.shut (hbmStand (s.descAddr q)) then s.enableQueue q else s

/-- The stand dispatches. -/
def State.standDispatches (s : State) (i : Nat) : Bool :=
  s.que.ctrl && s.serving && s.bud.power == .full && ((s.stand i).rstState == .normal || (s.stand i).rstState == .fenced) && !(s.stand i).schedStopped
    && (s.stand i).holdOps.isEmpty

/-- A bough can accept a task: it holds at most one that has not started issuing (R258). -/
def State.canAccept (s : State) (b : Nat) : Bool :=
  let x := s.bough b
  s.usable b && !x.logicRunning && decide (x.waiting.length ≤ 1)

/-- What the checks of R254 make of a head record. -/
inductive Check where
  /-- It passes, for these boughs in ascending order. -/
  | run (t : TaskRec) (boughs : List Nat) (named : Bool)
  /-- It ends with a status other than a fault's (4 = SKIPPED). -/
  | skip (t : TaskRec)
  /-- A fault with cause and detail, and whether counts reach the context. -/
  | fault (t : TaskRec) (c : Cause) (detail : Word) (countable : Bool)
  /-- The context record is uncorrectable at this address. -/
  | ctxUe (t : TaskRec) (a : Nat)

/-- The context record is usable (R270). -/
def State.ctxOk (s : State) (a fn : Nat) : Bool :=
  let p := fun (o : Nat) => let v := s.hbmNat (a + o) 8; v == 0 || (v % 64 == 0 && decide (v < hbmSize))
  (s.hbmNat a 1).testBit 0 && s.hbmNat (a + 1) 1 == fn && p 8 && p 16

/-- The checks of a stand's task record in the order of R254. -/
def State.checkRec (s : State) (i fn : Nat) (bs : List Byte) : Check :=
  let t := parseTask bs
  let countable := decide (t.context.toNat < 2 ^ 18)
  let ctx := s.ctxAddr (fld t.context 17 0)
  if !t.zerosOk then .fault t .badTask 0 countable
  else if (s.stand i).fenced then .fault t .unitFenced 0 countable
  else match (s.stand i).canopy with
    | none => .fault t .noImage 0 countable
    | some c =>
      match c.programs[t.program]? with
      | none => .fault t .badTask 0 countable
      | some p =>
        let may := (s.boughsOf i).filter fun b => bit p.boughMask b
        let named := t.bough != 0xFF
        if (named && !may.contains t.bough) || may.isEmpty then .fault t .badTask 0 countable
        else match s.firstUe ctx 128 with
          | some a => .ctxUe t a
          | none =>
            if !s.ctxOk ctx fn then .fault t .badContext 0 false
            else if (s.hbmNat ctx 1).testBit 1 then .skip t
            else if named then (if (s.bough t.bough).fenced then .fault t .unitFenced 0 countable else .run t [t.bough] true)
            else .run t (may.filter fun b => !(s.bough b).fenced) false

/-- The head record of a ready queue may be taken on bough `b`: it fails a check, or `b` is the bough it goes to (R258). A context record in a stand under reset is waited for (R347). -/
def State.mayTake (s : State) (b q : Nat) : Bool :=
  s.readyQueue q && match s.headRec q with
    | none => false
    | some bs =>
      !s.shut (hbmStand (s.ctxAddr (fld (parseTask bs).context 17 0))) &&
      match s.checkRec (standOf b) (s.queue q).desc.function bs with
      | .run _ bs _ => (bs.filter s.canAccept).head? == some b
      | _ => true

/-- Queues of a class and stand, ascending. -/
def State.classQueues (s : State) (i : Nat) (c : QClass) : List Nat :=
  (s.que.queues.filter fun (p : Nat × QRun) => p.2.enabled && p.2.desc.owner == i && p.2.desc.cls == c).map (·.1)

/-- Queue served last in a class. -/
def Stand.lastOf (d : Stand) : QClass → Nat
  | .slot => d.lastSlot | .bulk => d.lastBulk | .adapt => d.lastAdapt | .maint => d.lastMaint

def Stand.setLast (d : Stand) (c : QClass) (q : Nat) : Stand :=
  match c with
  | .slot => { d with lastSlot := q } | .bulk => { d with lastBulk := q } | .adapt => { d with lastAdapt := q } | .maint => { d with lastMaint := q }

/-- Weight of a class (STD_SCH_CTRL); 0 acts as 1. -/
def Stand.weight (d : Stand) : QClass → Nat
  | .adapt => max 1 (fld d.schCtrl 15 8) | .maint => max 1 (fld d.schCtrl 23 16) | _ => max 1 (fld d.schCtrl 7 0)

def nextClass : QClass → QClass
  | .bulk => .adapt | .adapt => .maint | _ => .bulk

/-- First queue of a class, round-robin, whose head may be taken on bough `b`. -/
def State.pickIn (s : State) (b : Nat) (c : QClass) : Option Nat :=
  (nextAfter (s.classQueues (standOf b) c) ((s.stand (standOf b)).lastOf c)).find? (s.mayTake b)

/-- The turn of the weighted rotation passes until a class has a task for bough `b`: class, queue and dispatches left. -/
def State.pickWeighted (s : State) (b : Nat) : Nat → QClass → Nat → Option (QClass × Nat × Nat)
  | 0, _, _ => none
  | n + 1, c, left =>
    let pass := s.pickWeighted b n (nextClass c) ((s.stand (standOf b)).weight (nextClass c))
    if left = 0 then pass
    else match s.pickIn b c with
      | some q => some (c, q, left)
      | none => pass

/-- The scheduler's choice for bough `b` (R258), with the rotation moved on. -/
def State.choose (s : State) (b : Nat) : Option (Nat × State) :=
  let i := standOf b
  match s.pickIn b .slot with
  | some q => some (q, s.onStand i fun d => d.setLast .slot q)
  | none =>
    match s.pickWeighted b 5 (s.stand i).turn (s.stand i).turnLeft with
    | some (c, q, left) =>
      some (q, s.onStand i fun d =>
        let d1 := d.setLast c q
        if left = 1 then { d1 with turn := nextClass c, turnLeft := d.weight (nextClass c) } else { d1 with turn := c, turnLeft := left - 1 })
    | none => none

/-- A class as a number. -/
def QClass.code : QClass → Nat
  | .slot => 0 | .bulk => 1 | .adapt => 2 | .maint => 3

/-- A completion of a task record that did not run. -/
def recCompl (t : TaskRec) (idx : Word) (cause : Nat) (detail : Word) : Compl :=
  { userTag := t.userTag, sqIndex := idx, context := wordOf (fld t.context 17 0), cause := cause, detail := detail, irq := bit t.flags 0 }

/-- Dispatch the head record of queue `q` to bough `b` (R254, R255, R151, R154). -/
def State.takeTask (s : State) (b q : Nat) (bs : List Byte) : State :=
  let r := s.queue q
  let i := standOf b
  let fn := r.desc.function
  let idx := r.sqHead
  let s1 := (s.touchQueue q).onQueue q fun r => { r with sqHead := r.sqHead + 1, fetched := none, releases := r.releases - 1 }
  let s2 := if (s1.queue q).undispatched = 0 then s1 else s1.askHead q
  match s.checkRec i fn bs with
  | .fault t c d n => (s2.completeFault q r.desc.hold (recCompl t idx c.code d) 0 n).taskSignal t
  | .skip t =>
    let k := { recCompl t idx 0x0E 0 with status := 4 }
    ((s2.addCounts (fld t.context 17 0) k 0).complete q k).taskSignal t
  | .ctxUe t a =>
    let s3 := s2.reportUe a
    if s3.poisonMode i then (s3.completeFault q r.desc.hold (recCompl t idx 0x0B (wordOf (a / 64))) 0 false).taskSignal t
    else s3.ueReset i
  | .run t _ _ =>
    let id := s2.que.nextTask
    let ctx := s2.ctxAddr (fld t.context 17 0)
    let task : Task :=
      { id := id, queue := q, sqIndex := idx.toNat, trec := t, cls := r.desc.cls.code, hold := r.desc.hold, function := fn,
        calSel := s2.hbmNat ctx 1 / 4 % 4, tensorCount := s2.hbmNat (ctx + 2) 2, scaleHist := s2.hbmNat (ctx + 8) 8, graftState := s2.hbmNat (ctx + 16) 8 }
    let s3 := (s2.onQue fun x => { x with nextTask := x.nextTask + 1 }).onStand i fun d => { d with hbDispatch := d.hbDispatch + 1 }
    let bad := fun (s : State) (c : Cause) (d : Word) => (s.completeFault q r.desc.hold { recCompl t idx c.code d with bough := b } 0 true).taskSignal t
    let put := fun (s : State) (task : Task) => (s.onBough b fun x => { x with waiting := x.waiting ++ [task], clockStopped := false }).onQueue q fun r => { r with inflight := r.inflight ++ [id] }
    match s3.latch ((s3.stand i).canopy.getD {}) task with
    | (s4, .good t1) => put s4 t1
    | (s4, .fault c d) => bad s4 c d
    | (s4, .ue a) =>
      let s5 := s4.reportUe a
      if s5.poisonMode i then bad s5 .poison (wordOf (a / 64)) else (put s5 task).ueReset i

/-- One turn of the scheduler for bough `b`. -/
def State.dispatch (s : State) (b : Nat) : State :=
  if !s.enabled b ∨ !s.standDispatches (standOf b) then s
  else match s.choose b with
    | none => s
    | some (q, s1) =>
      match s.headRec q, (s.queue q).headAddr with
      | some bs, .hbm a =>
        match s.firstUe a recBytes with
        | some u =>
          let s2 := s.reportUe u
          if s2.poisonMode (standOf b) then s2.haltQueue q 0x0B else s2.ueReset (standOf b)
        | none => s1.takeTask b q bs
      | some bs, _ => s1.takeTask b q bs
      | none, _ => s

-- Completion (R180, R262, R266 to R270).

/-- Status, cause, detail and operation of a finished task under its queue's policy. -/
def Task.compl (t : Task) (b : Nat) : Compl :=
  { userTag := t.trec.userTag, sqIndex := wordOf t.sqIndex, context := wordOf (fld t.trec.context 17 0), nonfinite := t.nonfinite, saturation := t.saturation,
    yielded := t.yielded, bough := b, checkSq := t.checkSquashes, satSq := t.satSquashes, irq := bit t.trec.flags 0,
    cause := match t.fault with | some f => f.cause.code | none => 0,
    detail := match t.fault with | some f => f.detail | none => 0,
    opIndex := match t.fault with | some f => f.opIndex | none => 0 }

/-- The task of bough `b` whose end comes next: its completion line leads the buffer, or it faulted and nothing of it is left to release. -/
def Bough.nextEnd (x : Bough) : Option Task :=
  match x.frontLine with
  | some { dest := .completion id, .. } => x.ending.find? (·.id == id)
  | _ => x.ending.find? fun t => t.fault.isSome && !(x.epochs.any fun e => e.task == t.id) && !(x.held.any fun h => h.task == t.id)

/-- Complete task `t` of bough `b`. -/
def State.finishTask (s : State) (b : Nat) (t : Task) : State :=
  let s1 := s.onBough b fun x => { x with ending := x.ending.filter (·.id != t.id), held := x.held.filter fun h => h.dest != .completion t.id }
  if t.quarantine then s1
  else
    let drops := t.fault.isSome && !t.hold
    let s2 := (if t.fault.isNone ∨ drops then s1.updateScales ((s1.canopyOf b).getD {}) t else s1).flushGrafts (if t.discard then { t with graftClips := [], graftNonfinite := [] } else t)
    let s3 := s2.onQueue t.queue fun r => { r with inflight := removeN r.inflight t.id }
    let k := t.compl b
    let s4 := if t.discard then s3
      else if t.fault.isSome then s3.completeFault t.queue t.hold k t.phases true
      else (s3.addCounts (fld t.trec.context 17 0) k t.phases).complete t.queue k
    let s5 := s4.taskSignal t.trec
    s5.endDisable t.queue

end Sys2Proof.Machine
end

