-- ==== Sys2Proof/Machine/CollRun.lean ====
section
/-! DEFINITION. Arming of collective entries, the messages of their runs and the end of a run (R299 to R306). -/

namespace Sys2Proof.Machine

-- Relaying along a ring (R292, R297).

/-- The worker at the next position of the ring, seen from the port a message came by, is reached over the same side. -/
def State.relays (s : State) (fromPort : Nat) : Bool :=
  let r := s.ael.role.ring
  let p := s.ael.role.position
  if fromPort = 0 then decide (p + 1 < s.ringLen r) && s.sideOf r (p + 1) == some false
  else decide (0 < p) && s.sideOf r (p - 1) == some true

/-- A worker sends a message on, out of its other port. -/
def State.passOn (s : State) (fromPort : Nat) (m : AelMsg) : State := s.portSend (1 - fromPort) false m

/-- The port by which the manager's messages reach this worker. -/
def State.upPort (s : State) : Nat := if s.sideOf s.ael.role.ring s.ael.role.position = some true then 1 else 0

/-- A worker relays a message of the manager to the workers behind it. -/
def State.relay (s : State) (m : AelMsg) : State := if s.isWorker && s.relays s.upPort then s.passOn s.upPort m else s

-- Arrivals (R299, R301, R306).

/-- A run that does not exist yet begins to gather what others send. -/
def State.openRun (s : State) (idx : Nat) : State :=
  match s.armed idx with
  | some { run := none, .. } =>
    (s.onArmed idx fun a => { a with run := some { started := false, order := s.ael.nextOrder } }).onAel fun x => { x with nextOrder := x.nextOrder + 1 }
  | _ => s

/-- A message waits until its entry is armed. -/
def State.holdEarly (s : State) (port : Nat) (sideB : Bool) (m : AelMsg) : State :=
  s.onAel fun a => { a with early := a.early ++ [{ port := port, sideB := sideB, msg := m }] }

/-- The manager learns that a worker has started its run; the entries' shared fields must agree (R299, Table 13-4). -/
def State.arrive (s : State) (dev idx stand : Nat) (sig : List Byte) : State :=
  if !s.isManager then s
  else match s.armed idx with
    | none => s.holdEarly 0 false (.arrival dev idx stand sig)
    | some a =>
      let s1 := s.openRun idx
      if sig ≠ a.ent.sig then (s1.endEverywhere idx 3 dev 0).mgrAll
      else
        let s2 := s1.onRun idx fun r => if r.arrived.any (fun x => x.1 == dev) then r else { r with arrived := r.arrived ++ [(dev, stand)] }
        -- The cut is the first SNAPSHOT arrival (R306).
        let s3 := if a.ent.op = 5 ∧ s2.ael.cut.isNone then s2.onAel fun x => { x with cut := some x.nextOrder } else s2
        (s3.mgrProgress idx).mgrAll

/-- A worker holds the whole of a broadcast. -/
def State.confirm (s : State) (dev idx : Nat) : State :=
  if s.isManager then ((s.onRun idx fun r => { r with confirmed := insertN r.confirmed dev }).mgrProgress idx).mgrAll else s

-- Transfers (R301, R302, R304, R305, R309).

/-- A transfer's incarnation is older than the one noticed (R309). -/
def State.stale (s : State) (dev : Nat) (inc : BitVec 16) : Bool :=
  match smFind s.ael.incs dev with
  | some n => decide (n ≠ inc ∧ (n - inc).toNat < 32768)
  | none => false

/-- A check of a received transfer fails (R304): dropped, counted, recorded and reported. -/
def State.badDigest (s : State) (idx dev port : Nat) : State :=
  let runs := match s.armed idx with | some a => a.runs.toNat | none => 0
  let s1 := (s.onAel fun a => { a with digestCnt := satInc a.digestCnt }).record .collDigest uDevice
    { source := 8, detail := idx + at_ dev 16 + at_ port 24, detail2 := runs }
  if s1.isManager then s1.mgrDigest idx dev else s1.sendUp (.digestFail idx s1.myDev)

/-- Data of a run is kept under a key of its parts, once its digest holds. -/
def State.keepPart (s : State) (idx key dev port : Nat) (data : List Byte) (digest : DWord) (go : State → State) : State :=
  if crc64 data ≠ digest then s.badDigest idx dev port
  else go ((s.openRun idx).onRun idx fun r => { r with parts := smSet r.parts key data })

/-- A transfer arrives at the manager. -/
def State.mgrTransfer (s : State) (port : Nat) (sideB : Bool) (a : Armed) (x : Xfer) : State :=
  let key := if a.ent.op = 2 then 0 else 2 * port + 1 + b2n sideB
  if !x.up ∨ (a.ent.op = 2 ∧ a.ent.root = 0) ∨ a.ent.op < 2 ∨ 4 < a.ent.op then s
  else s.keepPart x.entry key x.dev port x.data x.digest fun s => (s.mgrProgress x.entry).mgrAll

/-- A transfer arrives at a worker: a reduction's partial, or broadcast data that it also relays. -/
def State.workerTransfer (s : State) (port : Nat) (a : Armed) (x : Xfer) : State :=
  let started := match a.run with | some r => r.started && r.status.isNone | none => false
  if x.up then
    s.keepPart x.entry 0 x.dev port x.data x.digest fun s => if started then s.workerSend x.entry a.ent else s
  else s.keepPart x.entry (if x.half = 0 then 3 else x.half) x.dev port x.data x.digest fun s => s.workerWhole x.entry

/-- The message of a transfer. -/
def Xfer.msg (x : Xfer) : AelMsg := .transfer x.entry x.dev x.inc x.stand x.up x.half x.data x.digest

/-- A worker sends broadcast data on before it takes its own copy: a half goes all the way round, the whole as far as the side reaches (R305). -/
def State.relayData (s : State) (port : Nat) (x : Xfer) : State :=
  let last := if port = 0 then decide (s.ael.role.position + 1 < s.ringLen s.ael.role.ring) else decide (0 < s.ael.role.position)
  if if x.half = 0 then s.relays port else last then s.passOn port x.msg else s

/-- A collective transfer arrives (R301 to R305, R309). -/
def State.takeTransfer (s : State) (port : Nat) (sideB : Bool) (x : Xfer) : State :=
  if s.stale x.dev x.inc then s
  else if s.isManager then
    match s.armed x.entry with
    | some a => s.mgrTransfer port sideB a x
    | none => s.holdEarly port sideB x.msg
  else if s.isWorker then
    -- A worker root's data is not for the workers on its way, which pass it on unstored (R297, R301).
    if x.up ∧ x.half = 3 then s.passOn port x.msg
    else
    let s1 := if x.up then s else s.relayData port x
    match s1.armed x.entry with
    | some a =>
      if a.ent.op < 2 ∨ 4 < a.ent.op ∨ (!x.up ∧ a.ent.op = 3) then s1
      else s1.workerTransfer port a x
    | none => s1.holdEarly port sideB x.msg
  else s

/-- A worker makes a run's contribution again (R304). -/
def State.runAgain (s : State) (idx : Nat) : State :=
  match s.armed idx with
  | some { ent := e, run := some r, .. } =>
    if r.status.isSome ∨ s.isManager then s
    else
      let s1 := s.onRun idx fun r => { r with again := true, parts := [], released := false, result := none }
      if r.started then s1.workerSend idx e else s1
  | _ => s

/-- A release, or the manager's order to end a run, reaches a participant (R301, R304, R306, R309). -/
def State.takeRelease (s : State) (idx : Nat) (status : Byte) (dev stand : Nat) : State :=
  if !s.isWorker then s
  else if status = 0 then s.onRun idx fun r => if r.started && r.status.isNone then { r with status := some 0 } else r
  else s.failRunHere idx status dev stand

-- Arming (R300).

/-- Result of an arm command. -/
def State.armResult (s : State) (code : Nat) : State := s.onAel fun a => { a with armBusy := false, armResult := byteOf code }

/-- Nothing waits on a knot for entry `idx` any longer. -/
def State.unwaitColl (s : State) (idx : Nat) : State :=
  s.onQue fun q => { q with knots := q.knots.map fun (p : Nat × Knot) => (p.1, { p.2 with waiters := p.2.waiters.filter (· != .coll idx) }) }

/-- Messages held for an entry are taken in their order. -/
def State.takeEarly (s : State) (idx : Nat) : State :=
  let mine := fun (m : Early) => match m.msg with | .arrival _ e _ _ | .transfer e _ _ _ _ _ _ _ => e == idx | _ => false
  let held := s.ael.early.filter mine
  held.foldl (fun (s : State) m => match m.msg with
    | .arrival dev e stand sig => s.arrive dev e stand sig
    | .transfer e dev inc stand up half data dig =>
      match s.armed e with
      | some a =>
        let x : Xfer := { entry := e, dev := dev, inc := inc, stand := stand, up := up, half := half, data := data, digest := dig }
        if s.stale dev inc then s else if s.isManager then s.mgrTransfer m.port m.sideB a x
        else s.workerTransfer m.port a x
      | none => s
    | _ => s) (s.onAel fun a => { a with early := a.early.filter fun m => !mine m })

/-- ARM of an entry whose table can be read (R300): 1 = BAD_ENTRY, 2 = KNOT_BOUND, 3 = RUN_IN_FLIGHT. -/
def State.armEntry (s : State) (idx : Nat) : State :=
  let a := s.ael.collBase.toNat + 64 * idx
  let bs := s.hbmBytes a 64
  let flying := match s.armed idx with | some x => x.inFlight | none => false
  if s.hbmUe a 64 then (s.reportUe ((s.firstUe a 64).getD a)).armResult 1
  else match parseColl bs with
    | none => s.armResult 1
    | some e =>
      if e.done = 0 then s.armResult 1
      else if s.ael.armed.any fun p => p.1 != idx && p.2.ent.done == e.done then s.armResult 2
      else if flying then s.armResult 3
      else
        let s1 := (s.unwaitColl idx).onAel fun x => { x with armed := smSet x.armed idx { ent := e, runs := wordOf (le bs 32 4) } }
        ((((s1.pokeNat (a + 36) 1 0xFF).armResult 0).armWait idx).takeEarly idx).settleQueues

/-- DISARM of an entry (R300): it waits for no run. -/
def State.disarmEntry (s : State) (idx : Nat) : State :=
  match s.armed idx with
  | some a => if a.inFlight then s.armResult 3
      else ((s.unwaitColl idx).onAel fun x => { x with armed := smErase x.armed idx }).armResult 0
  | none => s.armResult 0

/-- The stand that holds entry `idx` is under reset: the read waits (R347). -/
def State.tableHeld (s : State) (idx : Nat) : Bool := s.shut (hbmStand (s.ael.collBase.toNat + 64 * idx))

/-- An ARM that waited for the table's stand goes on. -/
def State.retryArm (s : State) : State := if s.ael.armBusy ∧ !s.tableHeld s.ael.armEntry then s.armEntry s.ael.armEntry else s

-- The end of a run (R303).

/-- A run whose outcome is known ends: dst, then runs and status, then the done knot. -/
def State.endCollRun (s : State) (idx : Nat) : State :=
  match s.armed idx with
  | some { ent := e, run := some { status := some st, result := res, implicated := dev, stand := sd, .. }, runs := n, .. } =>
    if s.tableHeld idx ∨ (st = 0 ∧ s.inReset e.stand) then s
    else
      let s1 := match res with
        | some d => if st = 0 then s.hbmWrite e.dst d else s
        | none => s
      let n' := if st = 0 then n + 1 else n
      let a := s.ael.collBase.toNat + 64 * idx
      let s2 := (s1.pokeNat (a + 32) 4 n'.toNat).pokeNat (a + 36) 1 st.toNat
      let s3 := s2.onAel fun x =>
        { x with armed := smSet x.armed idx { ent := e, runs := n', status := st, failDev := dev, failStand := sd },
                 failCnt := if st = 0 then x.failCnt else satInc x.failCnt }
      -- A SIGNAL to this device itself (R301).
      let s4 := if e.op = 6 ∧ e.peer = s.myDev ∧ st = 0 then s3.signalKnot e.peerKnot else s3
      let s5 := if st = 0 then s4 else s4.failWaiters e.done
      (((s5.signalKnot e.done).armWait idx).mgrAll).settleQueues
  | _ => s

end Sys2Proof.Machine
end

