-- ==== Sys2Proof/Machine/SecOps.lean ====
section
/-! DEFINITION. Operations of firmware verification, identity, attestation and management answers (chapters 18 and 19). -/

namespace Sys2Proof.Machine

/-- First 32 bytes of SHAKE256 over the identity's public key; zeros when the identity is unavailable (R403, Table 18-6). -/
def State.idHash (s : State) : List Byte :=
  if s.trunk.identityOk then shake256 s.trunk.identityPk else List.replicate 32 0

/-- Firmware digest of an image (R395). -/
def fwDigest (img : List Byte) : List Byte := shake256 (img.take 224 ++ sub img 8448 (le img 12 4))

/-- First failed check of R396 in listed order, 0 when all hold. -/
def State.fwCheck (s : State) (img : List Byte) : Nat :=
  let sig := fun o => sub img (o + 32) 2820
  let owner := le img 6 2 == 1
  let needOwner := s.store.counters.lifecycle == 2 && s.policy.requireOwnerFw
  let code := le img 12 4
  if ¬ (le img 0 4 = 0x57464C50 ∧ le img 4 2 = 1 ∧ le img 6 2 ≤ 1 ∧ 1 ≤ code ∧ code ≤ 1040128) then 1
  else if shake256 (sub img 16 68) ≠ Config.vendorKeyHash then 2
  else if fwDigest img ≠ sub img 224 32 then 3
  else if !Config.xmssVerify (sub img 16 68) (sub img 224 32) (sig 256) then 4
  else if le img 8 1 < s.store.counters.svn then 5
  else if needOwner && !(owner && (match s.ownerPk with | some k => Config.xmssVerify k (sub img 224 32) (sig 4352) | none => false)) then 6
  else 0

/-- A firmware slot: 1 = A, 2 = B. -/
def State.slotBytes (s : State) (i : Nat) : List Byte := if i = 1 then s.store.slotA.bytes else s.store.slotB.bytes

/-- Change a firmware slot. -/
def State.onSlot (s : State) (i : Nat) (f : FwSlot → FwSlot) : State :=
  s.onStore fun d => if i = 1 then { d with slotA := f d.slotA } else { d with slotB := f d.slotB }

/-- security_version of a slot, 0xFF when it does not verify (Table 18-6). -/
def State.slotSvn (s : State) (i : Nat) : Byte :=
  if s.fwCheck (s.slotBytes i) = 0 then byteOf (le (s.slotBytes i) 8 1) else 0xFF

/-- Slot that a firmware update writes: the one that is not running; in recovery, the one that is not active (R397). -/
def State.updateSlot (s : State) : Nat :=
  if s.trunk.runningSlot = 0 then 3 - s.slotState.active else 3 - s.trunk.runningSlot

/-- Index of the height-15 subtree that holds a signing index (R404). -/
def subtreeOf (i : Nat) : Nat := i / 32768

/-- Key that verifies canopy images and security messages in the present lifecycle (Table 18-3). -/
def State.canopyKey (s : State) : Option (List Byte) :=
  if s.store.counters.lifecycle = 2 then s.ownerPk else some Config.vendorKey

/-- The quote body (Table 18-5). -/
def State.quoteBody (s : State) (index : Nat) (nonce : List Byte) : List Byte :=
  let pad := fun (l : List Byte) n => sub l 0 n
  let own := s.ownerPk
  leBytes 4 0x51544F51 ++ leBytes 2 1 ++ leBytes 2 0 ++ leBytes 4 index ++ leBytes 4 s.trunk.partId.toNat
    ++ [byteOf s.store.counters.lifecycle, byteOf s.store.counters.ownership, byteOf s.store.counters.svn, byteOf s.trunk.runningSlot]
    ++ leBytes 4 (nth {} s.store.rings 0).value ++ pad s.idHash 32 ++ pad s.trunk.fwDigest 32
    ++ (match own with | some k => shake256 k | none => List.replicate 32 0)
    ++ (match own with
      | some _ =>
        let p := s.policy
        shake256 (leBytes 4 p.seq.toNat ++ [byteOf (b2n p.requireOwnerFw + at_ (b2n p.requireSignedCanopy) 1 + at_ (b2n p.allowDebug) 2), 0, 0, 0])
      | none => List.replicate 32 0)
    ++ (List.range 4).flatMap (fun i => leBytes 8 (match (s.stand i).canopy with | some c => c.imageId.toNat | none => 0))
    ++ leBytes 4 s.trunk.map.gen.toNat ++ leBytes 4 0 ++ pad nonce 32

-- Answers (R422, R423).

/-- Completion codes of Table 19-13. -/
inductive MCode where
  | success | error | badRequest | unsupported | busy | refused | exhausted | denied | noIdentity | debug | storeReadOnly | powerRefused
  deriving DecidableEq, Repr

def MCode.code : MCode → Nat
  | .success => 0 | .error => 1 | .badRequest => 2 | .unsupported => 3 | .busy => 4 | .refused => 5 | .exhausted => 6 | .denied => 7
  | .noIdentity => 8 | .debug => 9 | .storeReadOnly => 0x0A | .powerRefused => 0x0B

/-- Answer a request; served messages and BAD_REQUEST answers are counted (Table 19-11). -/
def State.answer (s : State) (via : Transport) (cmd : Nat) (c : MCode) (payload : List Byte) : State :=
  let s1 := s.onMgmt fun m =>
    match c with
    | .badRequest => { m with errors := satInc m.errors }
    | .busy | .unsupported => m
    | _ => { m with requests := satInc m.requests }
  s1.emit (.mgmt via (byteOf cmd) (byteOf c.code) payload)

/-- A request reaches its server: rails up, the PCIe link up for VDM, the store not holding SMBus (R385), and no other request outstanding on the transport (BUSY). -/
def State.mgmtServe (s : State) (r : MReq) (cmd : Nat) (go : State → State) : State :=
  if s.trunk.boot = .off ∨ (r.via = .vdm ∧ !s.live) then s
  else if r.via = .smbus ∧ s.store.busy ≠ .idle then s
  else if s.mgmt.pending.any fun p => decide (p.via = r.via) then s.answer r.via cmd .busy []
  else go s

/-- A message the trunk serves: UNSUPPORTED in recovery mode unless it is marked R, and while the trunk is in reset or its boot ROM (R422). -/
def State.trunkServe (s : State) (r : MReq) (cmd : Nat) (inRecovery : Bool) (go : State → State) : State :=
  s.mgmtServe r cmd fun s =>
    if !s.trunk.fwRunning || s.trunk.warmBusy || (s.trunk.recovery && !inRecovery) then s.answer r.via cmd .unsupported [] else go s

/-- A message waits for `n` store writes to become durable; `after` says what follows. -/
def State.awaitStore (s : State) (via : Transport) (cmd n after : Nat) (payload : List Byte) : State :=
  s.onMgmt fun m => { m with pending := m.pending ++ [{ via := via, code := byteOf cmd, answer := payload, writes := n, after := after }] }

/-- Sign a quote with the next index and answer it (R405, R406). -/
def State.signQuote (s : State) (via : Transport) (nonce : List Byte) : State :=
  let i := s.trunk.xmssNext
  let body := s.quoteBody i nonce
  let sig := Config.xmssSign s.trunk.identityPk i (shake256 body)
  let s1 := s.onTrunk fun t => { t with xmssNext := i + 1 }
  let s2 := if subtreeOf (i + 1) ≠ subtreeOf i then s1.onTrunk fun t => { t with subtree := none } else s1
  let left := 1048576 - (i + 1)
  let s3 := if left < 65536 ∧ left + 1 = 65536 then s2.record .xmssLow uDevice { detail := left, detail2 := s.trunk.xmssLimit } else s2
  s3.answer via 0x10 .success (body ++ sub sig 0 2820)

/-- Serve a quote as far as it can go: reserve indices first, wait for the subtree, else sign (R404, R406). -/
def State.quote (s : State) (via : Transport) (nonce : List Byte) : State :=
  let i := s.trunk.xmssNext
  if !s.trunk.identityOk then
    (if s.trunk.debugActive then s.answer via 0x10 .debug [] else s.answer via 0x10 .noIdentity [])
  else if 1048576 ≤ i then s.answer via 0x10 .exhausted []
  else if s.trunk.subtree ≠ some (subtreeOf i) then s.awaitStore via 0x10 0 6 nonce
  else if s.trunk.xmssLimit ≤ i then
    (if s.storeRefuses then s.answer via 0x10 .storeReadOnly []
     else (s.storeRec xmssKey (.xmss (min (i + 16) 1048576)) .mgmt).awaitStore via 0x10 1 4 nonce)
  else s.signQuote via nonce

/-- What follows when the store writes of a message are durable. -/
def State.mgmtNext (s : State) (r : MgmtReq) : State :=
  let cmd := r.code.toNat
  match r.after with
  -- INSTALL_OWNER: the records are durable; ownership 1 and lifecycle 2.
  | 1 => ((s.storeWrite (.counter .ownership .mgmt)).storeWrite (.counter .lifecycle .mgmt)).awaitStore r.via cmd 2 3 r.answer
  -- TRANSFER_OWNER: increment the ownership counter.
  | 2 => (s.storeWrite (.counter .ownership .mgmt)).awaitStore r.via cmd 1 3 r.answer
  -- The owner has changed.
  | 3 => (s.record .ownerChanged uDevice { detail := s.store.counters.ownership, detail2 := s.store.counters.lifecycle }).answer r.via cmd .success []
  -- The reservation is durable.
  | 4 => (s.onTrunk fun t => { t with xmssLimit := s.xmssRec }).quote r.via r.answer
  -- The debug counter has risen: clear the key, open the vendor instructions (R407).
  | 5 => ((s.onTrunk fun t => { t with identityOk := false, identityPk := [], debugActive := true, subtree := none, nonce := none }).record
      .debugGranted uDevice { detail := s.store.counters.debug }).answer r.via cmd .success []
  | _ => s.answer r.via cmd .success r.answer

/-- One write of the message being served is durable. -/
def State.mgmtTold (s : State) : State :=
  match s.mgmt.pending.find? fun p => decide (0 < p.writes) with
  | none => s
  | some r =>
    let rest := s.mgmt.pending.filter fun p => !decide (p = r)
    if r.writes = 1 then (s.onMgmt fun m => { m with pending := rest }).mgmtNext r
    else s.onMgmt fun m => { m with pending := { r with writes := r.writes - 1 } :: rest }

/-- A write of the message being served was refused (R383). -/
def State.mgmtRefused (s : State) : State :=
  match s.mgmt.pending.find? fun p => decide (0 < p.writes) with
  | none => s
  | some r => (s.onMgmt fun m => { m with pending := m.pending.filter fun p => !decide (p = r) }).answer r.via r.code.toNat .storeReadOnly []

end Sys2Proof.Machine
end

