-- ==== Sys2Proof/Machine/ImageOps.lean ====
section
/-! DEFINITION. Reading a canopy image from HBM, and its validation in section order (R216 to R223, R236). -/

namespace Sys2Proof.Machine

/-- A rejection: status (Table 9-16), section and entry (R223). -/
abbrev Chk (α : Type) : Type := Except (Nat × Nat × Nat) α

/-- A rule of section `sec` that entry `e` must keep. -/
def keep (sec e : Nat) (holds : Bool) : Chk Unit := if holds then .ok () else .error (5, sec, e)

/-- A rule of the header. -/
def keepHdr (status : Nat) (holds : Bool) : Chk Unit := if holds then .ok () else .error (status, 15, 0)

/-- Check numbered entries one after another. -/
def forEach {α : Type} (l : List α) (f : Nat → α → Chk Unit) : Chk Unit := l.zipIdx.foldl (fun r p => r.bind fun _ => f p.2 p.1) (.ok ())

/-- Entry sizes of the sections (Table 9-3); section 3 is the program table's. -/
def entrySizes : List Nat := [32, 48, 144, 32, 288, 16, 544, 16, 128, 32]

/-- Entries of each section from the header's counts. -/
def sectionCounts (h : List Byte) : List Nat :=
  [le h 16 2, le h 32 2, le h 18 2, le h 20 2, le h 24 4, le h 22 2, le h 28 2, 16, le h 30 2, le h 34 2]

/-- Offset and length of section `i`. -/
def sectionAt (h : List Byte) (i : Nat) : Nat × Nat := (le h (40 + 8 * i) 4, le h (44 + 8 * i) 4)

/-- Bytes of entry `e` of section `i`. -/
def entryAt (bs : List Byte) (i e : Nat) : List Byte := sub bs ((sectionAt bs i).1 + nth 0 entrySizes i * e) (nth 0 entrySizes i)

/-- Entries of section `i`. -/
def entries (bs : List Byte) (i : Nat) : List (List Byte) := (List.range (nth 0 (sectionCounts bs) i)).map (entryAt bs i)

/-- The image is signed. -/
def imgSigned (h : List Byte) : Bool := (le h 6 2).testBit 0

/-- First byte after the header and any signature block. -/
def bodyStart (h : List Byte) : Nat := if imgSigned h then 4352 else 256

/-- Sections lie in order, aligned, without overlap and inside the image, with the lengths of their counts, the empty ones too (R216). -/
def sectionsOk (h : List Byte) : Bool :=
  ((List.range 10).foldl (fun (a : Bool × Nat) i =>
    let (o, n) := sectionAt h i
    let count := nth 0 (sectionCounts h) i
    let len := if i = 3 then decide (32 * count ≤ n ∧ (n - 32 * count) % 8 = 0) else n == count * nth 0 entrySizes i
    (a.1 && len && o % 64 == 0 && decide (o + n ≤ le h 8 4) && decide (a.2 ≤ o), o + n)) (true, bodyStart h)).1

/-- The header keeps R216 and Table 9-1, and agrees with the command's stand mask. -/
def headerOk (h : List Byte) (mask : Nat) : Bool :=
  let within := fun (o n lo hi : Nat) => decide (lo ≤ le h o n ∧ le h o n ≤ hi)
  le h 0 4 == 0x43504E59 && le h 4 2 == 1 && decide (le h 6 2 < 2) && within 8 4 (bodyStart h) 0x04000000 && within 12 1 0 1
    && within 13 1 1 15 && (le h 12 1 == 1 || le h 13 1 == 15) && le h 13 1 == mask
    && within 16 2 0 4096 && within 18 2 0 1024 && within 20 2 1 4096 && within 22 2 1 4096 && within 24 4 1 65536 && within 28 2 0 256
    && within 30 2 0 1024 && within 32 2 0 256 && allZero (sub h 36 4) && allZero (sub h 120 104) && sectionsOk h

/-- Image digest (R217). -/
def imageDigest (bs : List Byte) : List Byte := shake256 (bs.take 224 ++ sub bs (bodyStart bs) (le bs 8 4 - bodyStart bs))

-- Entries as data.

def parseLayer (e : List Byte) : Layer :=
  { bough := le e 0 1, mode := le e 1 1, slotMask := BitVec.ofNat 16 (le e 2 2), inTensor := le e 4 2, outTensor := le e 6 2, sW := wordOf (le e 8 4) }

def parseLeafRef (e : List Byte) : LeafRef :=
  { bough := le e 0 1, slot := le e 1 1, width := le e 2 1, rangeFirst := le e 3 1 % 4, rangeSecond := le e 3 1 / 4 % 4, imageOffset := le e 8 8,
    digest := sub e 16 32 }

def parseRoute (e : List Byte) : Route :=
  { halo := le e 2 1 == 1, depth := le e 3 1, receiver := le e 4 1, bufferBytes := le e 8 4,
    senders := (List.range (le e 5 1)).map fun i => (le e (16 + 8 * i) 1, le e (20 + 8 * i) 4) }

/-- A program table entry with its operations. -/
def parseProgram (bs : List Byte) (e : List Byte) : Program :=
  let first := (sectionAt bs 3).1 + 32 * le bs 20 2
  { governMask := le e 8 1, boughMask := BitVec.ofNat 16 (le e 10 2), govern := (List.range 6).map fun i => le e (12 + 2 * i) 2,
    ops := (List.range (le e 4 4)).map fun k => BitVec.ofNat 64 (le bs (first + 8 * (le e 0 4 + k)) 8) }

def parseSlotEnt (n : Nat) : SlotEnt := { present := n.testBit 15, vecGroup := n / 256 % 16, colBlock := n / 16 % 16, rowBlock := n % 16 }

def tagOf : Nat → Tag
  | 0 => .transfer | 1 => .stage | _ => .eval

def dimOf : Nat → Dim
  | 0 => .none | 1 => .m | _ => .k

def parseLevel (e : List Byte) : Level :=
  { bound := decodeVal (le e 0 8), inStride := sext 32 (le e 8 4), outStride := sext 32 (le e 12 4), wStride := sext 32 (le e 16 4), body := le e 20 2,
    stop := le e 22 2, tag := tagOf (le e 24 1), dim := dimOf (le e 25 1), step := le e 26 2, run := le e 28 2, ring := le e 30 1, skew := le e 31 1 }

def kindOf : Nat → DKind
  | 0 => .transfer | 1 => .drive | 2 => .exchange | _ => .loc

/-- A sapwood offset of a mask. -/
def maskAt (n : Nat) : Option Nat := if n = 0xFFFFFFFF then none else some n

def parseDescr (e : List Byte) : Desc :=
  { kind := kindOf (le e 1 1), vecGroups := le e 2 1, inTensor := le e 4 2, outTensor := le e 6 2, inBase := decodeAddr (le e 8 8),
    outBase := decodeAddr (le e 16 8), extentK := decodeVal (le e 24 8), extentM := decodeVal (le e 32 8), ptrList := decodeAddr (le e 40 8),
    rowMask := maskAt (le e 48 4), colMask := maskAt (le e 52 4), groupInStride := if le e 1 1 = 1 then sext 32 (le e 56 4) else 0,
    groupOutStride := if le e 1 1 = 1 then sext 32 (le e 60 4) else 0, auxBase := if le e 1 1 = 3 then decodeAddr (le e 56 8) else .none,
    slots := (List.range 16).map fun i => parseSlotEnt (le e (64 + 2 * i) 2),
    levels := (List.range (le e 0 1)).map fun i => parseLevel (sub e (96 + 32 * i) 32) }

def parseQuant (e : List Byte) : Quant :=
  { fmt := (fmtOf (le e 2 1)).getD .int8, expCarry := (le e 3 1).testBit 0, runMax := (le e 3 1).testBit 1, window := le e 3 1 / 16,
    headroom := BitVec.ofNat 16 (le e 4 2), convSatLimit := le e 6 2, clipLimit := le e 8 2, sInit := wordOf (le e 12 4) }

def parseTable (e : List Byte) : NlTable :=
  { boughMask := BitVec.ofNat 16 (le e 0 2), slot := le e 2 1, nlFrac := le e 3 1, outFmt := (fmtOf (le e 4 1)).getD .int8, preTensor := le e 6 2,
    outTensor := le e 8 2, y := (List.range 257).map fun i => sext 16 (le e (16 + 2 * i) 2) }

def parseThreshold (e : List Byte) : Threshold :=
  { raCtrl := wordOf (le e 0 4), qntCtrl := wordOf (le e 4 4), calCtrl := wordOf (le e 8 4), apply := (le e 12 4).testBit 0 }

def parseGraft (e : List Byte) : Graft :=
  let w := fun o => wordOf (le e o 4)
  { outTensor := le e 0 2, inTensor := le e 2 2, n := le e 4 2, m := le e 6 2, rank := le e 8 1, cone := le e 9 1 == 13,
    trainable := (le e 10 1).testBit 0, foldable := (le e 10 1).testBit 1, alpha := w 12, lr := w 16, beta1 := w 20, beta2 := w 24, eps := w 28,
    decay := w 32, stA := w 36, stB := w 40, stG := w 44, stM := w 48, stV := w 52, region := le e 56 4, bankBytes := le e 60 4,
    foldMap := (List.range (le e 11 1)).map fun i =>
      let v := le e (64 + 4 * i) 4
      { bough := v % 256, slot := v / 256 % 256, rowBlock := v / 65536 % 16, colBlock := v / 1048576 % 16 } }

def parseCompanion (e : List Byte) : Companion :=
  { desc := le e 0 2, operand := le e 2 1, compDisp := sext 64 (le e 8 8), sideDisp := sext 64 (le e 16 8), sideUnits := le e 24 4 }

/-- The image as data; meaningful where the header is well formed. -/
def parseCanopy (bs : List Byte) : Canopy :=
  { imageId := BitVec.ofNat 64 (le bs 224 8), length := le bs 8 4, signed := imgSigned bs, scopeStands := le bs 12 1 == 1,
    standMask := BitVec.ofNat 4 (le bs 13 1), boughUse := BitVec.ofNat 16 (le bs 14 2),
    layers := (entries bs 0).map parseLayer, leafRefs := (entries bs 1).map parseLeafRef, routes := (entries bs 2).map parseRoute,
    programs := (entries bs 3).map (parseProgram bs), descs := (entries bs 4).map parseDescr, quants := (entries bs 5).map parseQuant,
    tables := (entries bs 6).map parseTable, thresholds := (entries bs 7).map parseThreshold, grafts := (entries bs 8).map parseGraft,
    companions := (entries bs 9).map parseCompanion }

-- Section checks.

/-- A bough number that the image uses. -/
def Canopy.uses (c : Canopy) (b : Nat) : Bool := decide (b < 16) && bit c.boughUse b

def Canopy.hasTensor (c : Canopy) (t : Nat) : Bool := decide (t < c.quants.length)

/-- Weight width of a leaf reference of a slot. -/
def Canopy.refWidth (c : Canopy) (b slot : Nat) : Option Nat := (c.leafRefs.find? fun r => r.bough == b && r.slot == slot).map (·.width)

/-- Placement (R219). -/
def Canopy.layerOk (c : Canopy) (i : Nat) (e : List Byte) : Bool :=
  let l := parseLayer e
  let widths := (bitsSet 16 l.slotMask.toNat).map (c.refWidth l.bough)
  c.uses l.bough && decide (l.mode ≤ 2) && allZero (sub e 12 20) && c.hasTensor l.inTensor && c.hasTensor l.outTensor && f32pos l.sW
    && widths.all (·.isSome) && widths.all (fun w => some w == widths.head?)
    && (c.layers.take i).all fun m => m.outTensor != l.outTensor || (m.inTensor == l.inTensor && m.sW == l.sW)

/-- Leaf references (R218): a slot of a bough that the image uses. -/
def Canopy.leafRefOk (c : Canopy) (i : Nat) (e : List Byte) : Bool :=
  let r := parseLeafRef e
  c.uses r.bough && decide (r.slot < 16 ∧ r.width ≤ 2 ∧ le e 3 1 < 16) && allZero (sub e 4 4) && r.imageOffset % 256 == 0
    && (c.leafRefs.take i).all fun m => !(m.bough == r.bough && m.slot == r.slot)

/-- Staging of a route: receiver, offset and bytes of each sender's buffers. -/
def Route.areas (r : Route) : List (Nat × Nat × Nat) := r.senders.map fun p => (r.receiver, p.2, r.depth * r.bufferBytes)

/-- Two areas of one receiver overlap. -/
def overlap (a b : Nat × Nat × Nat) : Bool := a.1 == b.1 && decide (a.2.1 < b.2.1 + b.2.2 ∧ b.2.1 < a.2.1 + a.2.2)

/-- No area of a list overlaps another of it. -/
def disjointAreas : List (Nat × Nat × Nat) → Bool
  | [] => true
  | a :: r => !r.any (overlap a) && disjointAreas r

/-- Routes (Table 9-6). -/
def Canopy.routeOk (c : Canopy) (i : Nat) (e : List Byte) : Bool :=
  let r := parseRoute e
  let n := le e 5 1
  allZero (sub e 0 2) && allZero (sub e 6 2) && allZero (sub e 12 4) && decide (le e 2 1 ≤ 1 ∧ 1 ≤ r.depth ∧ r.depth ≤ 4 ∧ 1 ≤ n ∧ n ≤ 15)
    && r.bufferBytes % 64 == 0 && c.uses r.receiver && r.senders.all (fun p => c.uses p.1)
    && decide ((r.senders.map (·.1)).eraseDups.length = n) && !(r.senders.any fun p => p.1 == r.receiver)
    && (List.range n).all (fun k => allZero (sub e (17 + 8 * k) 3)) && allZero (sub e (16 + 8 * n) (8 * (16 - n)))
    && r.senders.all (fun p => p.2 % 64 == 0 && decide (p.2 + r.depth * r.bufferBytes ≤ 6 * 2 ^ 20))
    && disjointAreas r.areas && r.areas.all fun a => !((c.routes.take i).flatMap Route.areas).any (overlap a)

/-- Spaces of Table 7-13. -/
def Addr.isSap : Addr → Bool
  | .sap _ => true | _ => false
def Addr.isAcc : Addr → Bool
  | .acc _ => true | _ => false
def Addr.isHbm : Addr → Bool
  | .hbm _ => true | _ => false

/-- Source formats of a VEC function and, where one is set, its destination format (Tables 7-2 and 7-14). -/
def vecFormats (code : Nat) : List Fmt × Option Fmt :=
  let fps : List Fmt := [.fp16, .bf16, .fp32]
  let ints : List Fmt := [.int8, .uint8, .int16]
  if code ≤ 1 then (fps ++ ints ++ [.int32], none) else if code ≤ 7 then (fps ++ ints, none)
  else if code = 8 then (ints, none) else if code = 9 then (ints ++ [.int32], none)
  else if code = 0x0A ∨ code = 0x0B then ([.cint8, .cint16], some .int32)
  else if code = 0x0C ∨ code = 0x0D then ([.int32, .fp32], none)
  else if code = 0x0E then (ints, some .int32) else ([], none)

/-- A local operation's regions and tensors (R168, Table 7-13). -/
def Canopy.localOk (c : Canopy) (w : OpWord) (d : Desc) : Bool :=
  let ins := c.hasTensor d.inTensor
  let outs := c.hasTensor d.outTensor
  let q := c.quant d.inTensor
  let noAux := d.auxBase == .none
  if w.opcode = 4 then w.a == 0 && d.inBase.isAcc && d.outBase.isAcc && noAux && outs
  else if w.opcode = 5 then d.inBase.isAcc && d.outBase.isSap && noAux && c.hasTensor w.a && d.outTensor == w.a
  else if w.opcode = 6 then d.inBase.isSap && d.outBase.isSap && noAux
  else if w.opcode = 7 then w.a == 0 && d.inBase.isSap && d.outBase.isSap && noAux && ins && outs && q.fmt != .cone4 && (c.quant d.outTensor).fmt != .cone4
  else if w.opcode = 8 then
    let two := !(w.a == 6 || w.a == 12 || w.a == 13)
    let (src, dst) := vecFormats w.a
    d.inBase.isSap && d.outBase.isSap && (if two then d.auxBase.isSap else noAux) && ins && outs && src.contains q.fmt
      && (match dst with | some f => (c.quant d.outTensor).fmt == f | none => true)
  else d.inBase.isSap && d.outBase.isSap && (d.auxBase.isSap || d.auxBase.isHbm) && ins && coneFormat q.fmt && c.hasTensor w.a && (c.quant w.a).fmt == .cone4

/-- The image loads table slot `a` on bough `b` (R164). -/
def Canopy.loadsTable (c : Canopy) (a b : Nat) : Bool := c.tables.any fun t => t.slot == a && bit t.boughMask b

/-- Descriptor `i` exists, has a kind and level `l`. -/
def Canopy.descIs (c : Canopy) (i : Nat) (k : DKind) (l : Nat) : Bool :=
  match c.descs[i]? with
  | some d => d.kind == k && decide (l < d.levels.length)
  | none => false

/-- One operation of a program (R167, R168, R190, Table 7-3). -/
def Canopy.opOk (c : Canopy) (p : Program) (v : DWord) : Bool :=
  let w := opWord v
  let (xd, xl) := exchDesc w.b
  (w.flags == 0 || (w.opcode == 3 && decide (w.flags < 4))) &&
  (if w.opcode = 0 ∨ w.opcode = 0x0F ∨ w.opcode = 0x10 then w.a == 0 && w.b == 0
  else if w.opcode = 1 ∨ w.opcode = 2 then c.descIs w.a .transfer w.b && c.hasTensor (c.desc w.a).inTensor && c.hasTensor (c.desc w.a).outTensor
  else if w.opcode = 3 then c.descIs w.a .drive 0 && decide (w.b < 65536) && c.hasTensor (c.desc w.a).inTensor && c.hasTensor (c.desc w.a).outTensor
  else if w.opcode = 8 ∧ 0x80 ≤ w.a then decide (w.a ≤ 0x82)
  else if 4 ≤ w.opcode ∧ w.opcode ≤ 9 then
    w.b / 8 % 8192 == 0 && c.descIs (w.b / 65536) .loc (w.b % 8) && c.localOk w (c.desc (w.b / 65536))
      && (w.opcode != 6 || (decide (w.a < 16) && (bitsSet 16 p.boughMask.toNat).all (c.loadsTable w.a)))
  else if w.opcode = 0x0A ∨ w.opcode = 0x0B then decide (w.a < c.routes.length) && w.b / 8 % 8192 == 0 && c.descIs xd .exchange xl
  else if w.opcode = 0x0C ∨ w.opcode = 0x0D then w.b == 0
  else w.opcode == 0x0E && decide (w.b < 6) && p.governMask.testBit w.b && nth 0 p.govern w.b == w.a)

/-- A governed depth names a descriptor's level whose body does not pass its end, and the end is that level's LOOP (R190, R192). -/
def Canopy.governOk (c : Canopy) (p : Program) (i : Nat) : Bool :=
  let g := nth 0 p.govern i
  if !p.governMask.testBit i then g == 0
  else match c.descs[g]? with
    | none => false
    | some d =>
      let l := d.level i
      decide (i < d.levels.length ∧ l.body ≤ l.stop) && (match p.ops[l.stop]? with
        | some v => let w := opWord v; w.opcode == 0x0E && w.a == g && w.b == i
        | none => false)

/-- Twig programs (Table 9-7). -/
def Canopy.programOk (c : Canopy) (bs : List Byte) (e : List Byte) : Bool :=
  let p := parseProgram bs e
  let total := ((sectionAt bs 3).2 - 32 * le bs 20 2) / 8
  decide (1 ≤ le e 4 4 ∧ le e 4 4 ≤ 65536 ∧ le e 0 4 + le e 4 4 ≤ total ∧ p.governMask < 64) && allZero (sub e 9 1) && allZero (sub e 24 8)
    && p.boughMask &&& c.boughUse == p.boughMask && (List.range 6).all (c.governOk p) && p.ops.all (c.opOk p)
    && (match p.ops.getLast? with | some v => (opWord v).opcode == 0x10 | none => false)

/-- Bytes 64 to 95 describe a well-formed slot table (R195). -/
def slotsOk (e : List Byte) (drive : Bool) : Bool :=
  if !drive then allZero (sub e 64 32)
  else (List.range 16).all fun i =>
    let v := le e (64 + 2 * i) 2
    v / 4096 % 8 == 0 && (!v.testBit 15 || decide (v / 256 % 16 < le e 2 1))

/-- A mask's offset is 64-byte aligned inside sapwood. -/
def maskOk (m : Option Nat) (n : Nat) : Bool := match m with | none => true | some o => o % 64 == 0 && decide (o + n ≤ 6 * 2 ^ 20)

/-- One level entry (Table 8-4). -/
def levelOk (e : List Byte) (l : Level) (kind : Nat) (deepest : Bool) : Bool :=
  decide (le e 24 1 ≤ 2 ∧ le e 25 1 ≤ 2 ∧ l.ring ≤ 16 ∧ l.skew ≤ 15) && l.bound != .bad
    && (if kind != 1 && deepest then decide (1 ≤ l.run) else l.run == 0) && (kind != 3 || le e 24 1 == 1)

/-- A descriptor against R193, R194, R195, R198 and R207. -/
def descrOk (e : List Byte) : Bool :=
  let d := parseDescr e
  let n := le e 0 1
  let kind := le e 1 1
  let tags := (List.range n).map fun i => le e (120 + 32 * i) 1
  decide (1 ≤ n ∧ n ≤ 6 ∧ kind ≤ 3) && le e 3 1 == 0 && decide (le e 4 2 < 4096 ∧ le e 6 2 < 4096)
    && (if kind = 1 then decide (1 ≤ d.vecGroups ∧ d.vecGroups ≤ 16) else d.vecGroups == 0)
    && d.inBase != .bad && d.outBase != .bad && d.extentK != .bad && d.extentM != .bad && d.auxBase != .bad
    && maskOk d.rowMask 128 && maskOk d.colMask 1024 && (kind != 3 || (d.rowMask.isNone && d.colMask.isNone))
    && (kind == 1 || kind == 3 || allZero (sub e 56 8)) && slotsOk e (kind == 1)
    && (List.range n).all (fun i => levelOk (sub e (96 + 32 * i) 32) (d.level i) kind (i + 1 == n))
    && allZero (sub e (96 + 32 * n) (32 * (6 - n)))
    && (tags.zip (tags.drop 1)).all (fun p => decide (p.1 ≤ p.2)) && (kind != 1 || tags.contains 2)
    && (match d.ptrList with
      | .none => true
      | .sap o | .hbm o => o % 64 == 0 && decide ((d.levels.filter fun l => l.dim == .m && l.tag != .eval && decide (l.bound = .imm 0)).length = 1)
      | _ => false)

/-- Immediate value of a bound. -/
def Val.imm? : Val → Option Nat
  | .imm n => some n
  | _ => none

/-- Values that counter `i` takes at an operation, where they are immediate: a shared depth follows its governing level inside its loop (R190, R192). -/
def Canopy.counterRange (c : Canopy) (p : Program) (pc : Nat) (d : Desc) (shared i : Nat) : Option (List Nat) :=
  if shared ≤ i then (d.level i).bound.imm?.map List.range
  else if !p.governMask.testBit i then some [0]
  else
    let l := (c.desc (nth 0 p.govern i)).level i
    if l.body ≤ pc ∧ pc ≤ l.stop then l.bound.imm?.map List.range else some [0]

/-- Every combination of one value from each list. -/
def combos : List (List Nat) → List (List Nat)
  | [] => [[]]
  | r :: rest => r.flatMap fun i => (combos rest).map (i :: ·)

/-- Levels an operation takes from the shared counters (R191). -/
def sharedLevels (w : OpWord) (d : Desc) : Nat :=
  if w.opcode = 3 then (d.levels.findIdx? fun l => decide (l.tag = .eval)).getD d.levels.length
  else if w.opcode ≤ 2 then w.b + 1 else w.b % 8 + 1

/-- Descriptor of an operation. -/
def opDescr (w : OpWord) : Nat := if w.opcode ≤ 3 then w.a else w.b / 65536

/-- The attempt succeeds. -/
def Issue.good {α : Type} (r : Issue α) : Bool := match r with | .ok _ => true | .error _ => false

/-- The program runs on some bough for which a check holds: what fails on every one fails on immediate values alone. -/
def Program.someBough (p : Program) (f : Nat → Bool) : Bool := let l := bitsSet 16 p.boughMask.toNat; l.isEmpty || l.any f

/-- Rows of one slot of a DRIVE's vector at sapwood offset `a` lie in sapwood with their exponents; what a row mask leaves out is known only at issue. -/
def Canopy.rowsOk (c : Canopy) (k : Nat) (d : Desc) (i : Iter) (a : Nat) (sl : SlotEnt) : Bool :=
  let q := c.quant d.inTensor
  let bits := ((actFormat q).getD (128, true, 8)).2.2
  let r0 := i.w.toNat % 1024
  let first := sl.rowBlock * 1024
  let stop : Int := match i.extK with | some e => min (ni (first + 1024 - r0)) (ni e - i.posK) | none => ni (first + 1024 - r0)
  let last := stop.toNat - 1
  let base := d.baseOf i 0
  let expOk := fun (el : Nat) => match c.companion k 0 with
    | some m => let x := base + m.compDisp + (ni (a + el * bits / 8) - base) / 32; decide (0 ≤ x ∧ x < ni (6 * 2 ^ 20))
    | none => false
  d.rowMask.isSome || decide (stop ≤ ni first) || (decide (a + last * bits / 8 < 6 * 2 ^ 20) && (!q.carries || (expOk first && expOk last)))

/-- A DRIVE's iteration on bough `b` passes Table 8-5: slots, weight widths of the image's references, address ranges and nesting. -/
def Canopy.driveIterOk (c : Canopy) (w : OpWord) (k : Nat) (d : Desc) (priv : List Nat) (shared : Nat) (i : Iter) (b : Nat) : Bool :=
  let slots := bitsSet 16 w.b
  let widths := slots.filterMap fun sl => c.refWidth b (driveSlot i sl)
  let ent := fun (sl : Nat) => nth {} d.slots sl
  widths.all (fun x => some x == widths.head?) && (match widths.head? with
    | none => true
    | some wd =>
      let lc := logicals (BitVec.ofNat 2 wd)
      nestingOk d ((slots.foldl (fun m sl => max m (ent sl).colBlock) 0 + 1) * lc) (priv.zipIdx.map fun v => (v.1, (d.level (shared + v.2)).outStride))
        && (List.range (max 1 d.vecGroups)).all fun g => match i.inA.add ((g : Int) * d.groupInStride), i.outA.add ((g : Int) * d.groupOutStride) with
          | .sap a, .acc o => (slots.filter fun sl => (ent sl).vecGroup == g).all fun sl => decide (o + ((ent sl).colBlock + 1) * lc ≤ 131072) && c.rowsOk k d i a (ent sl)
          | _, _ => false)

/-- One iteration passes the checks of Table 8-5 that its addresses decide. -/
def Canopy.iterOk (c : Canopy) (p : Program) (w : OpWord) (k : Nat) (d : Desc) (priv : List Nat) (shared : Nat) (i : Iter) : Bool :=
  let n := (d.level (d.levels.length - 1)).run
  let fits := fun (operand tensor m : Nat) => (c.opd k d i operand tensor m).good
  let region := fun (a : Addr) (m : Nat) => (accRegion a m).good
  if w.opcode = 1 then i.inA.room n && i.outA.room n && n % (c.quant d.inTensor).fmt.elemBytes == 0
  else if w.opcode = 2 then i.inA.room n && i.outA.room n && n % (c.quant d.outTensor).fmt.elemBytes == 0
  else if w.opcode = 3 then
    decide (0 ≤ i.w) && ((bitsSet 16 w.b).all fun sl => decide (driveSlot i sl ≤ 15)) && p.someBough (c.driveIterOk w k d priv shared i)
  else if w.opcode = 4 then region i.inA (3 * n) && region i.outA (2 * n)
  else if w.opcode = 5 then region i.inA n && fits 1 w.a n
  else if w.opcode = 6 then (c.tables.filter fun x => x.slot == w.a && x.boughMask &&& p.boughMask != 0).all fun x => fits 0 x.preTensor n && fits 1 x.outTensor n
  else if w.opcode = 7 then fits 0 d.inTensor n && fits 1 d.outTensor n
  else if w.opcode = 8 then
    let m := n * (c.quant d.inTensor).fmt.comps
    fits 0 d.inTensor m && fits 1 d.outTensor (if w.a = 12 ∨ w.a = 13 then 1 else m) && (w.a == 6 || w.a == 12 || w.a == 13 || fits 2 d.inTensor m)
  else if w.opcode = 9 then
    fits 0 d.inTensor (i.extK.getD 0) && (fp32Opd i.outA n).good && (match c.companion k 2 with
      | some cp => (coneAreas d i cp (ceilDiv (i.extK.getD 0) 32) n).all fun a => a.2 == 0 || a.1.room a.2
      | none => false)
  else match c.routes[w.a]? with
    | none => false
    | some r =>
      if w.opcode = 0x0A then
        if r.halo then i.inA.isSap && i.inA.room n else region i.inA (n / 4) && n % 64 == 0
      else (xrecvLines r [i] n).good

/-- Lines that an operation's iterations can fill, as far as immediate values decide it (R177): of what it writes to sapwood, HBM and host memory, and of a transfer. -/
def Canopy.fillLines (c : Canopy) (p : Program) (w : OpWord) (k : Nat) (d : Desc) (moves : List Iter) : Nat :=
  let n := (d.level (d.levels.length - 1)).run
  let out := fun (tensor m : Nat) => moves.flatMap fun i => match c.opd k d i 1 tensor m with | .ok o => o.ranges | .error _ => []
  let count := fun (l : List (Nat × Nat)) => (linesTouched l).length
  if w.opcode = 2 then count (moves.map fun i => (i.outA.num, n))
  else if w.opcode = 5 then count (out w.a n)
  else if w.opcode = 6 then (match c.tables.find? fun x => x.slot == w.a && x.boughMask &&& p.boughMask != 0 with | some x => count (out x.outTensor n) | none => 0)
  else if w.opcode = 7 then count (out d.outTensor n)
  else if w.opcode = 8 then count (out d.outTensor (if w.a = 12 ∨ w.a = 13 then 1 else n * (c.quant d.inTensor).fmt.comps))
  else if w.opcode = 9 then count (moves.map fun i => (i.outA.num, 4 * n))
  else if w.opcode = 0x0A then ceilDiv (moves.length * n) 64
  else if w.opcode = 0x0B then ((moves.flatMap fun i => match i.outA with | .acc o => accLines o (n / 4) | _ => []).eraseDups).length
  else 0

/-- The route of an exchange has the operation's bough as a member and staging for its transfer (Table 8-5). -/
def Canopy.exchangeOk (c : Canopy) (p : Program) (w : OpWord) (d : Desc) (moves : List Iter) : Bool :=
  let bytes := moves.length * (d.level (d.levels.length - 1)).run
  match c.routes[w.a]? with
  | none => false
  | some r => p.someBough (fun b => if w.opcode = 0x0A then (r.staging b).isSome else r.receiver == b)
      && ((w.opcode == 0x0B && r.halo) || decide (64 * ceilDiv bytes 64 + (if r.halo then 0 else bytes / 64) ≤ r.bufferBytes))

/-- An operation on descriptor `k` passes Table 8-5 as far as immediate values alone decide it (R203): at every value of the counters it takes from the shared ones, all its iterations (log entry 159). -/
def Canopy.immediateOk (c : Canopy) (s : State) (k : Nat) (p : Program) (pc : Nat) (v : DWord) : Bool :=
  let w := opWord v
  let d := c.desc k
  let named := decide (1 ≤ w.opcode ∧ w.opcode ≤ 0x0B) && !(w.opcode == 8 && decide (0x80 ≤ w.a)) && opDescr w == k
  if !named ∨ d.listLevel.isSome then true
  else
    let q := c.quant d.inTensor
    let slots := w.opcode != 3 || (((bitsSet 16 w.b).all fun i => (nth {} d.slots i).present) && (actFormat q).isSome && (!q.carries || (c.companion k 0).isSome))
    let shared := sharedLevels w d
    let ranges := (List.range d.levels.length).map (c.counterRange p pc d shared)
    slots && (match d.extentK, d.extentM with
      | .imm ek, .imm em =>
        if ranges.all (·.isSome) then
          let l := ranges.filterMap id
          let priv := (l.drop shared).map List.length
          (combos (l.take shared)).all fun sh =>
            let its := (combos (l.drop shared)).filterMap fun cs => match s.formIter 0 d (sh ++ cs) (ek, em) with | .ok i => some i | .error _ => none
            let moves := if w.opcode = 3 then its else its.filter Iter.inside
            moves.all (c.iterOk p w k d priv shared) && decide (c.fillLines p w k d moves ≤ 2048)
              && (decide (w.opcode < 0x0A) || moves.isEmpty || c.exchangeOk p w d moves)
        else true
      | _, _ => true)

/-- Every operation of the image on descriptor `k`. -/
def Canopy.descrImmediate (c : Canopy) (s : State) (k : Nat) : Bool :=
  c.programs.all fun p => p.ops.zipIdx.all fun o => c.immediateOk s k p o.2 o.1

/-- Quantisation entries (R137, R220). -/
def quantOk (i : Nat) (e : List Byte) : Bool :=
  let q := parseQuant e
  le e 0 2 == i && decide (le e 2 1 < 15) && le e 3 1 / 4 % 4 == 0 && allZero (sub e 10 2) && f32pos q.sInit
    && (!q.expCarry || q.fmt == .int8 || q.fmt == .bsi8) && (!q.runMax || (q.fmt.fp?.isNone && q.fmt != .cone4))

/-- Nonlinear tables (Table 9-10, R165). -/
def Canopy.tableOk (c : Canopy) (i : Nat) (e : List Byte) : Bool :=
  let t := parseTable e
  decide (t.slot < 16 ∧ t.nlFrac ≤ 8 ∧ le e 4 1 ≤ 4) && allZero (sub e 5 1) && allZero (sub e 10 6) && allZero (sub e 530 14)
    && t.boughMask &&& c.boughUse == t.boughMask && c.hasTensor t.preTensor && c.hasTensor t.outTensor
    && ((c.quant t.preTensor).fmt == .int16) && !(c.quant t.preTensor).runMax && !(c.quant t.outTensor).runMax
    && (c.tables.take i).all fun m => m.slot != t.slot || m.boughMask &&& t.boughMask == 0

/-- Thresholds (R221): reserved fields are 0. -/
def thresholdOk (e : List Byte) : Bool :=
  let free := fun (o mask : Nat) => le e o 4 &&& (0xFFFFFFFF ^^^ mask) == 0
  free 0 0x33F && free 4 0xC7 && free 8 0x1FF0F && free 12 1

/-- Finite, and at least or above 0. -/
def f32fin (w : Word) : Bool := (f32num w).isFinite
def f32nonneg (w : Word) : Bool := f32fin w && decide (0 ≤ f32val w)
def f32unit (w : Word) : Bool := f32nonneg w && decide (f32val w < 1)

/-- Layer entries of a tensor. -/
def Canopy.layersOf (c : Canopy) (t : Nat) : List Layer := c.layers.filter (·.outTensor == t)

/-- The fold map of a foldable graft (R236). -/
def Canopy.foldMapOk (c : Canopy) (g : Graft) : Bool :=
  let ls := c.layersOf g.outTensor
  let lc := fun (f : FoldEnt) => match c.refWidth f.bough f.slot with | some w => logicals (BitVec.ofNat 2 w) | none => 128
  let cols := match g.foldMap with | f :: _ => lc f | [] => 128
  ls.all (fun l => l.mode != 2) && g.foldMap.all (fun f => ls.any fun l => l.bough == f.bough && bit l.slotMask f.slot)
    && (List.range (ceilDiv g.n 1024)).all (fun r => (List.range (ceilDiv g.m cols)).all fun k =>
      g.foldMap.any fun f => f.rowBlock == r && f.colBlock == k)

/-- Graft descriptors (R236). -/
def Canopy.graftOk (c : Canopy) (i : Nat) (e : List Byte) : Bool :=
  let g := parseGraft e
  let n := le e 11 1
  let inF := c.quant g.inTensor
  decide (1 ≤ g.n ∧ g.n ≤ 4096 ∧ 1 ≤ g.m ∧ g.m ≤ 4096 ∧ 1 ≤ g.rank ∧ g.rank ≤ 64 ∧ le e 10 1 < 4 ∧ n ≤ 16) && (g.foldable || n == 0)
    && (le e 9 1 == 2 || le e 9 1 == 13) && c.hasTensor g.outTensor && c.hasTensor g.inTensor
    && f32fin g.alpha && f32nonneg g.lr && f32unit g.beta1 && f32unit g.beta2 && f32pos g.eps && f32nonneg g.decay
    && f32pos g.stA && f32pos g.stB && f32pos g.stG && f32pos g.stM && f32pos g.stV
    && g.region % 64 == 0 && g.bankBytes % 64 == 0 && decide (g.bankNeed ≤ g.bankBytes)
    && (List.range n).all (fun k => le e (67 + 4 * k) 1 == 0) && allZero (sub e (64 + 4 * n) (4 * (16 - n)))
    && (c.grafts.take i).all (fun h => h.outTensor != g.outTensor)
    && c.layers.any (fun l => l.outTensor == g.outTensor && l.inTensor == g.inTensor) && (inF.fmt == .int8 || inF.fmt == .bsi8)
    && (!g.foldable || c.foldMapOk g)

/-- Tensors of an operand of a descriptor: those its operations name, else the descriptor's fields (Table 7-13). -/
def Canopy.operandTensors (c : Canopy) (k operand : Nat) : List Nat :=
  let d := c.desc k
  let named := (c.programs.flatMap (·.ops)).filterMap fun v =>
    let w := opWord v
    if 4 ≤ w.opcode ∧ w.opcode ≤ 9 ∧ !(w.opcode == 8 && decide (0x80 ≤ w.a)) ∧ w.b / 65536 = k then some w else none
  let t := c.tables
  let tens := named.flatMap fun w =>
    if w.opcode = 6 then (t.filter (·.slot == w.a)).map fun x => if operand = 1 then x.outTensor else x.preTensor
    else if w.opcode = 9 ∧ operand = 2 then [w.a]
    else if w.opcode = 9 ∧ operand = 1 then []
    else [if operand = 1 then d.outTensor else d.inTensor]
  if named.isEmpty then [if operand = 1 then d.outTensor else d.inTensor] else tens

/-- A tensor is stored with companions (R222). -/
def Canopy.blocked (c : Canopy) (t : Nat) : Bool := (c.quant t).carries || (c.quant t).fmt == .cone4

/-- The operand needs a companion layout (R222): an element array in memory, not accumulator partials. -/
def Canopy.needsCompanion (c : Canopy) (k operand : Nat) : Bool :=
  match c.descs[k]? with
  | none => false
  | some d =>
    let base := match operand with | 0 => d.inBase | 1 => d.outBase | _ => d.auxBase
    let stored := match base with | .sap _ | .hbm _ | .host _ => true | _ => false
    ((d.kind == .drive && decide (operand < 2)) || (d.kind == .loc && decide (operand < 3))) && stored && (c.operandTensors k operand).any c.blocked

/-- Companion layouts (Table 9-17). -/
def Canopy.companionOk (c : Canopy) (i : Nat) (e : List Byte) : Bool :=
  let x := parseCompanion e
  let cone := (c.operandTensors x.desc x.operand).any fun t => (c.quant t).fmt == .cone4
  allZero (sub e 3 5) && allZero (sub e 28 4) && decide (x.operand ≤ 2) && c.needsCompanion x.desc x.operand
    && (match c.companions[i - 1]? with
      | some p => i == 0 || decide (p.desc < x.desc ∨ (p.desc = x.desc ∧ p.operand < x.operand))
      | none => true)
    && (if cone then x.compDisp % 4 == 0 && x.sideDisp % 2 == 0 && decide (x.sideUnits ≤ 4194304) else x.sideDisp == 0 && x.sideUnits == 0)

/-- Every operand that needs a companion layout has one. -/
def Canopy.companionsWhole (c : Canopy) : Bool :=
  (List.range c.descs.length).all fun k => (List.range 3).all fun o => !c.needsCompanion k o || c.companions.any fun x => x.desc == k && x.operand == o

/-- The signature block verifies (Table 9-2, R396). -/
def State.imageSigned (s : State) (bs : List Byte) : Bool :=
  match s.canopyKey with
  | some pk => le bs 256 4 == 2820 && allZero (sub bs 260 28) && allZero (sub bs 3108 1244) && Config.xmssVerify pk (sub bs 224 32) (sub bs 288 2820)
  | none => false

/-- Validate an image against Table 9-11, in section order: the first rule it breaks, or the image. -/
def State.validate (s : State) (bs : List Byte) (mask : Nat) (expected : List Byte) (ue : Bool) : Chk Canopy := do
  keepHdr 1 (headerOk bs mask)
  keepHdr 2 (!ue && decide (imageDigest bs = sub bs 224 32) && (allZero expected || decide (expected = sub bs 224 32)))
  if imgSigned bs then keepHdr 3 (s.imageSigned bs) else keepHdr 4 (!s.policy.requireSignedCanopy)
  let c := parseCanopy bs
  keepHdr 6 ((bitsSet 16 c.boughUse.toNat).all fun b => mask.testBit (standOf b) && s.usable b)
  forEach (entries bs 0) fun i e => keep 0 i (c.layerOk i e)
  forEach (entries bs 1) fun i e => keep 1 i (c.leafRefOk i e)
  forEach (entries bs 2) fun i e => keep 2 i (c.routeOk i e)
  forEach (entries bs 3) fun i e => keep 3 i (c.programOk bs e)
  forEach (entries bs 4) fun i e => keep 4 i (descrOk e && c.descrImmediate s i)
  forEach (entries bs 5) fun i e => keep 5 i (quantOk i e)
  forEach (entries bs 6) fun i e => keep 6 i (c.tableOk i e)
  forEach (entries bs 7) fun i e => keep 7 i (thresholdOk e)
  forEach (entries bs 8) fun i e => keep 8 i (c.graftOk i e)
  forEach (entries bs 9) fun i e => keep 9 i (c.companionOk i e)
  keep 9 c.companions.length c.companionsWhole
  return c

end Sys2Proof.Machine
end

