-- ==== Sys2Proof/Machine/LoadOps.lean ====
section
/-! DEFINITION. LOAD_CANOPY and FOLD_GRAFT: members and rounds, quiescing and the new images of a fold (R224 to R231, R247 to R249). -/

namespace Sys2Proof.Machine

/-- Stands taken by loads and folds in progress (R224, R247). -/
def State.busyStands (s : State) : List Nat := (s.trunk.ops.flatMap fun p => (s.runStands p.1).1).eraseDups

/-- Members of a leaf reference list, with leaves already claimed for adoption: a kept slot gives none (R226). -/
def State.planMembers (s : State) (c : Canopy) (leafBase : Nat) : List RMember × List Nat :=
  c.leafRefs.foldl (fun (acc : List RMember × List Nat) r =>
    let kept := match s.serving? r.bough r.slot with
      | some k => ((s.leaf k).record.state == RecState.programmed) && decide ((s.leaf k).record.digest = r.digest) && (s.leaf k).record.width.toNat == r.width
      | none => false
    if kept then acc
    else
      let spare := (leavesOf r.bough).find? fun k =>
        let l := s.leaf k
        !acc.2.contains k && l.adopts r.digest r.width
      let m : RMember := { bough := r.bough, slot := r.slot, adopt := spare, width := r.width, addr := leafBase + r.imageOffset, digest := r.digest }
      (acc.1 ++ [m], acc.2 ++ spare.toList)) ([], [])

/-- Pairs of a list. -/
def pairsOf {α : Type} : List α → List (List α)
  | a :: b :: r => [a, b] :: pairsOf r
  | [a] => [[a]]
  | [] => []

/-- The rounds of members: on each bough in ascending slot order, two a round (R227). -/
def roundsOf (ms : List RMember) : List (List RMember) :=
  let by_ := (List.range 16).map fun b => pairsOf ((List.range 16).flatMap fun sl => ms.filter fun m => m.bough == b && m.slot == sl)
  (List.range (by_.foldl (fun n l => max n l.length) 0)).map fun i => by_.flatMap fun l => nth [] l i

/-- Set operation `h`'s rounds going: the first round, or QUIESCE where no slot changes (R225). -/
def State.beginRounds (s : State) (h : Nat) (ms : List RMember) : State :=
  let rs := roundsOf ms
  let s1 := s.onRounds h fun r => { r with todo := rs, rounds := rs.length }
  if rs.isEmpty then s1.beginQuiesce h else s1.startRound h

/-- A load ends before it changed anything, with a status, section and entry (R223). -/
def State.rejectLoad (s : State) (h status sec ent : Nat) : State :=
  let s1 := s.onRunStands h fun d =>
    { d with loadStatus := byteOf status, loadSection := BitVec.ofNat 4 sec, loadEntry := BitVec.ofNat 16 ent, holdOps := removeN d.holdOps h }.settle
  s1.endOp h status

/-- Bytes of the image at an address: no more than an image may hold. -/
def State.imageBytes (s : State) (addr : Nat) : List Byte := s.hbmBytes addr (min 0x04000000 (max 256 (s.hbmNat (addr + 8) 4)))

/-- The parameters of R224 hold: the image lies whole in one target stand's range. -/
def State.loadParamsOk (s : State) (l : LoadOp) : Bool :=
  let len := s.hbmNat (l.addr + 8) 4
  l.addr % 4096 == 0 && l.leafBase % 256 == 0 && decide (l.addr + max 256 len ≤ hbmSize ∧ l.leafBase < hbmSize)
    && hbmStand l.addr == hbmStand (l.addr + max 256 len - 1) && bit l.mask (hbmStand l.addr)

/-- VALIDATE ends (R223, R225, R226). -/
def State.validated (s : State) (h : Nat) (l : LoadOp) : State :=
  if (bitsSet 4 l.mask.toNat).any s.inReset then s.rejectLoad h 0x0B 0 0
  else if !s.loadParamsOk l then s.rejectLoad h 1 15 0
  else
    let bs := s.imageBytes l.addr
    let ue := s.firstUe l.addr bs.length
    let s1 := match ue with | some a => s.reportUe a | none => s
    match s1.validate bs l.mask.toNat l.expected ue.isSome with
    | .error (st, sec, e) => s1.rejectLoad h st sec e
    | .ok c =>
      let (ms, _) := s1.planMembers c l.leafBase
      if l.noProgram ∧ ms.any (fun m => m.adopt.isNone) then s1.rejectLoad h 7 0 0
      else (s1.onOp h fun o => { o with body := .load { l with step := 2, canopy := some c } }).beginRounds h ms

/-- No task of the target stands is dispatched and not completed. -/
def State.quietStands (s : State) (h : Nat) : Bool :=
  (s.runStands h).1.all fun i => (s.boughsOf i).all fun b =>
    (s.bough b).task.isNone && (s.bough b).waiting.isEmpty && (s.bough b).ending.isEmpty && (s.bough b).yielded.isEmpty

/-- QUIESCE ends (R225, R227): a staged round is released, or nothing is left but the switch. -/
def State.quiesceEnd (s : State) (h : Nat) : State :=
  match s.rounds h with
  | some r =>
    if !r.quiescing ∨ r.quiesced ∨ !s.quietStands h then s
    else
      let s1 := s.onRounds h fun r => { r with quiesced := true }
      match r.group with
      | some _ => s1.releaseRound h
      | none => if r.todo.isEmpty then (s1.onRounds h fun r => { r with switching := true }).switchDone h else s1.startRound h
  | none => s

-- Folds.

/-- The image in force whose identity a graft state block names, on the lowest-numbered stand (R238). -/
def State.blockCanopy (s : State) (base : Nat) : Option Canopy :=
  (List.range 4).findSome? fun i => match (s.stand i).canopy with
    | some c => if c.imageId.toNat = s.hbmNat (base + 8) 8 then some c else none
    | none => none

/-- Graft state block of a context (Table 11-5). -/
def State.graftBlock (s : State) (ctx : Nat) : Nat := s.hbmNat (s.ctxAddr ctx + 16) 8

/-- The image and the foldable, enabled graft of a fold's parameters; none = BAD_GRAFT (R247). -/
def State.foldTarget (s : State) (ctx graft : Nat) (scratch : Addr) : Option (Canopy × Graft) :=
  let base := s.graftBlock ctx
  match s.blockCanopy base, scratch with
  | some c, .hbm a =>
    match c.grafts[graft]? with
    | some g =>
      if decide (ctx < 2 ^ 18) && g.foldable && s.graftBlockOk c base ctx && (s.hbmNat (base + 64 + 64 * graft) 1).testBit 0
          && a % 256 == 0 && decide (a + 131328 * g.foldMap.length ≤ hbmSize) then some (c, g)
      else none
    | none => none
  | _, _ => none

/-- Stands of a fold map. -/
def Graft.stands (g : Graft) : List Nat := (g.foldMap.map fun f => standOf f.bough).eraseDups

/-- All elements of one array of a graft's weights in FP32; a malformed block reads as none. -/
def State.graftArray (s : State) (g : Graft) (bSide : Bool) (base : Nat) : Option (List Num) :=
  let e := g.elems bSide
  let st := f32val (if bSide then g.stB else g.stA)
  ((List.range (e / 32)).mapM fun k => s.weightVals g.cone base e k st).map List.flatten

/-- ΔW of one element (R248): an FP32 FMA chain in ascending r, then the product with α. -/
def foldDelta (g : Graft) (a b : List Num) (k o : Nat) : Rat :=
  (mulN (f32num g.alpha) ((List.range g.rank).foldl (fun acc r => fmaN (nth .nan b (o * g.rPad + r)) (nth .nan a (r * g.nPad + k)) acc) (.zero false))).val

/-- Weight `j` of a row of a payload. -/
def payloadWeight (w : BitVec 2) (payload : List Byte) (row j : Nat) : Int :=
  let b := weightBits w
  sext b ((nth 0 payload (128 * row + j * b / 8)).toNat / 2 ^ (j * b % 8))

/-- The new payload of a fold-map entry and its clamps (R248 steps 2 and 3). -/
def foldPayload (g : Graft) (f : FoldEnt) (w : BitVec 2) (sW : Rat) (a b : List Num) (payload : List Byte) : List Byte × Nat :=
  let lc := logicals w
  let half : Int := (2 ^ (weightBits w - 1) : Nat)
  let rows := (List.range 1024).map fun row =>
    let cells := (List.range lc).map fun j =>
      let k := 1024 * f.rowBlock + row
      let o := lc * f.colBlock + j
      let v := payloadWeight w payload row j
      if k < g.n ∧ o < g.m then
        let x := rhe ((v : Rat) + foldDelta g a b k o / sW)
        (clampI (-half) (half - 1) x, b2n (decide (clampI (-half) (half - 1) x ≠ x)))
      else (v, 0)
    (rowBytes w (cells.map fun p => (p.1 + half).toNat), nsum (cells.map (·.2)))
  (rows.flatMap (·.1), nsum (rows.map (·.2)))

/-- The next fold-map entry is read back and its new image formed (R248); after the last the slots are programmed as members. -/
def State.foldEntry (s : State) (h : Nat) (f : FoldOp) (levels : SMap Nat) : State :=
  let base := s.graftBlock f.context
  let stop := fun (s : State) (code : Nat) => (s.onRunStands h fun d => Stand.settle { d with holdOps := removeN d.holdOps h }).endOp h code
  match s.blockCanopy base with
  | none => stop s 1
  | some c =>
    let g := nth ({} : Graft) c.grafts f.graft
    match g.foldMap[f.entry]? with
    | none => s
    | some e =>
      match s.serving? e.bough e.slot with
      | none => stop s 3
      | some k =>
        let (payload, good) := (s.leaf k).readBack levels
        let w := (s.leaf k).record.width
        if !good ∨ canonicalDigest w payload ≠ (s.leaf k).record.digest then stop s 3
        else
          let bank := base + g.region + b2n f.bank * g.bankBytes
          let offs := g.bankOffs
          match s.graftArray g false (bank + nth 0 offs 0), s.graftArray g true (bank + nth 0 offs 1) with
          | some a, some b =>
            let sW := match c.layers.find? fun l => l.outTensor == g.outTensor && l.bough == e.bough with | some l => f32val l.sW | none => 1
            let (new, clamps) := foldPayload g e w sW a b payload
            let digest := canonicalDigest w new
            let s1 := s.hbmWrite (f.scratch + 131328 * f.entry) (imageHeader w ++ digest ++ new)
            let f1 := { f with entry := f.entry + 1, digests := f.digests ++ [digest], clamps := f.clamps + clamps }
            let s2 := s1.onOp h fun o => { o with body := .fold f1 }
            if f1.entry < g.foldMap.length then s2
            else
              let ms := (g.foldMap.zip f1.digests).zipIdx.map fun p =>
                ({ bough := p.1.1.bough, slot := p.1.1.slot, addr := f.scratch + 131328 * p.2, digest := p.1.2 } : RMember)
              s2.beginRounds h ms
          | _, _ => stop s 1

end Sys2Proof.Machine
end

