-- ==== Sys2Proof/Machine/IntegOps.lean ====
section
/-! DEFINITION. Reads of HBM with their errors, the patrol scrub and diagnoses (R316 to R320, R325). -/

namespace Sys2Proof.Machine

-- Reads (R317, R319, R320).

/-- A read cut at sapwood lines: place in sapwood, source address and length of each piece. -/
def PendRead.pieces (r : PendRead) (a : Nat) : List (Nat × Nat × Nat) :=
  (linesTouched [(r.dst, r.len)]).map fun l =>
    let lo := max r.dst (64 * l)
    (lo, a + (lo - r.dst), min (r.dst + r.len) (64 * l + 64) - lo)

/-- First 64-byte HBM line of a range with a word that reads as an uncorrectable error. -/
def State.badLine (s : State) (a n : Nat) : Option Nat := (s.firstUe a n).map fun u => u / 64 * 64

/-- Bytes of host or HBM memory land in sapwood for a read. -/
def State.landRead (s : State) (b : Nat) (r : PendRead) (data : List Byte) (mark : Nat → Nat → Option Nat) : State :=
  (s.onBough b fun x =>
    let y := (r.pieces 0).foldl (fun (x : Bough) p => x.sapPut p.1 ((data.drop p.2.1).take p.2.2) (mark p.2.1 p.2.2)) x
    { y with reads := y.reads.erase r }).onBough b fun x => x.opDone r.epoch

/-- A read of bough `b` meets an uncorrectable error (Table 14-2): no data and a stand reset in native mode, marked data in poison mode, as the mode was when it was issued (R319). -/
def State.ueRead (s : State) (b a : Nat) (r : PendRead) (whole : Bool) : State :=
  if r.poison then
    s.landRead b r (s.hbmBytes a r.len) fun o n => if whole then some ((a + o) / 64 * 64) else s.badLine (a + o) n
  else s.ueReset (standOf b)

/-- An uncorrectable error that a queue's ring read meets (Table 14-2): a scheduler's stand is reset in native mode; in poison mode, and in a command queue, the queue halts. -/
def State.ueQueue (s : State) (q : Nat) : State :=
  let i := (s.queue q).desc.owner
  if i < 4 ∧ !s.poisonMode i then s.ueReset i else s.haltQueue q 0x0B

/-- Stand whose parity registers count a read, its unit and its island kind (Table 14-7). -/
def State.readerAt (s : State) (who : Reader) (a : Nat) : Nat × Word × Nat :=
  match who with
  | .queue q => let i := (s.queue q).desc.owner; if i < 4 then (i, uStand i, 2) else (hbmStand a, uDevice, 0)
  | .other => (hbmStand a, uDevice, 0)

/-- A reader that is no bough meets an error on HBM read data (R317, R319, Table 14-1 row 3, Table 14-2). The word that fails another engine's read stays listed as uncorrectable, and the command that reads it answers (log entry 166). -/
def State.engineRead (s : State) (who : Reader) (a : Nat) (o : EngineObs) : State :=
  let (i, unit, src) := s.readerAt who a
  let fail := fun (s : State) => match who with
    | .queue q => if (s.queue q).enabled && !(s.queue q).halted && (s.queue q).sqTail != (s.queue q).sqHead then s.ueQueue q else s
    | .other => s.poisonWords [a / 8]
  match o with
  | .corrected => s.onStand (hbmStand a) fun d => { d with ceCnt := smUpd 0 d.ceCnt (hbmChannel a) satInc }
  | .uncorrectable => fail ((s.poisonWords [a / 8]).reportUe a)
  | .parity again =>
    let s1 := (s.onStand i fun d =>
      { d with xylRetry := satInc d.xylRetry, xylStatus := d.xylStatus ||| (if again then 3#3 else 1#3) }).record .parity unit { source := src, detail := 3, detail2 := a }
    if again then fail (s1.reportUe a) else s1

/-- The oldest HBM read of bough `b` completes, or that of another reader (R317, Table 14-1 row 3). -/
def State.readDone (s : State) (b : Nat) (o : ReadObs) : State :=
  match o with
  | .engine who a e => if s.trunk.fwRunning ∧ a < hbmSize ∧ !s.inReset (hbmStand a) then s.engineRead who a e else s
  | o =>
  match (s.bough b).outstanding.find? fun r => (match r.src with | .hbm _ => true | _ => false) with
  | some r =>
    match r.src with
    | .hbm a =>
      let i := hbmStand a
      let clean := fun (s : State) =>
        match s.firstUe a r.len with
        | some u => (s.reportUe u).ueRead b a r false
        | none => s.landRead b r (s.hbmBytes a r.len) fun _ _ => none
      -- The router group of a stand under reset answers with an error (R347).
      if s.inReset i then
        s.onBough b fun x => { (x.failEpoch r.epoch (.peerReset (peerDetail true 0 i s.myDev))).opDone r.epoch with reads := x.reads.erase r }
      else match o with
        | .clean => clean s
        | .corrected => clean (s.onStand i fun d => { d with ceCnt := smUpd 0 d.ceCnt (hbmChannel a) satInc })
        | .uncorrectable n => clean (s.poisonWords [(a + min (8 * n) (r.len - 1)) / 8])
        | .parity again =>
          let s1 := (s.onStand (standOf b) fun d =>
            { d with xylRetry := satInc d.xylRetry, xylStatus := d.xylStatus ||| (if again then 3#3 else 1#3) }).record .parity (uBough b)
              { source := 3, detail := 3, detail2 := a }
          if again then (s1.reportUe a).ueRead b a r true else clean s1
        | .engine _ _ _ => s
    | _ => s
  | none => s

-- Patrol scrub (R317).

/-- A part of a scrub pass of channel `ch` (device-wide). -/
def State.scrubPart (s : State) (ch : Nat) (o : ScrubObs) : State :=
  let i := ch / 8
  let c := ch % 8
  let mine := fun (a : Nat) => hbmStand a == i && hbmChannel a == c
  let ces := (o.ce.filter mine).length
  let s1 := s.onStand i fun d =>
    { d with scrubActive := d.scrubActive ||| BitVec.ofNat 8 (2 ^ c), ceCnt := smUpd 0 d.ceCnt c fun w => satAdd w ces,
             scrubCe := smUpd 0 d.scrubCe c (· + ces) }
  let s2 := (o.ue.filter mine).foldl (fun (s : State) a => (s.poisonWords [a / 8]).reportUe a) s1
  if !o.passDone then s2
  else
    let n := smGet 0 (s2.stand i).scrubCe c
    let warn := fld (s2.stand i).hbmCtrl 23 16
    let s3 := s2.onStand i fun d => { d with scrubActive := d.scrubActive &&& ~~~ BitVec.ofNat 8 (2 ^ c), scrubCe := smErase d.scrubCe c }
    if warn ≠ 0 ∧ warn < n then s3.record .hbmCe (uStand i) { source := 6, detail := ch, detail2 := n } else s3

-- Diagnosis (R325).

/-- Columns of a leaf's positions that the 8-code rule finds suspect under the trims in force. -/
def State.suspectColumns (s : State) (k : Nat) (o : MeasObs) : List Nat :=
  let l := s.leaf k
  let u := (l.trimSlots 0 s.bud.loadPct.toNat).getD (0, 0, 0)
  let slices := (measCols l.width l.remap).filter fun x =>
    (List.range 8).any fun p =>
      let ideal : Rat := if p < 4 then 256 * nr (l.lsumAll x.2.1) / 3072 else 256 * nr (smGet 0 l.lsum (4 * x.2.1 + (p - 4))) / 768
      decide (8 < rabs (measNet l o p x.2.1 x.2.2 * l.gain u x.2.1 - ideal))
  let offs := (List.range (logicals l.width + checkGroups l.width)).filterMap fun j =>
    let c := firstCol l.width j + offsetAt l.width
    let q := servedBy l.remap c
    if (List.range 8).all (fun p => decide (rabs (measMean l o p q) ≤ 8)) then none else some c
  slices.map (·.1) ++ offs

/-- Code of a trigger and its check group in a DIAGNOSIS record. -/
def DiagTrig.code : DiagTrig → Nat × Nat
  | .check g _ => (1, g)
  | .bias g => (2, g)
  | .refFault => (3, 0)

/-- Cause of the fences a diagnosis makes (Table 14-8). -/
def DiagTrig.cause : DiagTrig → Nat
  | .check _ _ => 1
  | .bias _ => 2
  | .refFault => 10

/-- Mask of the column groups of a check group. -/
def groupMask (w : BitVec 2) (g : Nat) : Nat := nsum ((List.range (perWeight w)).map fun i => 2 ^ (g * perWeight w + i))

/-- The outcomes of the column measurement and the 8-code rule for leaf `k` (R325, R330 step 2): outcome, groups newly fenced and suspect columns. -/
def State.judgeColumns (s : State) (k : Nat) (o : MeasObs) (cause : Nat) (again : Option Nat) : State × Nat × Nat × Nat :=
  let l := s.leaf k
  let sus := s.suspectColumns k o
  let old := l.groupFence.toNat
  if !sus.isEmpty then
    (s.fenceColumns k sus cause, 1, columnMask sus &&& (0xFFFFFFFF ^^^ old), sus.length)
  else match again with
    | some g => (s.fenceGroups k (groupMask l.width g) cause, 2, groupMask l.width g &&& (0xFFFFFFFF ^^^ old), 0)
    | none => (s, 3, 0, 0)

/-- A diagnosis of leaf `k` ends (R325). -/
def State.endDiag (s : State) (k : Nat) (o : MeasObs) : State :=
  match (s.leaf k).diag with
  | [] => s
  | t :: rest =>
    let again := match t with | .check g true => some g | _ => none
    let s0 := (s.measPhases k o).onLeaf k fun l => { l with diag := rest }
    let (s1, out, mask, n) := s0.judgeColumns k o t.cause again
    s1.record .diagnosis (uLeaf k)
      { source := 4, severity := some (if mask = 0 then 0 else 2), detail := out + at_ t.code.1 4 + at_ t.code.2 8, detail2 := mask + at_ (min n 65535) 32 }

end Sys2Proof.Machine
end

