-- ==== Sys2Proof/Machine/ProgRun.lean ====
section
/-! DEFINITION. The steps of the program sequence (Table 4-3), and the marker recovery (R85 to R97, R106 to R109). -/

namespace Sys2Proof.Machine

-- Step 1 (R87, R97, R107).

/-- Bytes of a leaf image. -/
def leafImageBytes : Nat := 131136

/-- Leaves of bough `b` that programming or its recovery holds out of SPARE and ACTIVE: at most two (R107). -/
def State.outOfService (s : State) (b : Nat) : Nat := ((leavesOf b).filter fun k => (s.leaf k).role == Role.programming || (s.leaf k).role == Role.invalid).length

/-- The SPARE leaf to program: fewest program cycles, then the lower index (R97). -/
def State.spareFor (s : State) (b : Nat) : Option Nat :=
  if 2 ≤ s.outOfService b then none
  else ((leavesOf b).filter fun k => (s.leaf k).role == Role.spare).foldl (fun (m : Option Nat) k => match m with
    | none => some k
    | some q => if (s.leaf k).record.cycles < (s.leaf q).record.cycles then some k else some q) none

/-- Judge the image at an address (R87): 0 accepts, else the code of Table 4-7. -/
def State.leafImageCode (s : State) (a : Nat) (expected : List Byte) : Nat :=
  if a % 256 ≠ 0 ∨ hbmSize < a + leafImageBytes ∨ s.hbmUe a leafImageBytes then 2
  else
    let h := s.hbmBytes a 64
    let w := BitVec.ofNat 2 (le h 6 1)
    if le h 6 1 < 3 ∧ h.take 32 = imageHeader w ∧ sub h 32 32 = canonicalDigest w (s.hbmBytes (a + 64) 131072) then
      (if sub h 32 32 = expected then 0 else 3)
    else 2

/-- A member is suspended, by its own handle or its load's or fold's (R109, R230). -/
def State.memberHeld (s : State) (p : Prog) : Bool :=
  p.suspended || (match p.parent with | some h => (match s.op h with | some o => o.suspended | none => false) | none => false)

/-- The operation that bough `b`'s charge pump serves: the first in order that is not suspended and does not wait for a load (R107, R109, R230). -/
def State.pumpHead (s : State) (b : Nat) : Option Nat :=
  (s.bough b).progQueue.find? fun q => match s.prog q with
    | some p => !s.memberHeld p && (match p.waitsFor with | some h => (s.opOfHandle h).isNone | none => true)
    | none => false

/-- A read of a trunk's image meets uncorrectable words: they are reported (Table 14-2). -/
def State.noteUe (s : State) (a n : Nat) : State := match s.firstUe a n with | some u => s.reportUe u | none => s

/-- Step 1 of member `pid` ends when a spare is free: the image is judged and the leaf taken (R91, R107). -/
def State.acceptStep (s : State) (pid : Nat) : State :=
  match s.prog pid with
  | none => s
  | some p =>
    match s.spareFor p.bough with
    | none => s
    | some k =>
      let code := s.leafImageCode p.imageAddr p.expected
      -- The spare is selected: its LEF_PROG_RESULT takes the code (R108).
      if code ≠ 0 then (((if p.imageAddr < hbmSize then s.noteUe p.imageAddr leafImageBytes else s).onLeaf k fun l => { l with progStatus := byteOf code }).failMember pid code false)
      else
        let w := BitVec.ofNat 2 (s.hbmNat (p.imageAddr + 6) 1)
        let g := (s.group p.group).getD {}
        (s.onProg pid fun p => { p with leaf := some k, step := 2, width := w }).onLeaf k fun l =>
          { (l.setRole .programming).beginAttempt with cal := [{}, {}, {}], remapTaken := [], progStep := 2, progRow := 0, progPass := 0, releaseKnot := g.knotMode, progGroup := BitVec.ofNat 16 g.gid, progKnot := BitVec.ofNat 16 (if g.knotMode then g.knot else 0), targetDigest := p.expected, draining := false }

-- Steps 4 and 5 (R92, R93, R96).

/-- Set the step that member `pid` and its leaf show. -/
def State.setStep (s : State) (pid k n : Nat) : State := (s.onProg pid fun p => { p with step := n }).onLeaf k fun l => { l with progStep := BitVec.ofNat 4 n }

/-- No free spare column: the leaf is fenced and the operation ends SPARES_EXHAUSTED (R48, R96). -/
def State.sparesOut (s : State) (pid k : Nat) : State :=
  let s1 := (s.countCycle k).onLeaf k fun l => { l with errStatus := l.errStatus ||| 8#5 }
  (s1.failMember pid 5 true).fenceLeaf k 5

/-- Give a column of leaf `k` a spare; the spare is programmed at the next chance. None when none is free. -/
def State.takeSpare (s : State) (pid k c : Nat) : Option State :=
  (allocSpare (s.leaf k).record.remap c).map fun r =>
    (s.onLeaf k fun l => { l with record := { l.record with remap := r.1 } }).onProg pid fun p => { p with failed := insertN p.failed c, newSpares := insertN p.newSpares r.2 }

/-- Give spares to columns in order (R48); the first that finds none ends the operation. -/
def State.takeSpares (s : State) (pid k : Nat) : List Nat → State × Bool
  | [] => (s, true)
  | c :: r => match s.takeSpare pid k c with
    | some s1 => s1.takeSpares pid k r
    | none => (s.sparesOut pid k, false)

/-- Column whose contents physical column `c` holds: itself, or the column it serves as a spare; none where it holds none. -/
def heldColumn (m : SMap (BitVec 16)) (c : Nat) : Option Nat :=
  if 1024 ≤ c ∧ c < 1088 then
    (match smFind m (c - 1024) with | some v => if bit v 15 ∧ fld v 10 0 < 1152 then some (fld v 10 0) else none | none => none)
  else if (remapOf m c).isSome then none else some c

/-- A reference column failed: its group is fenced and stays so (R96). -/
def State.refColumnFails (s : State) (pid k q : Nat) : State :=
  let s1 := s.onProg pid fun p => { p with newFence := p.newFence ||| wordOf (2 ^ q) }
  s1.fenceGroups k (2 ^ q) 5

/-- Columns newly failed in a row of step 4. -/
def Prog.newFails (p : Prog) (m : SMap (BitVec 16)) (failed : List Nat) : List Nat :=
  (failed.filterMap fun c => if 1152 ≤ c ∨ (1088 ≤ c ∧ c < 1120) then none else heldColumn m c).eraseDups.filter fun c => !p.failed.contains c

/-- First row from `lo` on where some of the spares has a target above level 0 (R96). -/
def nextRepairRow (w : BitVec 2) (m : SMap (BitVec 16)) (payload : List Byte) (spares : List Nat) (lo : Nat) : Option Nat :=
  (List.range 1024).find? fun r => decide (lo ≤ r) && (rowTargets w m ((payload.drop (128 * r)).take 128)).any fun x => spares.any fun i => x.1 == 1024 + i

/-- Repair pass `n` of step 5 begins at the first row its spares need (R96). -/
def State.beginPass (s : State) (pid k n : Nat) : State :=
  let row := match s.prog pid with
    | some p => (nextRepairRow p.width (s.leaf k).record.remap p.read p.newSpares 0).getD 1024
    | none => 1024
  ((s.setStep pid k 5).onProg pid fun p => { p with row := row, repairBad := [] }).onLeaf k fun l => { l with progPass := BitVec.ofNat 2 n, progRow := BitVec.ofNat 10 (min 1023 row) }

/-- Row `p.row` of step 4 is programmed and verified (R92). -/
def State.rowStep (s : State) (pid k : Nat) (p : Prog) (o : ProgObs) : State :=
  let a := p.imageAddr + 64 + 128 * p.row
  if s.hbmUe a 128 then (s.noteUe a 128).failMember pid 2 false
  else
    let row := s.hbmBytes a 128
    let m := (s.leaf k).record.remap
    -- Spares that step 5 will write hold nothing yet; columns that failed keep what they hold, reference columns among them.
    let skip := p.failed.map (servedBy m) ++ p.failed ++ o.failed ++ (bitsSet 32 p.newFence.toNat).map (1088 + ·)
    let cells := (rowTargets p.width m row).filter fun x => !skip.contains x.1
    let iters := clampN 1 20 o.iters
    let s1 := (s.onLeaf k fun l => { l with cells := setRow l.cells p.row cells, progRow := BitVec.ofNat 10 (min 1023 (p.row + 1)) }).onProg pid fun p =>
      { p with row := p.row + 1, read := p.read ++ row, iterSum := p.iterSum + iters, iterMax := max p.iterMax iters }
    let (s2, go) := s1.takeSpares pid k (p.newFails m o.failed)
    if !go then s2
    else
      let refs := o.failed.filter fun c => decide (1088 ≤ c ∧ c < 1120)
      let s3 := refs.foldl (fun (s : State) c => if (s.prog pid).isSome then s.refColumnFails pid k (c - 1088) else s) s2
      match s3.prog pid with
      | none => s3
      | some p1 =>
        if p1.row < 1024 then s3
        else if canonicalDigest p1.width p1.read ≠ p1.expected then s3.failMember pid 4 false
        else
          let s4 := s3.onLeaf k fun l => { l with iterMax := BitVec.ofNat 5 p1.iterMax, iterMean := BitVec.ofNat 16 (rhe (nr (256 * p1.iterSum) / 1024)).toNat }
          if p1.newSpares.isEmpty then (s4.setStep pid k 6).onBough p1.bough fun b => { b with progQueue := removeN b.progQueue pid }
          else s4.beginPass pid k 1

/-- Spares that still fail are retired (R48). -/
def retireSpares (m : SMap (BitVec 16)) (spares : List Nat) : SMap (BitVec 16) := spares.foldl (fun m i => smSet m i 0x87FF#16) m

/-- The repair pass of step 5 ends (R96): the leaf goes on, or the failed columns take their next spares, or after the third pass the leaf is erased and fenced. -/
def State.endPass (s : State) (pid k : Nat) (p : Prog) (bad : List Nat) : State :=
  let s1 := s.onProg pid fun p => { p with pass := p.pass + 1, newSpares := [], repairBad := [] }
  if bad.isEmpty then ((s1.setStep pid k 6).onLeaf k fun l => { l with progPass := 0 }).onBough p.bough fun b => { b with progQueue := removeN b.progQueue pid }
  else if 3 ≤ p.pass + 1 then
    -- REPAIR_FAILED: the failed spares are retired, the leaf is erased and recorded FENCED.
    let s2 := s1.onLeaf k fun l => { l with record := { l.record with remap := retireSpares l.record.remap (bad.filterMap (remapOf l.record.remap)) } }
    ((s2.eraseLeaf k .none).failMember pid 6 true).fenceLeaf k 5
  else
    let (s2, go) := s1.takeSpares pid k bad
    if go then s2.beginPass pid k (p.pass + 2) else s2

/-- A row of a repair pass of step 5 is programmed and verified (R96): the newly allocated spares, over the rows where their column's target is not level 0. -/
def State.repairStep (s : State) (pid k : Nat) (p : Prog) (o : ProgObs) : State :=
  let m := (s.leaf k).record.remap
  let row := (p.read.drop (128 * p.row)).take 128
  let failed := (p.newSpares.filter fun i => o.failed.contains (1024 + i)).filterMap fun i => heldColumn m (1024 + i)
  let bad := failed.foldl insertN p.repairBad
  let live := p.newSpares.filter fun i => !(match heldColumn m (1024 + i) with | some c => bad.contains c | none => false)
  let cells := if p.row < 1024 then (rowTargets p.width m row).filter fun x => live.any fun i => x.1 == 1024 + i else []
  let s1 := s.onLeaf k fun l => { l with cells := setRow l.cells p.row cells }
  match nextRepairRow p.width m p.read live (p.row + 1) with
  | some r => (s1.onProg pid fun p => { p with row := r, repairBad := bad }).onLeaf k fun l => { l with progRow := BitVec.ofNat 10 r }
  | none => s1.endPass pid k p bad

-- Steps 6 to 8.

/-- Step 6: derived configuration, measurement and commit (R75, R68); an adopted leaf is then staged (R226). -/
def State.calibrateStep (s : State) (pid k : Nat) (p : Prog) (o : ProgObs) : State :=
  let s0 := s.measPhases k o.meas
  let s1 := s0.onLeaf k fun l =>
    { l.derive p.width l.record.remap with width := p.width, remap := l.record.remap }
  let l := s1.leaf k
  let load := s.bud.loadPct.toNat
  let (ms, bad) := l.measure p.width l.record.remap 6 load o.meas
  let mask := columnMask bad
  let s2 := s1.commitMeas k ms (slotOfLoad load)
  let s3 := (s2.onProg pid fun p => { p with newFence := p.newFence ||| wordOf mask }).fenceGroups k mask 11
  match s3.prog pid with
  | none => s3
  | some p1 =>
    if p1.adopt then s3.stageMember pid
    else
      let s4 := (s3.setStep pid k 7).countCycle k
      let s5 := s4.onLeaf k fun l =>
        { l with groupFence := p1.newFence, remapTaken := [],
                 record := { l.record with state := .programmed, width := p1.width, digest := p1.expected, pendingRemap := [], fencedGroups := p1.newFence } }
      if s5.storeRefuses then
        (match p1.parent with | some h => (s5.failRun h 0x0B 6).1 | none => s5.failMember pid 9 false)
      else s5.writeLeafRec k (.prog pid)

/-- The record of step 7 is durable: step 8 follows. -/
def State.recordTold (s : State) (pid : Nat) : State :=
  match s.prog pid with
  | some { step := 7, leaf := some k, .. } => s.setStep pid k 8
  | _ => s

/-- The store refused the record of step 7 (R383). -/
def State.recordRefused (s : State) (pid : Nat) : State :=
  match s.prog pid with
  | some p => if p.step ≠ 7 then s else match p.parent with | some h => (s.failRun h 0x0B 6).1 | none => s.failMember pid 9 false
  | none => s

/-- The present step of member `pid` ends (Table 4-3); a marker that a reset tears in step 2 or 8 reads as set (log entry 94). -/
def State.progStep (s : State) (pid : Nat) (o : ProgObs) : State :=
  match s.prog pid with
  | none => s
  | some p =>
    if s.memberHeld p ∨ s.inReset (standOf p.bough) ∨ ((p.step = 1 ∨ p.step = 4) ∧ s.shut (hbmStand p.imageAddr)) then s
    else if p.step ≤ 5 ∧ s.pumpHead p.bough ≠ some pid then s
    else match p.step, p.leaf with
      | 1, _ => s.acceptStep pid
      | 2, some k => (s.onLeaf k fun l => { l with marker := true }).setStep pid k 3
      | 3, some k =>
        let s1 := (s.onLeaf k fun l => { l with cells := [] }).onProg pid fun p => { p with row := 0, pass := 0, read := [], failed := [], newSpares := [], iterSum := 0, iterMax := 0, newFence := 0 }
        -- Pending columns take their spares before step 4, which writes them (R96); one that has its own from this programming keeps it.
        let due := (s.leaf k).record.pendingRemap.filter fun c => !(s.leaf k).remapTaken.contains c
        let (s2, go) := s1.takeSpares pid k due
        if go then ((s2.onProg pid fun p => { p with failed := [], newSpares := [] }).setStep pid k 4).onLeaf k fun l => { l with progRow := 0, remapTaken := due.foldl insertN l.remapTaken } else s2
      | 4, some k => s.rowStep pid k p o
      | 5, some k => s.repairStep pid k p o
      | 6, some k => s.calibrateStep pid k p o
      | 8, some k => (s.onLeaf k fun l => { l with marker := false }).stageMember pid
      | _, _ => s

-- Recovery (R95).

/-- A leaf whose marker is set after a reset or power-up: marker_found, role INVALID, and its recovery erase begins (R95); a fenced one stays fenced (R329). -/
def State.markInvalid (s : State) (k : Nat) : State :=
  if !(s.leaf k).marker then s
  else s.onLeaf k fun l =>
    { l.setRole (if l.record.state = .fenced then .fenced else .invalid) with errStatus := l.errStatus ||| 16#5, slot := 0x1F#5, draining := false, progStep := 12 }

/-- The recovery erase of leaf `k` completes: recorded ERASED with the interrupted attempt's cycle, and SPARE again, with a warning record (R95, R98). -/
def State.recoverLeaf (s : State) (k : Nat) : State :=
  if (s.leaf k).progStep ≠ 12 then s
  else
    let fenced := (s.leaf k).record.state == RecState.fenced
    let s1 := s.eraseLeaf k .none
    let s2 := s1.record .markerFound (uLeaf k) { source := 4, detail2 := (s1.leaf k).record.cycles }
    if fenced then (s2.onLeaf k fun l => { l.setRole .fenced with record := { l.record with state := .fenced } }).writeLeafRec k .none else s2

/-- The recovery erases of some leaves complete. -/
def State.recoverLeaves (s : State) (ks : List Nat) : State := ks.foldl State.recoverLeaf s

end Sys2Proof.Machine
end

