-- ==== Sys2Proof/Machine/StartOps.lean ====
section
/-! DEFINITION. Start-up: boot ROM, firmware start, fences, leaf map, markers, read-back, self-check and start-up calibration; cold reset and loss of 12 V (chapters 15, 18 and 19, R2, R3, R72, R88, R90, R95, R329). -/

namespace Sys2Proof.Machine

-- The boot ROM (R396, R397, R403, R2, R3).

/-- Slots the boot ROM tries in order, and whether a trial slot is given up (R396). -/
def State.bootChoice (s : State) : Nat × Nat × Bool :=
  let p := s.slotState
  if p.trial ≠ 0 ∧ p.attempts < 3 then (p.trial, p.active, false) else (p.active, 3 - p.active, p.trial != 0)

/-- The boot ROM chooses a slot and issues the slot-state write that R396 asks for. -/
def State.chooseSlot (s : State) : State :=
  let p := s.slotState
  let (a, b, revert) := s.bootChoice
  let s1 := s.onTrunk fun t => { t with runningSlot := a, otherSlot := b, fwFails := [], bootResult := if revert then 2 else 0 }
  if revert then (s1.storeRec slotKey (.slotState { p with trial := 0 }) .none).record .trialReverted uDevice { detail := p.trial, detail2 := p.attempts }
  else if p.trial ≠ 0 then s1.storeRec slotKey (.slotState { p with attempts := p.attempts + 1 }) .none
  else s1

/-- Helper data of the PUF (Table 17-4). -/
def State.helperData (s : State) : List Byte :=
  match s.factoryAt 0x01000001 with
  | some (.helper b) => b
  | _ => []

/-- The PUF response is read and the identity derived, or marked unavailable (R403). -/
def State.deriveIdentity (s : State) (puf : List Byte) : State :=
  let s1 := s.onTrunk fun t => { t with puf := puf }
  match Config.pufSecret puf s.helperData with
  | some secret => s1.onTrunk fun t => { t with identityOk := true, identityPk := Config.xmssPublicKey secret }
  | none => (s1.onTrunk fun t => { t with identityOk := false, identityPk := [] }).record .identityFail uDevice {}

/-- TRK_PART_ID and TRK_CORE_MAP from the factory record; an invalid one gives part code and map 0 and a record (R2, R3). Stepping 0 with an invalid record, and detail 0 of the record, are the model's (log entry 142). -/
def State.copyFactory (s : State) : State :=
  match s.factoryRec with
  | some f => s.onTrunk fun t => { t with partId := wordOf (f.partCode.toNat + 2 ^ 16 * f.stepping.toNat), coreMap := f.map }
  | none => (s.onTrunk fun t => { t with partId := 0, coreMap := 0 }).record .factoryRecord uDevice {}

/-- The boot ROM runs (Table 18-1, t = 0). -/
def State.bootRom (s : State) : State :=
  (((s.onTrunk fun t => { t with boot := .verifying }).chooseSlot).deriveIdentity s.trunk.puf).copyFactory

/-- The boot ROM is released with the clock choice and the PUF response; its start waits for the store to finish a step (R276, R386). -/
def State.releaseBoot (s : State) (refclk : Bool) (puf : List Byte) : State :=
  let s1 := (s.onTrunk fun t => { t with puf := puf }).onPcie fun p => { p with refclkExt := refclk, refclkIn := refclk }
  if s.store.busy = .idle then s1.bootRom else s1.onTrunk fun t => { t with boot := .held }

/-- A boot ROM that was held starts once the store is idle (R386). -/
def State.bootHeld (s : State) : State := if s.trunk.boot = .held ∧ s.store.busy = .idle then s.bootRom else s

/-- A slot-state write is queued or in progress: firmware does not start before it is durable (R396). -/
def State.slotWriteOn (s : State) : Bool :=
  let mine := fun (w : WriteReq) => match w with | .record r _ => r.key == slotKey | _ => false
  s.store.queue.any mine || (match s.store.busy with | .write ws => ws.any mine | _ => false)

-- Firmware start.

/-- The leaf record of leaf `k` in the store (R88). -/
def State.leafRecord (s : State) (k : Nat) : LeafRec :=
  match s.current (leafKey k) with
  | some (.leaf r) => r
  | _ => { leafId := leafIdOf k }

/-- Factory reference codes of leaf `k` (Table 17-4), or the leaf record's copy of them where the factory section has none (Table 4-2). -/
def State.factoryCodes (s : State) (k : Nat) : SMap Nat :=
  match s.factoryAt (0x01000002 + k) with
  | some (.refCodes c) => (List.range 32).map fun q => (q, nth 192 c q)
  | _ => (List.range 32).map fun q => (q, (nth 192 (s.leafRecord k).factoryCode q).toNat)

/-- What a leaf keeps without its bough's power: cells, marker and derived configuration (R89, Table 15-2). -/
def Leaf.unpowered (l : Leaf) : Leaf :=
  { cells := l.cells, marker := l.marker, derivedOk := l.derivedOk, wSum := l.wSum, wChk := l.wChk, lsum := l.lsum, factoryCode := l.factoryCode, record := l.record, attempt := l.attempt }

/-- What a leaf keeps through a warm reset: also its calibration table, and what is counted since cold reset (Table 15-2). -/
def Leaf.warmKept (l : Leaf) : Leaf :=
  { l.unpowered with cal := l.cal, generation := l.generation, lastCause := l.lastCause, mvmEst := l.mvmEst, noiseSigma := l.noiseSigma, reprogramDue := l.reprogramDue, estHigh := l.estHigh,
                     phaseCnt := l.phaseCnt, progStatus := l.progStatus, checkRet := l.checkRet, biasTrips := l.biasTrips, fences := l.fences }

/-- Role, width, remap and fences of a leaf from its record and the slot the map gives it (R88, R329). -/
def Leaf.configure (l : Leaf) (r : LeafRec) (codes : SMap Nat) (slot : Option Nat) : Leaf :=
  { l with record := r, factoryCode := codes, width := r.width, remap := r.remap, groupFence := r.fencedGroups, checked := false,
           role := if r.state = .fenced then .fenced else match slot with | some _ => .active | none => .spare,
           slot := if r.state = .fenced then 0x1F#5 else match slot with | some p => BitVec.ofNat 5 p | none => 0x1F#5 }

/-- Logical slot that the leaf map gives leaf `k`. -/
def State.mapSlot (s : State) (k : Nat) : Option Nat :=
  (s.trunk.map.serve.find? fun p => decide (p.1 / 16 = k / 18 ∧ p.2 = k % 18)).map fun p => p.1 % 16

/-- The leaf map is read (R88). -/
def State.readMap (s : State) : State :=
  match s.current mapKey with
  | some (.leafMap m) => s.onTrunk fun t => { t with map := m }
  | _ => s.onTrunk fun t => { t with map := {} }

/-- A map entry that names a marked leaf is dropped, with a record (R95). -/
def State.dropMarked (s : State) (k : Nat) : State :=
  match (s.leaf k).marker, s.mapSlot k with
  | true, some sl => (s.onTrunk fun t => { t with map := { t.map with serve := smErase t.map.serve (16 * (k / 18) + sl) } }).record .mapMarker (uLeaf k) { source := 4, detail := sl }
  | _, _ => s

/-- Leaves of every enabled bough. -/
def State.allLeaves (s : State) : List Nat := s.allBoughs.flatMap leavesOf

/-- ACTIVE leaves. -/
def State.activeLeaves (s : State) : List Nat := s.allLeaves.filter fun k => (s.leaf k).role == Role.active

/-- Leaf map, leaf records and markers (R88, R95). -/
def State.readLeaves (s : State) : State :=
  let s1 := s.readMap
  let s2 := s1.allLeaves.foldl State.dropMarked s1
  let s3 := s2.allLeaves.foldl (fun (s : State) k => s.onLeaf k fun l => l.configure (s.leafRecord k) (s.factoryCodes k) (s.mapSlot k)) s2
  s3.allLeaves.foldl State.markInvalid s3

/-- Every fence of the fence record is applied (R329). -/
def State.applyFences (s : State) : State :=
  let f := s.fenceRec
  let s1 := (List.range 16).foldl (fun (s : State) b =>
    if bit f.boughs b then s.onBough b fun x => { x with fenced := true, fenceCause := smGet 0 f.boughCause b } else s) s
  (List.range 4).foldl (fun (s : State) i =>
    if bit f.stands i then s.onStand i fun d => { d with fenced := true, hbmFenced := bit f.hbm i, fenceCause := smGet 0 f.standCause i, rstState := .fenced } else s) s1

/-- Records that wait for running firmware (R396, R397, R373, R400, R406, Table 17-12). -/
def State.bootRecords (s : State) : State :=
  let s1 := s.trunk.fwFails.foldl (fun (s : State) p => s.record .fwVerifyFail uDevice { detail := p.1 + 256 * p.2, detail2 := le (s.slotBytes p.1) 8 1 }) s
  let s2 := if s1.trunk.recovery then s1.record .bootRecovery uDevice {} else s1
  let s3 := if s2.store.recNote then (s2.record .storeRecovery uDevice { source := 1, detail := fld s2.store.errStatus 3 0, detail2 := s2.store.ignored.toNat }).onStore fun d => { d with recNote := false } else s2
  -- The record of the current owner is missing (R400), or few signing indices remain (R406).
  let s4 := if s3.store.counters.lifecycle = 2 ∧ s3.ownerPk.isNone then s3.record .ownerMissing uDevice { detail := s3.store.counters.ownership } else s3
  let left := 1048576 - s4.trunk.xmssNext
  let s5 := if left < 65536 then s4.record .xmssLow uDevice { detail := left, detail2 := s4.trunk.xmssLimit } else s4
  if s5.bud.tripped ∧ !s5.bud.tripNoted then
    (s5.record .thermalTrip uDevice { source := 1, detail := s5.bud.tMax.toNat + 2 ^ 24 * s5.bud.hotIsland.toNat }).onBud fun b => { b with tripNoted := true }
  else s5

/-- Clocks of the enabled boughs at power-up, MHz (Table 16-1). -/
def State.powerBoughs (s : State) : State := s.allBoughs.foldl (fun (s : State) b => s.onBough b fun x => { x with freqMhz := 1800#11 }) s

/-- The ports of a device with a role begin to train (R290, R292, R293). -/
def State.trainPorts (s : State) : State :=
  let train := fun (l : Link) => { l with training := true }
  let r := s.ael.role
  match r.role with
  | .standalone => s
  | .worker => [0, 1].foldl (fun (s : State) p => s.onPort p fun q =>
      { q with state := .training, peer := if p = 0 ∧ r.position ≠ 0 then BitVec.ofNat 7 (16 * r.ring + r.position) else 0, linkA := train q.linkA }) s
  | .manager => ((List.range 4).filter fun i => decide (0 < nth 0 r.ringLen i)).foldl (fun (s : State) p =>
      s.onPort p fun q => { q with state := .training, peer := BitVec.ofNat 7 (1 + 16 * p), linkA := train q.linkA, linkB := train q.linkB })
      (s.onAel fun a => { a with discovering := true })

/-- Trunk firmware starts from a slot, or the boot ROM goes on in recovery mode: fences, leaf map and markers (R397, R406, Table 18-1). -/
def State.startFirmware (s : State) (slot : Nat) (recovery : Bool) : State :=
  let s1 := s.onTrunk fun t =>
    { t with fwRunning := true, recovery := recovery, runningSlot := if recovery then 0 else slot, bootResult := if recovery then 3 else t.bootResult,
             slotASvn := s.slotSvn 1, slotBSvn := s.slotSvn 2, fwDigest := if recovery then [] else fwDigest (s.slotBytes slot),
             xmssNext := s.xmssRec, xmssLimit := s.xmssRec, subtree := none }
  let s2 := s1.bootRecords.powerBoughs.applyFences
  -- Recovery mode fences every bough of the part; with an invalid factory record no bough is enabled and all 16 are fenced (R3, R4, R397).
  let all := if s2.factoryRec.isNone then List.range 16 else if recovery then s2.allBoughs else []
  let s3 := all.foldl (fun (s : State) b => s.onBough b fun x => { x with fenced := true }) s2
  s3.readLeaves

-- Leaves before readiness.

/-- Read-back of a leaf that lost its derived configuration (R90): derived anew, or the leaf is fenced. -/
def State.readBackLeaf (s : State) (k : Nat) (diff : SMap Nat) : State :=
  let l := s.leaf k
  let (payload, good) := l.readBack diff
  let d := canonicalDigest l.record.width payload
  if good ∧ l.record.state = .programmed ∧ d = l.record.digest then s.onLeaf k fun l => l.deriveFrom (l.levelsRead diff) l.record.width l.record.remap
  else (s.fenceLeaf k 4).record .readbackFail (uLeaf k) { source := 4, detail2 := leNat (d.take 8) }

/-- ACTIVE leaves without derived configuration. -/
def State.needReadback (s : State) : List Nat := s.activeLeaves.filter fun k => !(s.leaf k).derivedOk

/-- The reference self-check of a list of leaves with the codes read and the monitors' deviations; a leaf that is not listed reads its factory codes (R44). -/
def State.checkLeaves (s : State) (ks : List Nat) (refs : SMap (List Nat)) (mon : SMap (SMap Int)) : State :=
  ks.foldl (fun (s : State) k => s.selfCheck k (smGet ((List.range 32).map (smGet 192 (s.leaf k).factoryCode)) refs k) (smGet [] mon k)) s

/-- The start-up calibration of leaf `k` (R72): its only valid slot. -/
def State.startCal (s : State) (k : Nat) (o : MeasObs) : State :=
  let l := s.leaf k
  let load := s.bud.loadPct.toNat
  let (m, bad) := l.measure l.width l.remap 1 load o
  let s1 := (s.measPhases k o).onLeaf k fun l => { l with cal := [{}, {}, {}] }
  (s1.commitMeas k m (slotOfLoad load)).fenceColumns k bad 11

/-- Start-up calibration of every ACTIVE leaf (R72). -/
def State.startCals (s : State) (meas : SMap MeasObs) : State := s.activeLeaves.foldl (fun (s : State) k => s.startCal k (smGet {} meas k)) s

/-- HBM training at start-up ends: a stand whose channels do not train is fenced, one fenced for its HBM that trains is not (R334, R345). -/
def State.trainHbm (s : State) (untrained : List Nat) : State :=
  (List.range 4).foldl (fun (s : State) i =>
    if untrained.contains i then (if (s.stand i).fenced then s.onStand i fun d => { d with hbmFenced := true } else s.fenceStand i 9 true)
    else if (s.stand i).hbmFenced then
      (if (s.boughsOf i).all fun b => (s.bough b).fenced then s.onStand i fun d => { d with hbmFenced := false }
       else s.onStand i fun d => { d with fenced := false, hbmFenced := false, fenceCause := 0, rstState := .normal }).fenceRecord
    else s) s

/-- The device is ready (R277): readiness is signalled, the link's parameters are known, and discovery may begin. -/
def State.becomeReady (s : State) (o : StartObs) : State :=
  let s1 := (s.onTrunk fun t => { t with boot := .ready, confirmDue := !t.recovery }).onPcie fun p =>
    { p with ready := true, linkState := 1, rate := o.rate, width := o.width, flit := o.flit, readyTime := o.readyUs }
  s1.emit .drs

-- What a cold reset and a loss of power leave (R342, R349, R373, R386, R387, R415).

/-- Queued store writes are discarded; a step in progress goes on (R386). -/
def State.dropWrites (s : State) : State := s.onStore fun d => { d with queue := [] }

/-- The state as a cold reset leaves it, before the boot ROM is released (Table 15-2). -/
def State.coldState (s : State) : State :=
  let s1 := s.dropWrites
  { s1 with
    trunk := { time := s.trunk.time, puf := s.trunk.puf },
    bud := { s1.bud with power := .full, lastWake := if s.bud.power = .bare then 7 else s.bud.lastWake, entryStep := 0, wakeStep := 0,
                         syncLatched := false, edgeStopped := false },
    que := {}, pcie := { refclkExt := s.pcie.refclkExt, refclkIn := s.pcie.refclkIn }, ael := { role := s1.roleRec }, mgmt := { smbAddr := s.mgmt.smbAddr },
    stands := [], boughs := [], leaves := s.leaves.map fun (p : Nat × Leaf) => (p.1, p.2.unpowered), hbm := [], hbmBad := [], latches := [] }

/-- Every rail is off (R415): what the flash, the cells and the straps' reader lose. -/
def State.powerOff (s : State) (kept : Nat) : State :=
  { s with
    trunk := {}, bud := {}, que := {}, pcie := {}, ael := {}, mgmt := {}, tap := {}, stands := [], boughs := [], store := s.store.cutOff kept,
    leaves := s.leaves.map fun (p : Nat × Leaf) => (p.1, { p.2.unpowered with derivedOk := false, wSum := [], wChk := [], lsum := [] }),
    hbm := [], hbmBad := [], latches := [], rdata := 0 }

/-- PERST_N is asserted, or a cold reset begins otherwise: the link and the Aetholo links go down, and the block waits for the boot ROM's release (R349, R368). -/
def State.coldReset (s : State) : State := s.coldState.onTrunk fun t => { t with boot := .waiting }

end Sys2Proof.Machine
end

