-- ==== Sys2Proof/Machine/TestOps.lean ====
section
/-! DEFINITION. In-field tests: leaf parts, logic parts, full verifies and the progress of FIELD_TEST (R330 to R335). -/

namespace Sys2Proof.Machine

-- FIELD_TEST operations.

/-- FIELD_TEST operations by slot. -/
def State.ftests (s : State) : List (Nat × FTestOp) :=
  s.trunk.ops.filterMap fun (p : Nat × LongOp) => match p.2.body with | .ftest f => some (p.1, f) | _ => none

/-- Every unit of a FIELD_TEST is done. -/
def FTestOp.isDone (f : FTestOp) : Bool := f.leafParts.isEmpty && f.verifies.isEmpty && f.logicParts.isEmpty && f.unfenceLeaves.isEmpty && f.unfenceBoughs.isEmpty

/-- Its code (Table 14-6). -/
def FTestOp.code (f : FTestOp) : Nat := if f.fenced then 2 else if f.unfenceFailed then 5 else 0

/-- Change every FIELD_TEST, and end those that are done. -/
def State.onFtests (s : State) (g : FTestOp → FTestOp) : State :=
  s.ftests.foldl (fun (s : State) p =>
    let f := g p.2
    let s1 := s.onOp p.1 fun o => { o with body := .ftest f }
    if f.isDone then s1.endOp p.1 f.code else s1) s

/-- A running or waiting FIELD_TEST holds leaf `k` for an unfence. -/
def State.unfencing (s : State) (k : Nat) : Bool := s.ftests.any fun p => p.2.unfenceLeaves.contains k

/-- A suspended FIELD_TEST holds back a unit that has not started (R334). -/
def State.testHeld (s : State) (has : FTestOp → Bool) : Bool :=
  s.trunk.ops.any fun (p : Nat × LongOp) => p.2.suspended && (match p.2.body with | .ftest f => has f | _ => false)

/-- CANCEL leaves the remaining units of a FIELD_TEST untested (R334). -/
def State.ftestForget (s : State) (f : FTestOp) : State :=
  let s1 := f.leafParts.foldl (fun (s : State) k => s.onLeaf k fun l => { l with testDue := l.testRunning }) s
  let s2 := f.verifies.foldl (fun (s : State) k => s.onLeaf k fun l => { l with verifyRunning := false }) s1
  (f.logicParts ++ f.unfenceBoughs).foldl (fun (s : State) b => s.onBough b fun x => { x with logicDue := x.logicRunning }) s2

-- The leaf part (R330).

/-- A spot check of some rows finds nothing (R335). -/
def Leaf.spotOk (lf : Leaf) (rows : List Nat) (diff : SMap Nat) : Bool :=
  let w := lf.record.width
  let m := lf.record.remap
  rows.all fun r =>
    let level := fun c => (smFind diff (1152 * r + c)).getD (lf.cell r c)
    let stored := (List.range (logicals w)).map (readStored w m level)
    (List.range 32).all (fun q => level (1088 + q) == 3)
      && (List.range (logicals w + checkGroups w)).all (fun j => level (servedBy m (firstCol w j + offsetAt w)) == 0)
      && (List.range (checkGroups w)).all fun g => readStored w m level (logicals w + g) == rowCheck stored g

/-- Monitor codes that fail the sweep: more than 2 from 15 (R330). -/
def sweepFails (o : LeafPartObs) : Bool := o.sweep.any fun p => decide (2 < (clampI 0 1023 (15 + p.2) - 15).natAbs)

/-- The FT_RESULT record of a part: partner, third bough and failed step in detail2. -/
def State.ftResult (s : State) (unit : Word) (src part partner third step : Nat) : State :=
  s.record .ftResult unit { source := src, severity := some (if step = 0 then 0 else 2), detail := part, detail2 := partner + at_ third 8 + at_ step 16 }

/-- The 64 phases of the monitor sweep: in phase `n` each block's monitor reads its row `n` alone, at tap 15 (R52, R330). -/
def State.sweepPhases (s : State) (k : Nat) (codes : List Nat) (o : LeafPartObs) : State :=
  s.trunkDrive k (List.replicate 64 codes) (fun _ _ => 15) fun n b => smGet 0 o.sweep (64 * b + n)

/-- The four steps of the leaf part on leaf `k`: the state they leave, the first that fails (0 for none), and whether the spot check passed (R330). -/
def State.leafSteps (s : State) (k : Nat) (o : LeafPartObs) : State × Nat × Bool :=
  let codes := (List.range 32).map fun q => nth (smGet 192 (s.leaf k).factoryCode q) o.refs q
  let s0 := s.selfCheck k codes o.refMon
  let (s1, out, _, _) := (s0.measPhases k o.meas).judgeColumns k o.meas 1 none
  let s2 := s1.sweepPhases k codes o
  let s3 := if sweepFails o then s2.fenceLeaf k 3 else s2
  let spot := (s3.leaf k).spotOk (o.rows.take 16) o.levels
  (s3, if (s0.leaf k).outOfWindow ≠ 0 then 1 else if out = 1 then 2 else if sweepFails o then 3 else if !spot then 4 else 0, spot)

/-- The leaf part of leaf `k` ends (R330); a failed spot check starts a full verify (R335), which belongs to the unit's test. -/
def State.leafPart (s : State) (k : Nat) (o : LeafPartObs) : State :=
  let (s1, step, spot) := (s.onLeaf k fun l => { l with testDue := false, testRunning := false }).leafSteps k o
  let s2 := if !spot ∧ (s1.leaf k).role ≠ .fenced then s1.onLeaf k fun l => { l with verifyRunning := true } else s1
  let fenced := (s2.leaf k).fences != (s.leaf k).fences
  (s2.ftResult (uLeaf k) 4 1 0 0xFF step).onFtests fun f =>
    { f with leafParts := removeN f.leafParts k, fenced := f.fenced || (fenced && f.leafParts.contains k),
             verifies := if (s2.leaf k).verifyRunning && f.leafParts.contains k then insertN f.verifies k else f.verifies }

/-- The test image of an unfence, 8-bit weights (R334; log entry 165). -/
def testPayload (k : Nat) : List Byte := sub (Config.seededImage k) 0 131072

/-- Cells of a payload under a width and remap. -/
def imageCells (w : BitVec 2) (m : SMap (BitVec 16)) (payload : List Byte) : SMap Nat :=
  (List.range 1024).foldl (fun c r => setRow c r (rowTargets w m ((payload.drop (128 * r)).take 128))) []

/-- Give columns a spare in order (R48); none when no spare is left for one. -/
def allocSpares (m : SMap (BitVec 16)) (cols : List Nat) : Option (SMap (BitVec 16)) := cols.foldlM (fun m c => (allocSpare m c).map (·.1)) m

/-- Leaf `k` with the test image of an unfence in its cells, as steps 2 to 8 of Table 4-3 leave it (R334): pending and failed columns have a spare, and only the groups of failed reference columns stay fenced (R96, R97). None when spares run out. -/
def Leaf.testImaged (lf : Leaf) (k : Nat) (failed : List Nat) : Option Leaf :=
  let data := failed.filter fun c => decide (c < 1088 ∨ 1120 ≤ c ∧ c < 1152)
  let refs := wordOf (nsum ((failed.filter fun c => decide (1088 ≤ c ∧ c < 1120)).eraseDups.map fun c => 2 ^ (c - 1088)))
  (allocSpares lf.record.remap lf.record.pendingRemap).bind fun m1 =>
    (allocSpares m1 (data.filterMap (heldColumn m1)).eraseDups).map fun m =>
      ({ lf with cells := imageCells 0#2 m (testPayload k), width := 0#2, remap := m, groupFence := refs,
                 record := { lf.record with width := 0#2, remap := m, pendingRemap := [], fencedGroups := refs } } : Leaf).derive 0#2 m

/-- The unfence of leaf `k` ends: test image programmed, leaf part run on it, leaf erased again; SPARE if it passed (R334). A leaf whose spares run out stays FENCED. -/
def State.unfenceLeaf (s : State) (k : Nat) (o : LeafPartObs) : State :=
  let (s1, step) := match (s.leaf k).testImaged k o.failed with
    | none => (s, 5)
    | some t => let r := (s.onLeaf k fun _ => t).leafSteps k o; (r.1, r.2.1)
  let pass := step == 0
  let s2 := (s1.onLeaf k Leaf.beginAttempt).eraseLeaf k .none
  let s3 := (s2.onLeaf k fun l => if pass then { l with checked := true } else { l.setRole .fenced with record := { l.record with state := .fenced } }).writeLeafRec k .none
  (s3.ftResult (uLeaf k) 4 1 0 0xFF step).onFtests fun f =>
    { f with unfenceLeaves := removeN f.unfenceLeaves k, unfenceFailed := f.unfenceFailed || (!pass && f.unfenceLeaves.contains k) }

/-- A full verify of leaf `k` ends (R335). -/
def State.fullVerify (s : State) (k : Nat) (levels : SMap Nat) : State :=
  let l := s.leaf k
  let (payload, good) := l.readBack levels
  let same := good && decide (canonicalDigest l.record.width payload = l.record.digest)
  let s0 := s.onLeaf k fun l => { l with verifyRunning := false }
  let s1 := if same then s0
    else (s0.fenceLeaf k 8).record .digestMismatch (uLeaf k) { source := 4, detail2 := leNat (l.record.digest.take 8) }
  s1.onFtests fun f => { f with verifies := removeN f.verifies k, fenced := f.fenced || (!same && f.verifies.contains k) }

-- The logic part (R331, R332).

/-- The partner of bough `b`. -/
def State.partnerOf (s : State) (b : Nat) : Option Nat :=
  let p := if b % 2 = 0 then b + 1 else b - 1
  if s.usable p then some p else (s.allBoughs.filter fun c => s.usable c && c != b).head?

/-- A bough is between tasks and drained. -/
def State.betweenTasks (s : State) (b : Nat) : Bool :=
  let x := s.bough b
  x.drained || x.fenced || (x.task.isNone && x.epochs.isEmpty && x.held.isEmpty)

/-- A pair of the stand is under test. -/
def State.standTesting (s : State) (i : Nat) : Bool := (s.boughsOf i).any fun b => (s.bough b).logicRunning

/-- A load or fold quiesces the stand (Table 14-4). -/
def State.standQuiet (s : State) (i : Nat) : Bool := !(s.stand i).holdOps.isEmpty

/-- A replay keeps the stand's boughs from a logic part, but for those it ends with (R355, R356). -/
def State.replayHolds (s : State) (i : Nat) : Bool :=
  decide ((s.stand i).rstState = .replaying) && !(match (s.stand i).replay with | some r => r.testing | none => false)

/-- The due logic part of bough `b` starts where it can (R331 to R333). -/
def State.startLogic (s : State) (b : Nat) : State :=
  let x := s.bough b
  match s.partnerOf b with
  | none => s
  | some p =>
    let i := standOf b
    let j := standOf p
    let held := s.testHeld fun f => f.logicParts.contains b || f.unfenceBoughs.contains b
    if !x.logicDue ∨ x.logicRunning ∨ held ∨ s.bud.power ≠ .full ∨ !s.trunk.fwRunning ∨ s.trunk.warmBusy ∨ s.inReset i ∨ s.inReset j ∨ s.standTesting i ∨ s.standTesting j
        ∨ s.standQuiet i ∨ s.standQuiet j ∨ !s.betweenTasks b ∨ !s.betweenTasks p ∨ s.replayHolds i ∨ s.replayHolds j then s
    else (s.onBough b fun x => { x with logicRunning := true, logicPartner := p, clockStopped := false }).onBough p fun x => { x with logicRunning := true, logicPartner := b, clockStopped := false }

/-- Every due logic part that can starts; a bough held for its test after the deferral limit takes no new task. -/
def State.settleTests (s : State) : State :=
  s.allBoughs.foldl (fun (s : State) b =>
    let x := s.bough b
    let s1 := if x.logicStop ∧ x.task.isNone ∧ x.epochs.isEmpty ∧ x.held.isEmpty then s.onBough b fun x => { x with drained := true } else s
    s1.startLogic b) s

/-- A bough leaves its test. -/
def Bough.endTest (x : Bough) : Bough := { x with logicRunning := false, logicStop := false, drained := false }

/-- Lift the fence of bough `b`, and of its stand when all its boughs are unfenced (R334). -/
def State.unfenceBough (s : State) (b : Nat) : State :=
  let i := standOf b
  let s1 := s.onBough b fun x => { x with fenced := false, fenceCause := 0 }
  let s2 := if (s1.stand i).fenced ∧ !(s1.stand i).hbmFenced ∧ (s1.boughsOf i).all (fun c => !(s1.bough c).fenced) then
      s1.onStand i fun d => { d with fenced := false, fenceCause := 0, rstState := .normal }
    else s1
  s2.fenceRecord

/-- The logic part of bough `b` ends with the digests of the pair and of the third bough (R331). -/
def State.logicVerdict (s : State) (b : Nat) (d1 d2 d3 : DWord) : State :=
  let p := (s.bough b).logicPartner
  let third := (s.allBoughs.filter fun c => s.usable c && c != b && c != p).head?
  let unfence := s.ftests.any fun f => f.2.unfenceBoughs.contains b
  let nominal := s.ftests.any fun f => f.2.logicParts.contains b && bit f.2.flags 3
  let bad : List Nat := if d1 = d2 then [] else match third with
    | none => [b, p]
    | some _ => if d3 = d1 then [p] else if d3 = d2 then [b] else [b, p]
  let s1 := ((s.onBough b Bough.endTest).onBough b fun x => { x with logicDue := false }).onBough p fun x => (x.endTest)
  let s2 := if nominal then s1 else bad.foldl (fun (s : State) c => s.fenceBough c 6) s1
  let pass := !bad.contains b
  let s3 := if unfence ∧ pass then s2.unfenceBough b else s2
  let t := if d1 = d2 then 0xFF else third.getD 0xFF
  ((s3.ftResult (uBough b) 3 2 p t (if bad.isEmpty then 0 else 1)).onFtests fun f =>
    { f with fenced := f.fenced || (!nominal && !bad.isEmpty && f.logicParts.contains b), unfenceFailed := f.unfenceFailed || (!pass && f.unfenceBoughs.contains b),
             logicParts := removeN f.logicParts b, unfenceBoughs := removeN f.unfenceBoughs b }).settleTests

-- FIELD_TEST (R334).

/-- Fenced leaves start their unfence, and due parts start; units that cannot be tested are passed over. -/
def State.ftestTurn (s : State) : State :=
  let s1 := s.trunk.ops.foldl (fun (s : State) (p : Nat × LongOp) =>
    match p.2.body, p.2.suspended with
    | .ftest f, false =>
      let s2 := f.leafParts.foldl (fun (s : State) k => s.onLeaf k fun l => { l with testDue := l.testDue || (l.role == Role.active && !l.draining) }) s
      let s3 := f.verifies.foldl (fun (s : State) k => s.onLeaf k fun l => { l with verifyRunning := true }) s2
      (f.logicParts ++ f.unfenceBoughs).foldl (fun (s : State) b => s.onBough b fun x => { x with logicDue := true }) s3
    | _, _ => s) s
  (s1.onFtests fun f =>
    { f with leafParts := f.leafParts.filter fun k => let l := s1.leaf k; l.role == Role.active && !l.draining,
             verifies := f.verifies.filter fun k => let l := s1.leaf k; l.record.state == RecState.programmed && l.role != Role.fenced && l.role != Role.programming,
             -- A bough without a partner cannot be tested (R331).
             logicParts := f.logicParts.filter fun b => (s1.partnerOf b).isSome, unfenceBoughs := f.unfenceBoughs.filter fun b => (s1.partnerOf b).isSome,
             unfenceFailed := f.unfenceFailed || f.unfenceBoughs.any fun b => (s1.partnerOf b).isNone }).settleTests

end Sys2Proof.Machine
end

