-- ==== Sys2Proof/Machine/ResetOps.lean ====
section
/-! DEFINITION. The steps of a stand reset, the replay of suspects and the warm reset (chapter 15). -/

namespace Sys2Proof.Machine

-- Step 3, STOP (R344, R346, Table 4-6, Table 9-13, Table 14-4, R80, R386).

/-- Tasks dispatched to bough `b` and not completed. -/
def Bough.dispatched (x : Bough) : List Task := x.task.toList ++ x.waiting ++ x.ending ++ x.yielded.map (·.task)

/-- Tasks that a reset of stand `i` ends, with the boughs that hold them, in dispatch order (R346). -/
def State.endedOf (s : State) (i : Nat) : List (Nat × Task) :=
  ((s.boughsOf i).flatMap fun b => ((s.bough b).dispatched.filter (!·.quarantine)).map fun t => (b, t)).mergeSort fun a c => a.2.id ≤ c.2.id

/-- The suspects that a list of ended tasks gives, and whether there are more than 16 (R354). -/
def suspectsOf (l : List (Nat × Task)) : List Suspect × Bool :=
  let ctx := fun (p : Nat × Task) => fld p.2.trec.context 17 0
  let cs := (l.map ctx).eraseDups
  ((cs.take 16).map fun c => { context := c, bough := ((l.find? fun p => ctx p == c).map (·.1)).getD 0, tasks := (l.filter fun p => ctx p == c).map (·.2) },
    decide (16 < cs.length))

/-- A leaf stops: nothing waits or is half measured. -/
def Leaf.stopPhases (l : Leaf) : Leaf :=
  { l with jobs := [], pFirst := [], pFirstChk := [], sigFirst := 0, firstBad := false, codesFirst := [], digitsFirst := [], mismatchHold := false, diag := [],
           testDue := l.testDue || l.testRunning, testRunning := false, verifyRunning := false, spacing := false, deferred := [], recalWanted := false }

/-- Bough `b` stops at once: phases and epochs abandoned, held lines discarded, tasks gone (Table 15-3 step 3). -/
def State.stopBough (s : State) (b : Nat) : State :=
  let s1 := (s.undoFrom b 0).onBough b fun x =>
    { x with task := none, waiting := [], ending := [], yielded := [], held := [], reads := [], contribs := [], replay := [], draining := false, drained := false,
             wait := .none, ptrOk := false, stalledCredit := false }
  let partner := (s1.bough b).logicPartner
  let s2 := if (s1.bough b).logicRunning then (s1.onBough b Bough.endTest).onBough partner Bough.endTest else s1
  ((leavesOf b).foldl (fun (s : State) k => (s.dropMeas k 4).onLeaf k Leaf.stopPhases) s2).endDrains b

/-- Program members of a stopped bough leave the sequence (Table 4-6); those of a load or fold fail with it, and a member whose map write is issued goes on (log entry 94). -/
def State.stopMember (s : State) (pid : Nat) : State :=
  match s.prog pid with
  | none => s
  | some p =>
    let issued : Bool := match s.group p.group with | some _ => s.mapIssued p.group | none => true
    if p.step = 10 ∨ (p.step = 9 ∧ issued) then s
    else
      let s1 := match p.leaf with
        | some k =>
          if decide (2 ≤ p.step ∧ p.step ≤ 8) && !p.adopt then
            (s.onLeaf k fun l =>
              { l with marker := true, progStatus := 9, progStep := 0, progRow := 0, progPass := 0 }).onProg pid fun p => { p with leaf := none }
          else s
        | none => s
      match p.parent with
      | some _ => s1
      | none => s1.failMember pid 9 false

/-- XRECVs elsewhere that wait on a transfer from a stand under reset fail (R212). -/
def State.failXrecvs (s : State) : State := s.allBoughs.foldl State.failXrecv s

/-- A queue at its stand's reset: nothing in flight; its descriptor was written back, or its counters are those of the last write-back and a pinned queue halts (R346). -/
def State.stopQueue (s : State) (q : Nat) (lost : Bool) : State :=
  let r := s.queue q
  let off := fun (s : State) => s.onQueue q fun r => { r with inflight := [], cached := false, reading := false, fetched := none }
  if !lost then off (if r.cached then s.writeBack q else s)
  else
    let w := fun (o : Nat) => wordOf (s.hbmNat (s.descAddr q + o) 4)
    let s1 := if r.cached then s.onQueue q fun r =>
        { r with sqTail := w 32, sqHead := w 36, cqTail := w 40, cqHead := w 44, dropped := w 48, missed := w 52, halted := bit (w 56) 1, haltCause := byteOf (fld (w 56) 15 8) }
      else s
    off (if r.pinned then s1.haltQueue q 0x0F else s1)

/-- Queued leaf records of a stand's leaves are discarded (R386). -/
def State.dropLeafRecs (s : State) (i : Nat) : State :=
  s.onStore fun d => { d with queue := d.queue.filter fun w => match w with
    | .record r _ => !decide (leafKey (72 * i) ≤ r.key ∧ r.key < leafKey (72 * i + 72))
    | _ => true }

/-- Loads and folds that target a stand end with its reset, unless their last map write is issued (Table 9-13, R248). -/
def State.failRuns (s : State) (i : Nat) : State :=
  (s.trunk.ops.map (·.1)).foldl (fun (s : State) h => if (s.runStands h).1.contains i then (s.failRun h 0x0B 6).1 else s) s

/-- Step 3 without its effect on queues and suspects, as a warm reset makes it. -/
def State.stopStand (s : State) (i : Nat) : State :=
  ((s.boughsOf i).foldl State.stopBough s).onStand i fun d => { d with rstState := .holding, rstStep := 4 }

/-- Step 3 of a stand reset. -/
def State.resetStop (s : State) (i : Nat) (o : ResetObs) : State :=
  let d := s.stand i
  let lost := o.writeBackFail || o.scanFail
  let ended := s.endedOf i
  let shown := ended.map fun p => { p.2 with trec := { p.2.trec with bough := if p.2.started then p.1 else 0xFF } }
  let (sus, more) := suspectsOf ended
  let hang := d.rstTrigger == 1 || d.rstTrigger == 3
  let s1 := (s.trunk.progs.filter fun (p : Nat × Prog) => standOf p.2.bough == i).foldl (fun (s : State) p => s.stopMember p.1) s
  let s2 := (s1.failRuns i).dropLeafRecs i
  let s3 := s2.stopStand i
  let mine := (s3.que.queues.filter fun (p : Nat × QRun) => p.2.enabled && p.2.desc.owner == i).map (·.1)
  let s4 := mine.foldl (fun (s : State) q => s.stopQueue q lost) s3
  (s4.onStand i fun e => { e with ended := if d.replay.isSome then e.ended else shown, fallback := e.fallback || o.scanFail, writeBackFailed := e.writeBackFailed || lost,
                                  suspects := if d.replay.isSome then e.suspects else if hang then sus else [],
                                  suspectOverflow := if d.replay.isSome then e.suspectOverflow else hang && more }).failXrecvs

-- Step 5, RESET.

/-- A leaf as the reset leaves it: cells, configuration, calibration and what is counted since cold reset are kept (Table 15-2); its other registers return to their reset values. -/
def Leaf.afterReset (l : Leaf) : Leaf :=
  { l with errStatus := 0, mismatchCnt := 0, outOfWindow := 0, lastCode := [], mismatchHold := false, blockMismatch := [], recalWanted := false, wantedCause := 0, mismatchActive := false,
           mismatchSeen := false, mismatchNow := false, calCtrl := 0x00010A03#32, calMismatchCnt := 0, calAutoCnt := 0, trimSel := 0 }

/-- A bough as the reset leaves it: what is kept is configuration, fences, clocks, EPOCH counts since cold reset and memory contents; register files return to their reset values. -/
def Bough.afterReset (x : Bough) : Bough :=
  { fenced := x.fenced, fenceCause := x.fenceCause, freqMhz := x.freqMhz, clockStopped := x.clockStopped, newFreq := x.newFreq, parked := x.parked, retireCnt := x.retireCnt,
    logicDue := x.logicDue, progQueue := x.progQueue, sapwood := x.sapwood, tables := x.tables, acc := x.acc.map fun p => (p.1, { p.2 with valid := false, poison := none, writer := 0 }),
    sapParity := x.sapParity, inbound := x.inbound, landed := x.landed, sent := x.sent, credits := x.credits, received := x.received }

/-- Scheduler and HBM controller registers of a stand return to their reset values and its integrity counters to 0 (R340); the uncorrectable-error mode and the reset's own state are kept. -/
def Stand.afterReset (d : Stand) : Stand :=
  { d with schCtrl := 0x00010204#32, missCnt := 0, yieldCnt := 0, lastSlot := 0, lastBulk := 0, lastAdapt := 0, lastMaint := 0, turn := .bulk, turnLeft := 4, schedStopped := false,
           routerStopped := false, hbmCtrl := 0x00400018#32 &&& 0xFFFFFEFF#32 ||| (d.hbmCtrl &&& 0x00000100#32), ueAddr := 0, ueSeen := 0, scrubActive := 0, ceCnt := [], ueCnt := [],
           poisonResets := 0, poisoned := 0, scrubCe := [], xylRetry := 0, xylPoison := 0 }

/-- Scheduler, boughs with their leaves, and controllers of a stand are reset (R17; log entry 92). -/
def State.resetUnits (s : State) (i : Nat) : State :=
  let s1 := (s.boughsOf i).foldl (fun (s : State) b => (leavesOf b).foldl (fun (s : State) k => s.onLeaf k Leaf.afterReset) (s.onBough b Bough.afterReset)) s
  s1.onStand i Stand.afterReset

/-- Leaf markers of a stand are read (R95). -/
def State.readMarkers (s : State) (i : Nat) : State :=
  ((s.boughsOf i).flatMap leavesOf).foldl (fun (s : State) k => (s.dropMarked k).markInvalid k) s

-- Step 6, EXIT, and the fallback path (R345).

/-- A stand's whole range is written with zeros and valid check bits. -/
def State.zeroStand (s : State) (i : Nat) : State :=
  let mine := fun (a : Nat) => hbmStand a == i
  { s with hbm := s.hbm.filter fun p => !mine p.1, hbmBad := s.hbmBad.filter fun w => !mine (8 * w) }

/-- A range of addresses touches stand `i`. -/
def touches (i a n : Nat) : Bool := decide (a < (i + 1) * standSize ∧ i * standSize < a + n)

/-- A queue's rings touch stand `i`. -/
def QDesc.ringsIn (d : QDesc) (i : Nat) : Bool :=
  (match d.sqBase with | .hbm a => touches i a (recBytes * 2 ^ d.sqLog2) | _ => false) || (match d.cqBase with | .hbm a => touches i a (32 * 2 ^ d.cqLog2) | _ => false)

/-- A queue that is disabled with the whole engine. -/
def QRun.turnOff (r : QRun) : QRun :=
  { r with enabled := false, disabling := false, cached := false, waitsKnot := false, pendingDb := none, fetched := none, reading := false }

/-- Knots without the waiters that `gone` names. -/
def Que.unwait (x : Que) (gone : KWaiter → Bool) : Que :=
  { x with knots := x.knots.map fun (p : Nat × Knot) => (p.1, { p.2 with waiters := p.2.waiters.filter fun w => !gone w }) }

/-- Every queue of the device is disabled. -/
def State.disableAll (s : State) : State :=
  s.onQue fun x =>
    { x.unwait (fun w => match w with | .queue _ => true | _ => false) with
      ctrl := false, queues := x.queues.map fun (p : Nat × QRun) => (p.1, p.2.turnOff) }

/-- Every armed collective entry is disarmed. -/
def State.disarmAll (s : State) : State :=
  (s.onAel fun a => { a with armed := [], early := [] }).onQue fun x => x.unwait fun w => match w with | .coll _ => true | _ => false

/-- Stands whose image lay in stand `i` lose it (R232). -/
def State.loseImages (s : State) (i : Nat) : State :=
  (List.range 4).foldl (fun (s : State) j =>
    match (s.stand j).canopy with
    | some c =>
      if !touches i (s.stand j).cnpAddr.toNat c.length then s
      else
        let s1 := s.onStand j fun d => { d with canopy := none, cnpAddr := 0, cnpState := if d.cnpState = .loaded then .none else d.cnpState }
        -- The running twigs of other stands fault (R347).
        (s1.boughsOf j).foldl (fun (s : State) b => if j = i then s else s.faultTask b .noImage 0) s1
    | none => s) s

/-- What a fallback path loses besides the zeroed range (R345). -/
def State.loseTables (s : State) (i : Nat) : State :=
  -- Both tables are 64 MiB (R250).
  let table := touches i s.que.tableBase.toNat 0x4000000 || touches i s.que.ctxBase.toNat 0x4000000
  let s1 := if s.que.ctrl ∧ table then
      (s.disableAll.onStand i fun d => { d with tablesLost := true }).record .tablesLost (uStand i) { source := 2, detail := i }
    else (s.que.queues.filter fun (p : Nat × QRun) => p.2.enabled && p.2.desc.ringsIn i).foldl (fun (s : State) p => s.haltQueue p.1 0x0F) s
  if s1.ael.collEn ∧ touches i s1.ael.collBase.toNat (64 * 4096) then s1.disarmAll else s1

/-- Step 6 on the fallback path. -/
def State.fallbackExit (s : State) (i : Nat) (o : ResetObs) : State :=
  let s1 := ((s.zeroStand i).loseTables i).loseImages i
  if o.untrained.contains i then s1.fenceStand i 9 true else s1

-- Step 7, RESTORE.

/-- The image in force on a stand is read and applied again, or the stand has none (R232). -/
def State.restoreImage (s : State) (i : Nat) : State :=
  let d := s.stand i
  match d.canopy with
  | none => s
  | some c =>
    let a := d.cnpAddr.toNat
    let bs := s.hbmBytes a c.length
    if s.hbmUe a c.length ∨ BitVec.ofNat 64 (leNat ((imageDigest bs).take 8)) ≠ c.imageId then
      (s.onStand i fun d => { d with canopy := none, cnpAddr := 0, cnpState := .none }).record .imageLost (uStand i) { source := 2, detail2 := c.imageId.toNat }
    else s.installImage i c a

/-- Routes of an image with a member in stand `i`. -/
def Canopy.routesOf (c : Canopy) (i : Nat) : List Nat :=
  (List.range c.routes.length).filter fun r =>
    let rt := nth ({} : Route) c.routes r
    standOf rt.receiver == i || rt.senders.any fun p => standOf p.1 == i

/-- Whole transfers that stand `i` released to bough `b` before its reset land, and an XRECV that waits for them goes on (R212). -/
def State.deliverOld (s : State) (b i : Nat) (c : Canopy) : State :=
  (c.routesOf i).foldl (fun (s : State) r => ((nth ({} : Route) c.routes r).senders.filter fun p => standOf p.1 == i).foldl (fun (s : State) p =>
    ((smGet [] (s.bough b).inbound (16 * r + p.1)).filter (·.whole)).foldl (fun (s : State) _ => (s.landNow b r p.1).tryXrecv b) s) s) s

/-- Sequence numbers and credits of every route with a member in the stand are reset on every member, once what the stand released before has been delivered (R212, log entry 93). -/
def State.resetRoutes (s : State) (i : Nat) : State :=
  s.allBoughs.foldl (fun (s : State) b =>
    match s.canopyOf b with
    | none => if standOf b = i then s.onBough b fun x => { x with inbound := [], landed := [], sent := [], credits := [], received := [] } else s
    | some c =>
      let hit := c.routesOf i
      (if standOf b = i then s else s.deliverOld b i c).onBough b fun x =>
        { x with sent := x.sent.filter (fun p => !hit.contains p.1), credits := x.credits.filter (fun p => !hit.contains p.1),
                 received := x.received.filter (fun p => !hit.contains (p.1 / 16)), landed := x.landed.filter (fun p => !hit.contains (p.1 / 16)),
                 inbound := x.inbound.filter (fun p => !hit.contains (p.1 / 16)),
                 epochs := x.epochs.map fun e => { e with consumed := e.consumed.filter (fun p => !hit.contains p.1), sends := e.sends.filter fun r => !hit.contains r } }) s

/-- The ENDED completion of one task, and the halt of a HOLD queue (R346). -/
def State.completeEnded (s : State) (i : Nat) (path : Nat) (suspect : Bool) (t : Task) : State :=
  let r := s.queue t.queue
  let k : Compl :=
    { userTag := t.trec.userTag, sqIndex := wordOf t.sqIndex, context := wordOf (fld t.trec.context 17 0), status := 5, cause := 0x0F, bough := t.trec.bough,
      detail := wordOf (at_ (b2n suspect) 31 + at_ path 29 + i), irq := bit t.trec.flags 0 }
  let gone := path == 2 && r.desc.ringsIn i
  let s1 := if r.enabled ∧ !gone ∧ !t.discard then s.complete t.queue k else s
  let s2 := if r.enabled ∧ t.hold then s1.haltQueue t.queue 0x0F else s1
  s2.taskSignal t.trec

/-- Armed entries of a stand that is out of reset wait on their triggers again (R300, R310). -/
def State.rewait (s : State) (i : Nat) : State :=
  s.ael.armed.foldl (fun (s : State) (p : Nat × Armed) => if p.2.ent.stand = i then s.armWait p.1 else s) s

/-- The quarantine bough of a stand's replay (R355). -/
def State.quarantineBough (s : State) (i : Nat) : Option Nat :=
  let c := (s.stand i).rstCtrl
  if bit c 21 then (s.boughsOf i).find? fun b => !(s.bough b).fenced && !bit c (24 + b % 4)
  else
    let b := 4 * i + fld c 23 22
    if s.usable b then some b else none

/-- The stand's replay and reset are over: dispatch resumes, and what waited goes on. -/
def State.resumeStand (s : State) (i : Nat) : State :=
  let s1 := s.onStand i fun d => { d with rstState := if d.fenced then .fenced else .normal, rstStep := 0, replay := none, ended := [] }
  let s2 := ((s1.onAel fun a => { a with stopped := a.stopped &&& ~~~(BitVec.ofNat 4 (2 ^ i)) }).rewait i).actPending.retryEnable.retryArm
  -- A DISABLE that waited for the ended tasks takes effect.
  let s3 := s2.que.queues.foldl (fun (s : State) (p : Nat × QRun) => if p.2.desc.owner = i ∧ p.2.enabled ∧ p.2.disabling ∧ p.2.idle then s.finishDisable p.1 else s) s2
  -- A FLUSH goes on.
  let s4 := s3.que.queues.foldl (fun (s : State) (p : Nat × QRun) => if p.2.desc.owner = i then s.flushOn p.1 else s) s3
  s4.mgrAll.settleTests.settleQueues

/-- A suspect's tasks are put on the quarantine bough for one attempt, in their original order (R355). -/
def State.startAttempt (s : State) (i : Nat) : State :=
  let d := s.stand i
  match d.replay with
  | none => s
  | some r =>
    let su := nth ({ context := 0, bough := 0 } : Suspect) d.suspects r.idx
    let clean := fun (t : Task) => { t with quarantine := true, started := false, issueDone := false, fault := none, yielded := false, stats := [], dbl := [], checkSquashes := 0, satSquashes := 0,
                                            deltas := [], stepParts := [], graftClips := [], graftNonfinite := [], graftFlushed := [], lost := false }
    ((s.onBough r.bough fun x => { x with waiting := su.tasks.map clean }).onStand i fun d =>
      { d with suspects := modAt d.suspects r.idx fun u => { u with verdict := .running }, replay := some { r with left := su.tasks, void := false } })

/-- The boughs that software named as stalled and that can be tested (R356). -/
def State.namedBoughs (s : State) (i : Nat) : List Nat :=
  (s.boughsOf i).filter fun b => bit (s.stand i).rstCtrl (24 + b % 4) && s.usable b && (s.partnerOf b).isSome

/-- The replay goes on to its next suspect, or ends: when every suspect is CLEARED, the boughs that software named get a logic test (R355, R356). -/
def State.nextSuspect (s : State) (i : Nat) : State :=
  let d := s.stand i
  match d.replay with
  | none => s
  | some r =>
    if r.idx < d.suspects.length then s.startAttempt i
    else
      let clear := !d.suspectOverflow && d.suspects.all fun u => decide (u.verdict = .cleared)
      let named := if clear then s.namedBoughs i else []
      if named.isEmpty then s.resumeStand i
      else
        ((named.foldl (fun (s : State) b => s.onBough b fun x => { x with logicDue := true }) s).onStand i fun d =>
          { d with replay := d.replay.map fun r => { r with testing := true } }).settleTests

/-- The replays that end with the logic parts of their named boughs, and whose parts have ended, are over (R356). -/
def State.endReplays (s : State) : State :=
  (List.range 4).foldl (fun (s : State) i =>
    match (s.stand i).replay with
    | some r =>
      if (s.stand i).rstState = .replaying ∧ r.testing ∧ !((s.namedBoughs i).any fun b => (s.bough b).logicDue) then s.resumeStand i else s
    | none => s) s

/-- The logic part of bough `b` ends with the digests of its pair and of a third bough (R331); a replay that waits for it may be over. -/
def State.logicPart (s : State) (b : Nat) (d1 d2 d3 : DWord) : State := (s.logicVerdict b d1 d2 d3).endReplays

/-- What the end of a reset of stand `i` leaves in its registers (R357), in the log (Table 14-8) and in ring 2 (Table 17-11). -/
def State.endedReset (s : State) (i path ended : Nat) (o : ResetObs) : State :=
  let s1 := s.onStand i fun d =>
    { d with rstPath := BitVec.ofNat 2 path, rstTime := o.timeUs, cntMain := if path = 1 then satInc d.cntMain else d.cntMain, cntFallback := if path = 2 then satInc d.cntFallback else d.cntFallback }
  (s1.record .reset (uStand i) { source := 0, detail := 1 + at_ path 4 + at_ (s.stand i).rstTrigger.toNat 8 + at_ i 12, detail2 := ended }).storeWrite (.ring 2 (s.ringNext 2))

/-- Step 7 of the main reset (R344, R346, R354, R355). -/
def State.resetRestore (s : State) (i : Nat) (o : ResetObs) : State :=
  let d := s.stand i
  let path := if d.fallback then 2 else 1
  let hang := d.rstTrigger == 1 || d.rstTrigger == 3
  let s1 := s.restoreImage i
  let s2 := ((s1.boughsOf i).foldl State.applySwaps s1).resetRoutes i
  let s3 := d.ended.foldl (fun (s : State) t => s.completeEnded i path hang t) s2
  let s5 := s3.endedReset i path d.ended.length o
  let e := s5.stand i
  if !d.wantReplay ∨ d.suspects.isEmpty then s5.resumeStand i
  else match e.canopy, s5.quarantineBough i with
    | some _, some q =>
      if e.fenced then (s5.onStand i fun d => { d with suspects := d.suspects.map fun u => { u with verdict := .unresolved } }).resumeStand i
      else (s5.onStand i fun d => { d with rstState := .replaying, rstStep := 0, replay := some { bough := q } }).startAttempt i
    | _, _ => (s5.onStand i fun d => { d with suspects := d.suspects.map fun u => { u with verdict := .unresolved } }).resumeStand i

/-- Step 7 of a reset inside a replay: the image is applied again and the next suspect follows (R355). -/
def State.innerRestore (s : State) (i : Nat) (o : ResetObs) : State :=
  let s1 := s.restoreImage i
  let s2 := (((s1.boughsOf i).foldl State.applySwaps s1).resetRoutes i).endedReset i (if (s.stand i).fallback then 2 else 1) 0 o
  let s3 := s2.onStand i fun d =>
    { d with rstState := .replaying, rstStep := 0, replay := d.replay.map fun r => { r with resetting := false, idx := r.idx + 1 } }
  let e := s3.stand i
  if e.fenced ∨ e.canopy.isNone then
    (s3.onStand i fun d => { d with suspects := d.suspects.map fun u => if u.verdict = .pending ∨ u.verdict = .running then { u with verdict := .unresolved } else u }).resumeStand i
  else s3.nextSuspect i

/-- Reads that waited on the range of a stand go on: an ENABLE, an ARM and the heads of rings (R347). -/
def State.retryReads (s : State) : State := s.retryEnable.retryArm.settleQueues

/-- The present step of stand `i`'s reset ends (Table 15-3). -/
def State.standStep (s : State) (i : Nat) (o : ResetObs) : State :=
  let d := s.stand i
  let at5 := fun (s : State) => s.onStand i fun d => { d with rstStep := 5 }
  match d.rstStep with
  | 2 =>
    if s.trunk.dumps.any fun r => r.kind == 1 && r.op == some i then s
    else s.onStand i fun d => { d with rstState := .stopping, rstStep := 3, fallback := d.fallback || o.scanFail }
  | 3 => s.resetStop i o
  | 4 => at5 s
  | 5 =>
    let s1 := (s.resetUnits i).readMarkers i
    ((if d.fallback then s1.zeroStand i else s1).onStand i fun d => { d with rstStep := 6, rstState := if d.fallback then .reinit else .holding }).retryReads
  | 6 =>
    let s0 := s.recoverLeaves ((s.boughsOf i).flatMap leavesOf)
    let s1 := if d.fallback then s0.fallbackExit i o else s0
    (s1.onStand i fun d => { d with rstStep := 7, rstState := .restoring }).retryReads
  | 7 => if (match d.replay with | some r => r.resetting | none => false) then s.innerRestore i o else s.resetRestore i o
  | _ => s

-- Replay events (R355, R356).

/-- An attempt on the quarantine bough has ended: it passes, or is run again uncounted. -/
def State.endAttempt (s : State) (i : Nat) : State :=
  let d := s.stand i
  match d.replay with
  | none => s
  | some r =>
    let x := s.bough r.bough
    if r.resetting then s
    else if r.testing then s.endReplays
    else if r.void then ((s.stopBough r.bough).startAttempt i)
    else if !x.dispatched.isEmpty then s
    else
      let n := (nth ({ context := 0, bough := 0 } : Suspect) d.suspects r.idx).attempts + 1
      let s1 := s.onStand i fun d => { d with suspects := modAt d.suspects r.idx fun u => { u with attempts := n, verdict := if 3 ≤ n then .cleared else u.verdict } }
      if n < 3 then s1.startAttempt i
      else (s1.onStand i fun d => { d with replay := some { r with idx := r.idx + 1 } }).nextSuspect i

/-- An attempt hangs: its context is GUILTY, and the stand is reset inside the replay. -/
def State.guilty (s : State) (i : Nat) : State :=
  let d := s.stand i
  match d.replay with
  | none => s
  | some r =>
    if r.resetting || r.testing then s
    else
      let u := nth ({ context := 0, bough := 0 } : Suspect) d.suspects r.idx
      let n := u.attempts + 1
      let a := s.ctxAddr u.context
      let s1 := if s.que.ctrl ∧ !s.hbmUe a 128 then (s.pokeNat a 1 (s.hbmNat a 1 ||| 2)).pokeNat (a + 64) 1 0x0F else s
      let s2 := s1.record .hangGuilty (uBough r.bough) { source := 2, context := some u.context, detail := u.context, detail2 := n + at_ r.bough 8 }
      (s2.onStand i fun d =>
        { d with suspects := modAt d.suspects r.idx fun u => { u with attempts := n, verdict := .guilty }, rstState := .stopping, rstStep := 3, fallback := false, rstAt := s.trunk.time,
                 replay := some { r with resetting := true } }).resetPoint i false

-- Warm reset (R348).

/-- A reset met in Dormant or in a wake powers the boughs again, whose calibration tables are lost (R367). -/
def State.restorePower (s : State) : State :=
  if s.bud.power = .dormant ∨ s.bud.power = .waking then
    { s with bud := { s.bud with power := .full, wakeStep := 0, wakeLatch := 0, syncLatched := false }, trunk := { s.trunk with warmPower := true },
             leaves := s.leaves.map fun (p : Nat × Leaf) => (p.1, { p.2 with cal := [{}, {}, {}] }) }
  else s

/-- A warm reset begins: dispatch is held everywhere and the reset stands are absorbed (R348, R350). -/
def State.beginWarm (s : State) (cause : Nat) : State :=
  if s.trunk.warmBusy ∨ !s.trunk.fwRunning then s
  else
    let s1 := ((s.abortEntry 8 uDevice).dropMgmt.dropWrites).disableAll.restorePower
    s1.onTrunk fun t => { t with warmBusy := true, warmStep := 1, warmSys := cause == 3, lastCause := BitVec.ofNat 4 cause, warmCount := satInc t.warmCount, dumps := [] }

/-- The notice of a warm reset is sent, or left out for a SYS_RESET (R307, R308). -/
def State.warmNotice (s : State) : State :=
  if s.trunk.warmSys then (s.onAel fun a => { a with incarnation := a.incarnation + 1, stopped := 0xF#4 }).disarmAll else s.resetPoint 0 true

/-- Step 2 of a warm reset is entered: the dump of every stand, unless it is not wanted. -/
def State.warmDumpStep (s : State) (dump : Bool) : State :=
  if !dump then s.onTrunk fun t => { t with warmStep := 3 }
  else
    let (dest, size) := s.dumpDest true
    s.onTrunk fun t => { t with warmStep := 2, dumps := t.dumps ++ [{ kind := 2, mask := 0xF#4, dest := dest, size := size, left := s.dumpUnits 0xF#4 }] }

/-- Step 3 of a warm reset: every stand runs steps 3 to 6 of Table 15-3, without the write-back. -/
def State.warmStop (s : State) (o : ResetObs) : State :=
  -- Leaves in steps 2 to 8 of the sequence are left marked; every operation and group ends with its handle (R104).
  let s1 := s.trunk.progs.foldl (fun (s : State) (p : Nat × Prog) => match p.2.leaf with
    | some k => if decide (2 ≤ p.2.step ∧ p.2.step ≤ 8) && !p.2.adopt then s.onLeaf k fun l => { l with marker := true } else s
    | none => s) s
  let fell := (List.range 4).any fun i => bit (s.stand i).rstCtrl 28 || o.scanStands.contains i || (s.stand i).fallback
  let s2 := s1.onTrunk fun t => { t with ops := [], progs := [], groups := [], warmFell := fell }
  (List.range 4).foldl (fun (s : State) i =>
    let d := s.stand i
    let back := bit d.rstCtrl 28 || o.scanStands.contains i || d.fallback
    let s1 := ((s.stopStand i).resetUnits i).onStand i fun d => { d with fallback := false, replay := none, rstStep := 0, rstState := if d.fenced then .fenced else .normal }
    let s2 := if back then s1.zeroStand i else s1
    if back && o.untrained.contains i then s2.fenceStand i 9 true else s2) s2

/-- A stand through the reset of trunk and schedulers: fences and counts since cold reset. -/
def Stand.warmKept (d : Stand) : Stand :=
  { fenced := d.fenced, hbmFenced := d.hbmFenced, fenceCause := d.fenceCause, rstState := if d.fenced then .fenced else .normal, loadStatus := d.loadStatus, loadSection := d.loadSection,
    loadEntry := d.loadEntry, loadCnt := d.loadCnt, cntFallback := d.cntFallback, cntMain := d.cntMain, hbDispatch := d.hbDispatch, hbComplete := d.hbComplete,
    hbmCtrl := 0x00400018#32 &&& 0xFFFFFEFF#32 ||| (d.hbmCtrl &&& 0x00000100#32) }

/-- A bough through it. -/
def Bough.warmKept (x : Bough) : Bough :=
  { fenced := x.fenced, fenceCause := x.fenceCause, freqMhz := x.freqMhz, clockStopped := x.clockStopped, newFreq := x.newFreq, parked := x.parked, retireCnt := x.retireCnt, sapwood := x.sapwood }

/-- Step 4 of a warm reset: trunk, schedulers, xylem, knot unit and queue engine are reset, and the boot ROM chooses a slot. -/
def State.warmUnits (s : State) : State :=
  let t := s.trunk
  { s with
    trunk := { boot := t.boot, partId := t.partId, coreMap := t.coreMap, warmDump := t.warmDump, warmBusy := true, warmStep := 4, lastCause := t.lastCause, warmCount := t.warmCount,
               warmSys := t.warmSys, warmPower := t.warmPower, warmFell := t.warmFell, hb0 := t.hb0, hb1 := t.hb1, dumpStatus := t.dumpStatus, dumpUnreach := t.dumpUnreach, dumpLen := t.dumpLen, recSeq := t.recSeq, onDie := t.onDie,
               spacing := t.spacing, lost := t.lost, identityOk := t.identityOk, identityPk := t.identityPk, debugActive := t.debugActive, puf := t.puf, time := t.time },
    que := { syncCnt := s.que.syncCnt },
    ael := { s.ael with collEn := false, collBase := 0, armBusy := false, armResult := 0, armOp := 0, armEntry := 0, noticeReason := 0, noticeStand := 0, noticeDev := 0, armed := [], early := [],
                        cut := none, nextOrder := 0 },
    stands := s.stands.map fun (p : Nat × Stand) => (p.1, p.2.warmKept),
    boughs := s.boughs.map fun (p : Nat × Bough) => (p.1, p.2.warmKept),
    leaves := s.leaves.map fun (p : Nat × Leaf) => (p.1, p.2.warmKept),
    latches := [] }.chooseSlot

/-- Step 4 ends: the firmware of the chosen slot, the other one, or recovery runs (R396, R397). -/
def State.warmBoot (s : State) (us : BitVec 16) : State :=
  let fail := fun (s : State) (slot : Nat) => s.onTrunk fun t => { t with fwFails := t.fwFails ++ [(slot, s.fwCheck (s.slotBytes slot))] }
  let a := s.trunk.runningSlot
  let b := s.trunk.otherSlot
  let timed := s.onTrunk fun t => { t with verifyTime := us }
  let s1 := if s.fwCheck (s.slotBytes a) = 0 then timed.startFirmware a false
    else if s.fwCheck (s.slotBytes b) = 0 then ((fail timed a).onTrunk fun t => { t with bootResult := if t.bootResult = 0 then 1 else t.bootResult }).startFirmware b false
    else (fail (fail timed a) b).startFirmware b true
  s1.onTrunk fun t => { t with warmStep := 5, confirmDue := !t.recovery }

/-- The warm reset ends: every ACTIVE leaf has had its self-check, and the block serves again. -/
def State.endWarm (s : State) (o : ResetObs) : State :=
  let s0 := s.recoverLeaves s.allLeaves
  let sc := s0.checkLeaves s0.activeLeaves o.refs o.refMon
  -- Boughs that the reset powered again are calibrated before their leaves leave zero scale (R72).
  let s1 := (if s.trunk.warmPower then sc.startCals o.meas else sc).onTrunk fun t => { t with warmBusy := false, warmStep := 0, warmPower := false }
  let s2 := s1.onAel fun a => { a with stopped := 0 }
  ((s2.record .reset uDevice { source := 0, detail := 2 + at_ (if s2.trunk.warmFell then 2 else 1) 4 + at_ s2.trunk.lastCause.toNat 8 }).storeWrite (.ring 2 (s2.ringNext 2)))

/-- The present step of a warm reset ends (R348). -/
def State.warmStepDone (s : State) (o : ResetObs) : State :=
  match s.trunk.warmStep with
  | 1 => s.warmNotice.warmDumpStep s.trunk.warmDump
  | 2 => if s.trunk.dumps.any fun d => d.kind == 2 then s else s.onTrunk fun t => { t with warmStep := 3 }
  | 3 => if s.store.busy ≠ .idle then s else (s.warmStop o).warmUnits
  | 4 => if s.slotWriteOn then s else s.warmBoot o.verifyUs
  | 5 => s.endWarm o
  | _ => s

/-- A stand reset that did not start within 1 ms, or has not ended within 200 ms, becomes a warm reset (R351). The request performs step 1, so one that has made no further progress in less than 200 ms is one that did not start. -/
def State.escalate (s : State) (i : Nat) : State :=
  let d := s.stand i
  let fresh : Bool := d.rstStep == 3 && !d.wantDump || d.rstStep == 2 && s.trunk.dumps.any fun r => r.kind == 1 && r.op == some i && r.sections.isEmpty
  if !s.inReset i ∨ d.rstStep = 0 then s
  else s.beginWarm (if fresh ∧ s.trunk.time < d.rstAt + 2000 then 6 else 5)

/-- A write of STD_RST_CTRL: the RW fields, then go (R344, R357). -/
def State.writeRstCtrl (s : State) (i : Nat) (v : Word) : State :=
  let s1 := s.onStand i fun d => { d with rstCtrl := v &&& 0x7FE0FFFF#32 }
  if bit v 31 ∧ (s.bud.power = .full ∨ s.bud.power = .entering) then s1.requestReset i 1 else s1

/-- A cold reset by a register or a management message: the block starts again at once (R349). -/
def State.selfColdReset (s : State) : State :=
  ((s.coldReset).onBud fun b => { b with perst := false }).releaseBoot s.pcie.refclkIn s.trunk.puf

end Sys2Proof.Machine
end

