-- ==== Sys2Proof/Machine/LinkOps.lean ====
section
/-! DEFINITION. Discovery, the link layer and the messages of the Aetholo links (R293 to R298, R307 to R310). -/

namespace Sys2Proof.Machine

/-- The links of the device are wired so: a manager's port of a ring, on either side, and a worker's ports 0 and 1 (R292). -/
def State.wired (s : State) (port : Nat) (sideB : Bool) : Bool :=
  (s.isManager && decide (port < 4 ∧ 0 < nth 0 s.ael.role.ringLen port)) || (s.isWorker && decide (port < 2) && !sideB)

/-- The state of a port after a change of its links (Table 13-6). -/
def Port.settle (q : Port) : Port :=
  { q with state := if q.state = .ringDisabled then .ringDisabled
      else if q.linkA.up || q.linkB.up then .up else if q.linkA.training || q.linkB.training then .training else .down }

-- Discovery (R293).

/-- Rings whose discovery has not ended. -/
def State.openRings (s : State) : List Nat :=
  (List.range 4).filter fun r => decide (0 < nth 0 s.ael.role.ringLen r) && !bit s.ael.rings r && (s.port r).state != .ringDisabled

/-- Discovery is over once every ring is enabled or disabled. -/
def State.endDiscovery (s : State) : State := if s.openRings.isEmpty then s.onAel fun a => { a with discovering := false } else s

/-- A worker takes a discovery message: it learns the ring's length, sends the message on and answers toward the manager. -/
def State.discovered (s : State) (port n : Nat) : State :=
  let p := s.ael.role.position
  let s1 := (s.onAel fun a => { a with ringN := n }).onPort 1 fun q =>
    { q with peer := if p + 1 < n then BitVec.ofNat 7 (2 + 16 * s.ael.role.ring + p) else 0 }
  let on := if port = 0 then decide (p + 1 < n) else decide (0 < p)
  let s2 := if on then s1.passOn port (.discovery n) else s1
  if port = s2.upPort then s2.sendUp (.discoveryAnswer s.ael.role.ring p s.ael.role.systemId 0) else s2

/-- A ring stays disabled (R293): discovery of it has not ended in time, or an answer is misplaced or of another system. -/
def State.disableRing (s : State) (ring : Nat) : State :=
  if s.isManager ∧ s.ael.discovering ∧ s.openRings.contains ring then
    ((s.onPort ring fun q => { q with state := .ringDisabled }).record .ringDisabled uDevice { source := 8, detail := ring }).endDiscovery
  else s

/-- The manager takes an answer: a ring whose every position has answered from its place (R292) with the manager's system_id is enabled; one that does not fit disables the ring of its port (log entry 128). -/
def State.answered (s : State) (port : Nat) (sideB : Bool) (ring pos : Nat) (sys : Word) (hops : Nat) : State :=
  let n := nth 0 s.ael.role.ringLen port
  let place := ring == port && decide (pos < n) && s.sideOf port pos == some sideB && hops == (if sideB then n - 1 - pos else pos)
  if !s.ael.discovering ∨ !s.openRings.contains port then s
  else if !place ∨ sys ≠ s.ael.role.systemId then s.disableRing port
  else
    let s1 := s.onAel fun a => { a with answers := if a.answers.contains (port, pos) then a.answers else (port, pos) :: a.answers }
    if (List.range n).all fun p => s1.ael.answers.contains (port, p) then
      (s1.onAel fun a => { a with rings := a.rings ||| BitVec.ofNat 4 (2 ^ port) }).endDiscovery
    else s1

-- Links down (R295, R298).

/-- Runs that used a link which went down end (R298, R309): every run of the ring with a worker that moved, and every broadcast of it. -/
def State.endOverLink (s : State) (ring link : Nat) (moved : List Nat) : State :=
  let dev := match moved with | d :: _ => d | [] => 1 + 16 * ring + (link - 1)
  s.ael.armed.foldl (fun (s : State) (p : Nat × Armed) =>
    let used := p.2.run.isSome && p.2.ent.op != 6 && bit p.2.ent.ringMask ring && (!moved.isEmpty || p.2.ent.op == 2 || p.2.ent.op == 4)
    if used then s.endEverywhere p.1 1 dev 0 else s) s

/-- A link of a ring is down: numbered 0 at side a to n at side b. -/
def State.breakLink (s : State) (ring link : Nat) : State :=
  if s.ael.breaks.contains (ring, link) then s
  else
    let n := s.ringLen ring
    let down := fun (l : Link) => { l with up := false, training := false, waiting := [] }
    let brk := fun (s : State) => s.onAel fun a => { a with breaks := a.breaks ++ [(ring, link)] }
    if s.isManager then
      let s1 := if link = 0 then s.onPort ring fun q => { q with linkA := down q.linkA }.settle else s
      let s2 := brk (if link = n then s1.onPort ring fun q => { q with linkB := down q.linkB }.settle else s1)
      let pos := List.range n
      let lost := pos.filter fun p => s2.sideOf ring p == none && s.sideOf ring p != none
      let moved := (pos.filter fun p => s2.sideOf ring p != none && s2.sideOf ring p != s.sideOf ring p).map fun p => 1 + 16 * ring + p
      let s3 := lost.foldl (fun (s : State) p => s.broadcastNotice (1 + 16 * ring + p) 0 3 0) s2
      (s3.endOverLink ring link moved).mgrAll
    else
      let p := s.ael.role.position
      let s1 := if link = p then s.onPort 0 fun q => { q with linkA := down q.linkA }.settle else s
      brk (if link = p + 1 then s1.onPort 1 fun q => { q with linkA := down q.linkA }.settle else s1)

/-- Number of the link at an end of this device. -/
def State.linkNo (s : State) (port : Nat) (sideB : Bool) : Nat × Nat :=
  if s.isManager then (port, if sideB then s.ringLen port else 0) else (s.ael.role.ring, s.ael.role.position + port)

-- Delivery (R297).

/-- A worker takes a SYS_RESET notice (R307). -/
def State.takeSysReset (s : State) : State := if s.isWorker then (s.relay .sysReset).beginWarm 3 else s

/-- A worker takes a PEER_NOTICE (R309). -/
def State.takeNotice (s : State) (dev stand reason : Nat) (inc : BitVec 16) : State :=
  if s.isWorker then (s.relay (.peerNotice dev stand reason inc)).applyNotice dev stand reason inc else s

/-- The manager takes a RESET_NOTICE (R309). -/
def State.takeReset (s : State) (dev stand : Nat) (warm : Bool) (inc : BitVec 16) : State :=
  if s.isManager then (s.broadcastNotice dev stand (if warm then 2 else 1) inc).mgrAll else s

/-- A message reaches this device on a port. -/
def State.deliver (s : State) (port : Nat) (sideB : Bool) (m : AelMsg) : State :=
  let up := fun (go : State → State) => if s.isManager then go s else s.passOn port m
  match m with
  | .discovery n => if s.isWorker then s.discovered port n else s
  | .discoveryAnswer r p sys h => if s.isManager then s.answered port sideB r p sys h else s.passOn port (.discoveryAnswer r p sys (h + 1))
  | .arrival dev e stand sig => up fun s => s.arrive dev e stand sig
  | .resultDone dev e => up fun s => s.confirm dev e
  | .digestFail e dev => up fun s => s.mgrDigest e dev
  | .resetNotice dev stand warm inc => up fun s => s.takeReset dev stand warm inc
  | .release e => (s.relay m).takeRelease e 0 0 0
  | .endRun e st dev stand => (s.relay m).takeRelease e st dev stand
  | .rerun e => (s.relay m).runAgain e
  | .transfer e dev inc stand u half data dig =>
    s.takeTransfer port sideB { entry := e, dev := dev, inc := inc, stand := stand, up := u, half := half, data := data, digest := dig }
  | .signal dev n toMgr =>
    -- Between two workers the manager takes it and sends it out again.
    if toMgr && !s.isManager then s.passOn port m
    else if dev = s.myDev then (s.settleQueues.signalKnot n).settleQueues
    else if s.isManager then s.sendTo dev (.signal dev n false) else s.passOn port m
  | .sysReset => s.takeSysReset
  | .peerNotice dev stand reason inc => s.takeNotice dev stand reason inc

-- The link layer (R295, R296).

/-- The CRC of a received flit holds (Table 13-1). -/
def Flit.crcOk (f : Flit) : Bool := decide (f.bytes.length = 248) && crc32c (f.bytes.take 244) == wordOf (le f.bytes 244 4)

/-- Link header of a received flit: sequence number, credit return and its channel (Table 13-1). -/
def Flit.seq (f : Flit) : BitVec 12 := BitVec.ofNat 12 (le f.bytes 0 4 / 2 ^ 20)
def Flit.creditRet (f : Flit) : Nat := le f.bytes 0 4 / 2 ^ 12 % 256
def Flit.creditVc (f : Flit) : Nat := le f.bytes 0 4 / 2 ^ 10 % 4

/-- A replay of the flit that is awaited is requested, outside the sequence and without a credit (R295, log entry 156). -/
def State.askReplay (s : State) (port : Nat) (sideB : Bool) : State :=
  let q := (s.port port).link sideB
  s.emitFlit port sideB { seq := q.txSeq, body := .replay q.rxSeq }

/-- Flits held from a sequence number on are sent again as they were (R295). -/
def State.resend (s : State) (port : Nat) (sideB : Bool) (seq : BitVec 12) : State :=
  (((s.port port).link sideB).held.filter fun f => decide ((f.seq - seq).toNat < 2048)).foldl (fun (s : State) f => s.emitFlit port sideB f) s

/-- A flit whose CRC fails is discarded and its replay requested; the eighth consecutive replay of one flit retrains the link (R295). -/
def State.badFlit (s : State) (port : Nat) (sideB : Bool) : State :=
  let q := (s.port port).link sideB
  let s1 := (s.onPort port fun p => { p with replay := satInc p.replay }).onLink port sideB fun q => { q with replays := q.replays + 1 }
  if q.replays + 1 < 8 then s1.askReplay port sideB
  else (s1.onLink port sideB fun q => { q with training := true, up := false, replays := 0, replayDue := true }).onPort port fun p => { p with retrain := satInc p.retrain }.settle

/-- A flit arrives on a link (R294 to R296): corrected, checked, taken in sequence order, its credit return noted; its own credit goes back, and a message whose last flit it is is delivered. -/
def State.takeFlit (s : State) (port : Nat) (sideB : Bool) (f : Flit) : State :=
  let q := (s.port port).link sideB
  if !q.up ∨ q.training then s
  else
    let s1 := if f.corrected then s.onPort port fun p => { p with fec := satInc p.fec } else s
    if !f.crcOk then s1.badFlit port sideB
    else match f.body with
      | .replay n => s1.resend port sideB n
      | body =>
        if f.seq ≠ q.rxSeq then s1
        else
          let own := match body with | .part m _ _ => [m.vc] | _ => []
          let s2 := s1.onLink port sideB fun q =>
            { q with rxSeq := q.rxSeq + 1, replays := 0, credits := modAt q.credits f.creditVc fun c => min (fullCredits f.creditVc) (c + f.creditRet),
                     owed := own.foldl (fun l v => modAt l v (· + 1)) q.owed }
          let s3 := s2.drainLink port sideB
          (match body with
            | .part m _ true => s3.deliver port sideB m
            | _ => s3).returnOwed port sideB

/-- A training link comes up: a replay that is due is requested, what waits is sent, and a manager in discovery sends its message. -/
def State.linkUp (s : State) (port : Nat) (sideB : Bool) : State :=
  let q := (s.port port).link sideB
  if !q.training then s
  else
    let s1 := (s.onLink port sideB fun q => { q with training := false, up := true, replays := 0, replayDue := false }).onPort port Port.settle
    let s2 := (if q.replayDue then s1.askReplay port sideB else s1).drainLink port sideB
    if s.isManager ∧ s.ael.discovering ∧ s.openRings.contains port then s2.portSend port sideB (.discovery (nth 0 s.ael.role.ringLen port)) else s2

end Sys2Proof.Machine
end

