-- ==== Sys2Proof/Machine/Aetholo.lean ====
section
/-! DEFINITION. Meanings of the Aetholo link events and of discovery (chapter 13). -/

namespace Sys2Proof.Machine

/-- The Aetholo ports take traffic: the trunk runs and no warm reset is under way (R307, R310). -/
def State.aelLive (s : State) : Bool := s.trunk.fwRunning && !s.trunk.warmBusy

/-- DISCOVERY_MESSAGE (R293): a discovery message at a worker, or an answer at the manager. -/
def execDiscoveryMessage (port : Nat) (sideB : Bool) (m : AelMsg) (s : State) : Res :=
  ok (if !s.aelLive ∨ !s.wired port sideB then s
    else match m with
      | .discovery _ | .discoveryAnswer _ _ _ _ => s.deliver port sideB m
      | _ => s)

/-- DISCOVERY_TIMEOUT (R293). -/
def execDiscoveryTimeout (ring : Nat) (s : State) : Res := ok (if s.aelLive then s.disableRing ring else s)

/-- AETHOLO_FLIT_RECEIVE (R294 to R297). -/
def execAetholoFlitReceive (port : Nat) (sideB : Bool) (f : Flit) (s : State) : Res :=
  ok (if s.aelLive ∧ s.wired port sideB then s.takeFlit port sideB f else s)

/-- LINK_RETRAIN_DONE (R295). -/
def execLinkRetrainDone (port : Nat) (sideB : Bool) (s : State) : Res := ok (if s.wired port sideB then s.linkUp port sideB else s)

/-- LINK_RETRAIN_TIMEOUT (R295): the link is down. -/
def execLinkRetrainTimeout (port : Nat) (sideB : Bool) (s : State) : Res :=
  ok (if s.wired port sideB ∧ ((s.port port).link sideB).training then
      (s.onLink port sideB fun q => { q with training := false, up := false, waiting := [] }).onPort port Port.settle |>.breakLink
        (s.linkNo port sideB).1 (s.linkNo port sideB).2
    else s)

/-- LINK_DOWN (R298): link `link` of the ring of manager port `port`, or of a worker's own ring. -/
def execLinkDown (port link : Nat) (s : State) : Res :=
  ok (if s.isManager ∧ port < 4 ∧ link ≤ s.ringLen port ∧ 0 < s.ringLen port then s.breakLink port link
    else if s.isWorker ∧ link ≤ 16 then s.breakLink s.ael.role.ring link else s)

end Sys2Proof.Machine
end

