-- ==== Sys2Proof/Machine/Calibration.lean ====
section
/-! DEFINITION. Meanings of the calibration events and of CALIBRATE (chapter 03). -/

namespace Sys2Proof.Machine

/-- A leaf works with the trunk: its bough is enabled, awake and outside a reset. -/
def State.leafLive (s : State) (b l : Nat) : Bool := s.enabled b && decide (l < 18) && s.awake && s.trunk.fwRunning && !s.inReset (standOf b)

/-- REF_DRIFT_BLOCK_END (R78). -/
def execRefDriftBlockEnd (b l : Nat) (s : State) : Res := ok (if s.leafLive b l then s.endDriftBlock (leafNo b l) else s)

/-- A deferred trigger's condition still holds (R78, Table 3-5). -/
def State.triggerHolds (s : State) (k : Nat) (cause : CalCause) : Bool :=
  let l := s.leaf k
  let load := s.bud.loadPct.toNat
  match cause.toNat with
  | 2 => l.tempTrigger load (smGet 0 s.bud.temps (k / 18))
  -- The mean of the last finished block, against the slot nearest to the present load.
  | 3 => l.driftTrigger l.driftLast load
  | 4 => (List.range 3).any fun p => l.emptyNear load p && decide (2 ≤ nth 0 l.emptyRun p)
  | _ => false

/-- RECAL_SPACING_END (R78). -/
def execRecalSpacingEnd (b l : Nat) (s : State) : Res :=
  let k := leafNo b l
  let f := s.leaf k
  ok (if !s.leafLive b l ∨ !f.spacing then s
    else
      let s1 := s.onLeaf k fun l => { l with spacing := false, deferred := [] }
      match f.deferred.find? (s.triggerHolds k) with
      | some c => if f.role = .active then s1.trigger k c.toNat else s1
      | none => s1)

/-- CAL_MEASUREMENT_DONE (R75): trims are formed, and the groups of columns that cannot be trimmed are fenced until those columns are remapped at the next programming (R49). The last phase is not driven between the two phases of a vector (R34). L_now of the last phase is the measurement's load (DESIGN CHOICE, log entry 147). -/
def execCalMeasurementDone (b l : Nat) (o : MeasObs) (s : State) : Res :=
  let k := leafNo b l
  let f := s.leaf k
  ok (match f.meas with
    | some m =>
      if !s.leafLive b l ∨ m.done ∨ m.suspended ∨ f.midVector then s
      else if f.role ≠ .active then s.dropMeas k 2
      else
        let (ms, bad) := f.measure f.width f.remap m.cause s.bud.loadPct.toNat o
        ((s.onLeaf k fun l => { l with meas := some { ms with gen := m.gen, auto := m.auto, ops := m.ops } }).measPhases k o).fenceColumns k bad 11
    | none => s)

/-- CAL_COMMIT (R68): a finished measurement of an ACTIVE leaf enters its slot; CALIBRATE's leaf is DONE, and SKIPPED_ROLE where it has left ACTIVE (R80). -/
def execCalCommit (b l : Nat) (s : State) : Res :=
  let k := leafNo b l
  ok (match (s.leaf k).meas with
    | some m =>
      if !s.leafLive b l ∨ !m.done ∨ m.suspended then s
      else if (s.leaf k).role ≠ .active then s.dropMeas k 2
      else (s.calibEnd k 0).commitMeas k m (slotOfLoad m.load)
    | none => s)

/-- Physical leaves of a unit code's scope on enabled boughs; none where it names a disabled bough. -/
def State.scopeLeaves (s : State) (u : Nat × Nat × Nat × Nat) : Option (List Nat) :=
  let (d, st, bo, l) := u
  let b := 4 * st + bo
  match d with
  | 0 => some (s.allBoughs.flatMap leavesOf)
  | 1 => some ((s.boughsOf st).flatMap leavesOf)
  | 2 => if s.enabled b then some (leavesOf b) else none
  | _ => if s.enabled b then some [leafNo b l] else none

/-- CALIBRATE (R79, R80). -/
def execCalibrate (q : Nat) (s : State) : Res :=
  ok (s.serveCommand q 3 2 [(0, 4), (4, 1), (6, 2)] fun t s =>
    let sel := le t.args 4 1
    match (parseUnit (le t.args 0 4)).bind s.scopeLeaves with
    | none => s.refuseCommand q t 1 0
    | some ls =>
      if 3 < sel then s.refuseCommand q t 1 0
      else
        let c : CalibOp := { leaves := ls, sel := sel, timeoutMs := clampN 1 1000 (le t.args 6 2) }
        let (s1, h) := (s.popCommand q).acceptOp q t (s.queue q).sqHead (.calib c)
        s1.calibTurn h)

/-- CALIBRATE_LOAD_TIMEOUT (R79): leaves whose load never came into the band end LOAD_NOT_REACHED. -/
def execCalibrateLoadTimeout (h : Nat) (s : State) : Res :=
  ok (match s.op h with
    | some { body := .calib c, suspended := false, .. } =>
      if c.sel = 0 ∨ !s.trunk.fwRunning then s
      else (s.onOp h fun o => match o.body with | .calib c => { o with body := .calib { c with timedOut := true } } | _ => o).calibTurn h
    | _ => s)

end Sys2Proof.Machine
end

