-- ==== Sys2Proof/Machine/Cambium.lean ====
section
/-! DEFINITION. Accumulator and cambium operations at issue (Tables 7-3 and 7-14). -/

namespace Sys2Proof.Machine

/-- COMBINE3 (R429). -/
def execCombine3 (b : Nat) (s : State) : Res := ok (s.issueIf b (fun w => w.opcode == 0x04) (opCombine3 b))

/-- RESCALE (R130, R131, R240). -/
def execRescale (b : Nat) (s : State) : Res := ok (s.issueIf b (fun w => w.opcode == 0x05) (opRescale b))

/-- TABLE (R164). -/
def execTable (b : Nat) (s : State) : Res := ok (s.issueIf b (fun w => w.opcode == 0x06) (opTable b))

/-- CVT (R427). -/
def execCvt (b : Nat) (s : State) : Res := ok (s.issueIf b (fun w => w.opcode == 0x07) (opCvt b))

/-- ADD: in + aux (R166). -/
def execAdd (b : Nat) (s : State) : Res := ok (s.issueIf b (fun w => w.isVec 0x00) (opVec b))

/-- SUB: in − aux (R166). -/
def execSub (b : Nat) (s : State) : Res := ok (s.issueIf b (fun w => w.isVec 0x01) (opVec b))

/-- MUL: in × aux (R166). -/
def execMul (b : Nat) (s : State) : Res := ok (s.issueIf b (fun w => w.isVec 0x02) (opVec b))

/-- FMA: in × aux + out (R166). -/
def execFma (b : Nat) (s : State) : Res := ok (s.issueIf b (fun w => w.isVec 0x03) (opVec b))

/-- MIN: the smaller (R166). -/
def execVmin (b : Nat) (s : State) : Res := ok (s.issueIf b (fun w => w.isVec 0x04) (opVec b))

/-- MAX: the larger (R166). -/
def execVmax (b : Nat) (s : State) : Res := ok (s.issueIf b (fun w => w.isVec 0x05) (opVec b))

/-- ABS (R166). -/
def execVabs (b : Nat) (s : State) : Res := ok (s.issueIf b (fun w => w.isVec 0x06) (opVec b))

/-- SELECT: in where in ≥ aux, else aux (R166). -/
def execSelect (b : Nat) (s : State) : Res := ok (s.issueIf b (fun w => w.isVec 0x07) (opVec b))

/-- SHL: left shift, saturated (R166). -/
def execShl (b : Nat) (s : State) : Res := ok (s.issueIf b (fun w => w.isVec 0x08) (opVec b))

/-- SHR: rounded right shift (R129). -/
def execShr (b : Nat) (s : State) : Res := ok (s.issueIf b (fun w => w.isVec 0x09) (opVec b))

/-- CMUL: complex product into INT32 pairs (R166). -/
def execCmul (b : Nat) (s : State) : Res := ok (s.issueIf b (fun w => w.isVec 0x0A) (opVec b))

/-- CMULC: product with the conjugate of aux (R166). -/
def execCmulc (b : Nat) (s : State) : Res := ok (s.issueIf b (fun w => w.isVec 0x0B) (opVec b))

/-- SUM of an iteration in fixed order (R166). -/
def execVsum (b : Nat) (s : State) : Res := ok (s.issueIf b (fun w => w.isVec 0x0C) (opVec b))

/-- RMAX: largest of an iteration (R166). -/
def execRmax (b : Nat) (s : State) : Res := ok (s.issueIf b (fun w => w.isVec 0x0D) (opVec b))

/-- MAC: out + in × aux into INT32 (R166). -/
def execMac (b : Nat) (s : State) : Res := ok (s.issueIf b (fun w => w.isVec 0x0E) (opVec b))

/-- CONE: Cone4 products (R156, R157). -/
def execCone (b : Nat) (s : State) : Res := ok (s.issueIf b (fun w => w.opcode == 0x09) (opCone b))

end Sys2Proof.Machine
end

