-- ==== Sys2Proof/Machine/Collectives.lean ====
section
/-! DEFINITION. Meanings of arming, of the messages and the end of collective runs, and of the notices (chapter 13). -/

namespace Sys2Proof.Machine

/-- AEL_COLL_ARM with ARM (R300, R312, R347). -/
def execCollArm (e : Nat) (s : State) : Res :=
  ok (if !s.regLive ∨ s.ael.armBusy ∨ 4096 ≤ e then s
    else if s.tableHeld e then s.onAel fun a => { a with armBusy := true, armOp := 1, armEntry := e }
    else s.armEntry e)

/-- AEL_COLL_ARM with DISARM (R300, R312). -/
def execCollDisarm (e : Nat) (s : State) : Res := ok (if !s.regLive ∨ s.ael.armBusy ∨ 4096 ≤ e then s else s.disarmEntry e)

/-- COLLECTIVE_TRANSFER (R301 to R305, R309). -/
def execCollectiveTransfer (port : Nat) (sideB : Bool) (x : Xfer) (s : State) : Res :=
  ok (if s.aelLive ∧ s.wired port sideB then s.takeTransfer port sideB x else s)

/-- COLLECTIVE_ARRIVAL (R299, R301, R306): `sig` holds the shared fields of the worker's entry. -/
def execCollectiveArrival (dev e stand : Nat) (sig : List Byte) (s : State) : Res := ok (if s.aelLive then s.arrive dev e stand sig else s)

/-- COLLECTIVE_RELEASE (R301, R306): a release, or with a failure code the manager's order to end the run. -/
def execCollectiveRelease (e : Nat) (status : Byte) (dev stand : Nat) (s : State) : Res :=
  ok (if s.aelLive then (s.relay (if status = 0 then .release e else .endRun e status dev stand)).takeRelease e status dev stand else s)

/-- COLLECTIVE_RUN_END (R303). -/
def execCollectiveRunEnd (e : Nat) (s : State) : Res := ok (if s.aelLive then s.settleQueues.endCollRun e else s)

/-- AETHOLO_KNOT_SIGNAL (R301). -/
def execAetholoKnotSignal (knot : Nat) (s : State) : Res :=
  ok (if s.aelLive ∧ s.hasRole ∧ knot < 65536 then (s.settleQueues.signalKnot knot).settleQueues else s)

/-- AEL_SYS_RESET (R307): ignored on a worker or a standalone device. -/
def execAelSysReset (v : Word) (s : State) : Res :=
  ok (if s.regLive ∧ s.isManager ∧ bit v 0 then (s.sendAll .sysReset).beginWarm 3 else s)

/-- SYS_RESET_NOTICE (R307). -/
def execSysResetNotice (s : State) : Res := ok (if s.aelLive then s.takeSysReset else s)

/-- RESET_NOTICE (R309). -/
def execResetNotice (dev stand : Nat) (warm : Bool) (inc : BitVec 16) (s : State) : Res :=
  ok (if s.aelLive then s.takeReset dev stand warm inc else s)

/-- PEER_NOTICE (R309, R310). -/
def execPeerNotice (dev stand reason : Nat) (inc : BitVec 16) (s : State) : Res :=
  ok (if s.aelLive then s.takeNotice dev stand reason inc else s)

end Sys2Proof.Machine
end

