-- ==== Sys2Proof/Machine/Dumps.lean ====
section
/-! DEFINITION. Meanings of DUMP and of the dump engine's events (chapter 15). -/

namespace Sys2Proof.Machine

/-- DUMP_UNIT_TIMEOUT (R352): the unit is UNREACHABLE; a controller of a stand being reset puts it on the fallback path (R345). -/
def execDumpUnitTimeout (s : State) : Res :=
  ok (match s.trunk.dumps with
    | { kind := 1, op := some i, left := .hbm _ :: _, .. } :: _ => (s.onStand i fun d => { d with fallback := true }).dumpSection 1 20 []
    | _ => s.dumpSection 1 20 [])

/-- DUMP (R352, R353). -/
def execDump (q : Nat) (s : State) : Res :=
  ok (s.serveCommand q 6 2 [(0, 1), (8, 8), (16, 4)] fun t s =>
    let mask := le t.args 0 1
    let dest := decodeAddr (le t.args 8 8)
    let size := le t.args 16 4
    let shaped : Bool := match dest with
      | .hbm o => o % 64 == 0 && decide (o + size ≤ hbmSize)
      | .host o => o % 64 == 0 && decide (o + size ≤ 2 ^ 60)
      | _ => false
    if 15 < mask ∨ !shaped then s.refuseCommand q t 1 0
    else if size < 64 then s.refuseCommand q t 3 0
    else if !s.dumpTakes false dest size then s.refuseCommand q t 4 0
    else
      let (s1, h) := (s.popCommand q).acceptOp q t (s.queue q).sqHead .dump
      let m := BitVec.ofNat 4 mask
      s1.onTrunk fun x => { x with dumps := x.dumps ++ [{ kind := 0, mask := m, op := some h, dest := dest, size := size, left := s1.dumpUnits m }] })

/-- DUMP_UNIT_READ (R352): the next unit's section is written, with the read time and the payload read. -/
def execDumpUnitRead (us : Word) (payload : List Byte) (s : State) : Res := ok (s.dumpSection 0 us.toNat payload)

end Sys2Proof.Machine
end

