-- ==== Sys2Proof/Machine/FieldTest.lean ====
section
/-! DEFINITION. Meanings of the in-field test events and of FIELD_TEST (chapter 14). -/

namespace Sys2Proof.Machine

/-- LEAF_TEST_DUE (R332, R333): skipped unless the leaf is ACTIVE. -/
def execLeafTestDue (b l : Nat) (s : State) : Res :=
  let k := leafNo b l
  let f := s.leaf k
  ok (if s.leafLive b l ∧ s.trunk.sched.leafInterval ≠ 0 ∧ f.role = .active ∧ !f.draining then
      s.onLeaf k fun l => { l with testDue := true, testRunning := l.meas.isNone && decide (s.bud.power = .full) }
    else s)

/-- LEAF_PART_DONE (R330, R334): the part ends after any measurement of the leaf. -/
def execLeafPartDone (b l : Nat) (o : LeafPartObs) (s : State) : Res :=
  let k := leafNo b l
  let f := s.leaf k
  let measuring : Bool := match f.meas with | some m => !m.done && !m.suspended | none => false
  ok (if !s.leafLive b l then s
    else if s.testHeld fun f => f.leafParts.contains k || f.unfenceLeaves.contains k then s
    else if s.unfencing k then s.unfenceLeaf k o
    else if f.role = .active ∧ !f.draining ∧ (f.testRunning ∨ (f.testDue ∧ s.bud.power = .full)) ∧ !measuring ∧ !f.midVector then s.leafPart k o
    else s)

/-- LOGIC_TEST_DUE (R332). -/
def execLogicTestDue (b : Nat) (s : State) : Res :=
  ok (if s.usable b ∧ s.trunk.fwRunning ∧ s.trunk.sched.logicInterval ≠ 0 then (s.onBough b fun x => { x with logicDue := true }).settleTests else s)

/-- TEST_DEFERRAL_LIMIT (R332): the pair stops at its next layer boundaries; a quiesce is not interrupted (Table 14-4). -/
def execTestDeferralLimit (b : Nat) (s : State) : Res :=
  ok (match s.partnerOf b with
    | some p =>
      if !(s.bough b).logicDue ∨ (s.bough b).logicRunning ∨ !s.trunk.fwRunning ∨ s.bud.power ≠ .full ∨ s.standQuiet (standOf b) ∨ s.standQuiet (standOf p) then s
      else ((s.onBough b fun x => { x with logicStop := true }).onBough p fun x => { x with logicStop := true }).settleTests
    | none => s)

/-- LOGIC_PART_DONE (R331). -/
def execLogicPartDone (b : Nat) (d1 d2 d3 : DWord) (s : State) : Res :=
  let x := s.bough b
  ok (if s.trunk.fwRunning ∧ x.logicRunning ∧ x.logicDue ∧ (s.bough x.logicPartner).logicRunning then s.logicPart b d1 d2 d3 else s)

/-- FULL_VERIFY_DONE (R335). -/
def execFullVerifyDone (b l : Nat) (levels : SMap Nat) (s : State) : Res :=
  let k := leafNo b l
  ok (if s.leafLive b l ∧ (s.leaf k).verifyRunning then s.fullVerify k levels else s)

/-- The scope of a FIELD_TEST names a fenced unit itself (R334). -/
def State.fencedScope (s : State) (u : Nat × Nat × Nat × Nat) : Bool :=
  let (d, st, bo, l) := u
  let b := 4 * st + bo
  match d with
  | 0 => false
  | 1 => (s.stand st).fenced
  | 2 => (s.bough b).fenced
  | _ => (s.leaf (leafNo b l)).role == Role.fenced

/-- The target checks of R334: scope and flags, none when they fail. -/
def State.ftestTarget (s : State) (t : TaskRec) : Option ((Nat × Nat × Nat × Nat) × Nat) :=
  let fl := le t.args 4 4
  match parseUnit (le t.args 0 4) with
  | none => none
  | some u =>
    let on := fl % 256
    if (s.scopeLeaves u).isNone ∨ on / 64 ≠ 0 ∨ on &&& 0x37 = 0 ∨ (on.testBit 4 ∧ (u.1 ≠ 0 ∨ on &&& 0x2F ≠ 0)) ∨ (!on.testBit 2 ∧ s.fencedScope u) then none
    else some (u, fl)

/-- Boughs that a scope holds. -/
def State.scopeBoughs (s : State) (u : Nat × Nat × Nat × Nat) : List Nat :=
  match u.1 with
  | 0 => s.allBoughs
  | 1 => s.boughsOf u.2.1
  | 2 => [4 * u.2.1 + u.2.2.1]
  | _ => []

/-- The head of a command queue is a FIELD_TEST record with (or without) the schedule flag. -/
def State.ftestHead (s : State) (q : Nat) (sched : Bool) : Bool :=
  match s.headRec q with
  | some bs => (parseTask bs).program != 4 || (le bs 68 4).testBit 4 == sched
  | none => true

/-- FIELD_TEST without the schedule flag (R334). -/
def execFieldTest (q : Nat) (s : State) : Res :=
  ok (if !s.ftestHead q false then s
    else s.serveCommand q 4 2 [(0, 4), (4, 4)] fun t s =>
      match s.ftestTarget t with
      | none => s.refuseCommand q t 1 0
      | some (u, fl) =>
        let leaves := (s.scopeLeaves u).getD []
        let boughs := s.scopeBoughs u
        let plain := leaves.filter fun k => !(s.bough (k / 18)).fenced && (s.leaf k).role != Role.fenced
        let f : FTestOp :=
          { flags := wordOf fl,
            leafParts := if fl.testBit 0 then plain else [],
            verifies := if fl.testBit 5 then plain.filter (fun k => (s.leaf k).record.state == RecState.programmed) else [],
            logicParts := if fl.testBit 1 then boughs.filter s.usable else [],
            unfenceLeaves := if fl.testBit 2 then leaves.filter (fun k => (s.leaf k).role == Role.fenced) else [],
            unfenceBoughs := if fl.testBit 2 then boughs.filter (fun b => (s.bough b).fenced) else [] }
        ((s.popCommand q).acceptOp q t (s.queue q).sqHead (.ftest f)).1.ftestTurn)

/-- FIELD_TEST with the schedule flag (R334, Table 14-5). -/
def execFieldTestSchedule (q : Nat) (s : State) : Res :=
  ok (if !s.ftestHead q true then s
    else s.serveCommand q 4 2 [(0, 4), (4, 4)] fun t s =>
      match s.ftestTarget t with
      | none => s.refuseCommand q t 1 0
      | some (_, fl) =>
        let c : Sched := { leafInterval := byteOf (fl / 2 ^ 16), logicInterval := byteOf (fl / 2 ^ 24), slotDefer := byteOf (clampN 5 100 (fl / 256 % 256)) }
        (s.onTrunk fun x => { x with sched := c }).refuseCommand q t 0 0)

end Sys2Proof.Machine
end

