-- ==== Sys2Proof/Machine/HostOps.lean ====
section
/-! DEFINITION. Accesses of the host: BAR2, failed and completed device requests, function resets and configuration (chapter 12). -/

namespace Sys2Proof.Machine

-- BAR2 (R284, R365, R366).

/-- The flag of R284, as the range of a stand in reset or fenced for its HBM gives it (R328), that a BAR2 access to `n` bytes at `a` sets, none where it reaches HBM. -/
def State.bar2Flag (s : State) (a n : Nat) : Option Nat :=
  let stands := [hbmStand a, hbmStand (a + n - 1)]
  let shut := fun (i : Nat) => s.inReset i || (s.stand i).hbmFenced
  if hbmSize < a + n then some 2
  else if s.trunk.warmBusy || stands.any shut || s.bud.power == .dormant || (s.bud.power == .entering && decide (5 ≤ s.bud.entryStep)) then some 3
  else none

/-- A BAR2 read (R284): an uncorrectable error in any 64-byte word that it touches poisons it. A read of no byte completes with none. -/
def State.readBar2 (s : State) (a n : Nat) : State :=
  if n = 0 then s.emit (.readData [] false)
  else match s.bar2Flag a n with
  | some k => (s.pciError k 0 a).emit (.readData (List.replicate n 0) false)
  | none =>
    match s.firstUe (a / 64 * 64) ((a + n - 1) / 64 * 64 + 64 - a / 64 * 64) with
    | some u => ((s.reportUe u).pciError 4 0 a).emit (.readData (s.hbmBytes a n) true)
    | none => s.emit (.readData (s.hbmBytes a n) false)

/-- A write of the enabled bytes of a string, by read-modify-write (R284, R318). -/
def State.maskedWrite (s : State) (a : Nat) (bytes : List (Option Byte)) : State :=
  let on := fun (i : Nat) => match bytes[i]? with | some (some _) => true | _ => false
  let whole := fun (w : Nat) => decide (a ≤ 8 * w) && (List.range 8).all fun i => on (8 * w + i - a)
  let hit := fun (w : Nat) => (List.range 8).any fun i => decide (a ≤ 8 * w + i) && on (8 * w + i - a)
  let part := s.hbmBad.filter fun w => hit w && !whole w
  let s1 := { s with hbm := memPutSome s.hbm a bytes, hbmBad := s.hbmBad.filter fun w => !whole w }
  part.foldl (fun (s : State) w => s.reportUe (8 * w)) s1

/-- A BAR2 write (R284). -/
def State.writeBar2 (s : State) (a : Nat) (bytes : List (Option Byte)) : State :=
  match s.bar2Flag a bytes.length with
  | some k => s.pciError k 0 a
  | none => s.maskedWrite a bytes

/-- A held access is made. -/
def HeldAcc.run (h : HeldAcc) (s : State) : State :=
  match h with
  | .read a n => s.readBar2 a n
  | .write a bs => s.writeBar2 a bs
  | .signal n => (s.settleQueues.signalKnot n).settleQueues

/-- A BAR2 access: made at once, or held for the wake that it causes (Table 16-5). -/
def State.accessBar2 (s : State) (h : HeldAcc) : State :=
  let asleep := s.bud.power == .dormant || s.bud.power == .waking || (s.bud.power == .entering && decide (5 ≤ s.bud.entryStep))
  let hold := fun (s : State) => s.onPcie fun p => { p with heldAcc := p.heldAcc ++ [h] }
  if s.bud.power = .waking then hold s
  else if asleep then (if bit s.bud.wakeEn 1 then hold (s.wakeEvent .bar2) else h.run s)
  else h.run (s.wakeEvent .bar2)

/-- Held accesses are made in order. -/
def State.runHeld (s : State) : State :=
  s.pcie.heldAcc.foldl (fun (s : State) h => h.run s) (s.onPcie fun p => { p with heldAcc := [] })

-- Device requests (R287, R288).

/-- The oldest read of bough `b` whose requests to host memory are issued. -/
def State.hostRead? (s : State) (b : Nat) : Option PendRead := (s.bough b).reads.find? (·.asked)

/-- Function of the task whose read this is. -/
def State.readFn (s : State) (b : Nat) (r : PendRead) : Nat := match (s.bough b).find r.task with | some t => t.function | none => 0

/-- A failed device request is counted, and reported through AER of the physical function (R288, Table 12-1). -/
def State.dmaFailed (s : State) (fn addr : Nat) : State :=
  ((s.onPcie fun p => { p with dmaErr := satInc p.dmaErr, cfg := { p.cfg with aer := true } }).pciError 6 fn addr).emit (.aer fn addr)

/-- A device request to host memory fails (R288). -/
def State.failRequest (s : State) (t : DmaTarget) (addr : Nat) : State :=
  match t with
  | .ring q =>
    let r := s.queue q
    if !r.reading then s
    else ((s.onQueue q fun r => { r with reading := false }).haltQueue q 3).dmaFailed r.desc.function addr
  | .fetch b =>
    match s.hostRead? b with
    | none => s
    | some r =>
      (s.dmaFailed (s.readFn b r) addr).onBough b fun x =>
        { (x.failEpoch r.epoch (.descriptor (addr % 2 ^ 32))).opDone r.epoch with reads := x.reads.erase r }
  -- Run-time values and pointer lists lie in sapwood or HBM (R207): none is read from host memory.
  | .ptr _ => s

/-- Data of a host read arrives (R287). -/
def State.completeRequest (s : State) (t : DmaTarget) (data : List Byte) : State :=
  match t with
  | .ring q => if (s.queue q).reading then (s.onQueue q fun r => { r with reading := false, fetched := some (sub data 0 recBytes) }).flushOn q else s
  | .fetch b => match s.hostRead? b with
    | some r => s.landRead b r (sub data 0 r.len) fun _ _ => none
    | none => s
  | .ptr _ => s

-- Function resets (R280).

/-- A Function Level Reset of virtual function `v`: its queues halt and discard, its configuration returns to reset values. -/
def State.resetVf (s : State) (v : Nat) : State :=
  let mine := (s.que.queues.filter fun (p : Nat × QRun) => p.2.enabled && p.2.desc.function == v).map (·.1)
  let s1 := mine.foldl (fun (s : State) q => (s.haltQueue q 0x0F).onQueue q fun r => { r with flr := true, pendingDb := none }) s
  let s2 := s1.allBoughs.foldl (fun (s : State) b => s.onBough b fun x =>
    let hit := fun (t : Task) => if t.function = v then { t with discard := true } else t
    { x with task := x.task.map hit, waiting := x.waiting.map hit, ending := x.ending.map hit, yielded := x.yielded.map fun y => { y with task := hit y.task } }) s1
  let s3 := s2.onPcie fun p => { p with funcs := smErase p.funcs v }
  s3.onPcie fun p => { p with vfFlr := p.vfFlr ||| wordOf (2 ^ v) }

/-- The last discarded task of a function has ended: the function's bit clears, and an ENABLE that waited takes effect. -/
def State.endVfFlr (s : State) (v : Nat) : State :=
  if !bit s.pcie.vfFlr v ∨ s.tasks.any (fun t => t.discard && t.function == v) then s
  else
    let s1 := s.onPcie fun p => { p with vfFlr := p.vfFlr &&& ~~~wordOf (2 ^ v) }
    -- Its queues are gone from the engine; software enables them anew.
    let s2 := s1.onQue fun x =>
      { x with queues := x.queues.map fun (p : Nat × QRun) => (p.1, if p.2.flr && p.2.desc.function == v then { p.2.turnOff with flr := false } else p.2) }
    s2.retryEnable.settleQueues

end Sys2Proof.Machine
end

