-- ==== Sys2Proof/Machine/PowerOps.lean ====
section
/-! DEFINITION. Power states, clock islands, the governor and thermal control (chapter 16). -/

namespace Sys2Proof.Machine

-- Requests for Dormant (R361, R362, Table 16-3).

/-- Unit code of leaf `k`. -/
def leafCode (k : Nat) : Word := unitCode 3 (k / 72) (k / 18 % 4) (k % 18)

/-- First row of Table 16-3 that a request meets: reason and unit. -/
def State.refusal (s : State) : Option (Nat × Word) :=
  let reset := (List.range 4).find? fun i => decide ((s.stand i).rstState ≠ .normal)
  let busyLeaf := s.allLeaves.find? fun k =>
    (s.leaf k).role == Role.programming || (s.leaf k).draining || s.trunk.progs.any fun p => p.2.step == 10 && p.2.leaf == some k
  if !s.trunk.ops.isEmpty then some (1, 0)
  else match reset, busyLeaf with
    | some i, _ => some (2, unitCode 1 i 0 0)
    | none, leaf =>
      if s.trunk.warmBusy then some (2, 0)
      else match leaf with
        | some k => some (3, leafCode k)
        | none =>
          if s.ael.collEn then some (4, 0)
          else if s.trunk.debugActive then some (5, 0)
          else if s.bud.power ≠ .full then some (6, 0) else none

/-- A request for Dormant: refused with its reason, or entry begins. `target` is what step 5 writes to BUD_PWR_MODE. -/
def State.requestDormant (s : State) (target : Nat) : State :=
  match s.refusal with
  | some (r, u) =>
    (s.onBud fun b => { b with refused := satInc b.refused, reasonAborted := false, reason := BitVec.ofNat 4 r, refuseUnit := u }).record .pwrRefused uDevice
      { detail := r, detail2 := u.toNat }
  | none => s.onBud fun b => { b with power := .entering, entryStep := 1, entryTarget := target, wakeOther := 0 }

-- Entry (R363, Table 16-4).

/-- Step 2 is complete: no task in flight, no test part running, the store idle. -/
def State.quiet (s : State) : Bool :=
  s.tasks.isEmpty && s.storeIdle && (s.allBoughs.all fun b => !(s.bough b).logicRunning) && s.allLeaves.all fun k => !(s.leaf k).testRunning && !(s.leaf k).verifyRunning

/-- Step 3 is complete: every bough is drained. -/
def State.drainedAll (s : State) : Bool := s.allBoughs.all fun b => (s.bough b).epochs.isEmpty && (s.bough b).held.isEmpty

/-- A leaf without its bough's power in Dormant: its calibration is lost, its configuration stays with the trunk. -/
def Leaf.dormant (l : Leaf) : Leaf :=
  { l.warmKept with cal := [{}, {}, {}], role := l.role, slot := l.slot, width := l.width, remap := l.remap, groupFence := l.groupFence }

/-- A bough whose rail is off keeps its fence, its clock setting and its count of retired epochs. -/
def Bough.dormant (x : Bough) : Bough := { fenced := x.fenced, fenceCause := x.fenceCause, freqMhz := x.freqMhz, newFreq := x.newFreq, retireCnt := x.retireCnt, logicDue := x.logicDue }

/-- Step 6: the islands are off. -/
def State.islandsOff (s : State) : State :=
  let s1 : State :=
    { s with boughs := s.boughs.map fun (p : Nat × Bough) => (p.1, p.2.dormant), leaves := s.leaves.map fun (p : Nat × Leaf) => (p.1, p.2.dormant) }
  let s2 := (List.range 4).foldl (fun (s : State) i => s.onStand i fun d => { d with schedStopped := true, routerStopped := true }) s1
  let s3 := s2.onBud fun b => { b with power := .dormant, entryStep := 0, dormantCnt := satInc b.dormantCnt, edgeStopped := true }
  let first := (List.range 4).find? fun i => bit s.bud.wakeLatch i
  match first with
  | some i => s3.beginWake (i + 1)
  | none => if s.bud.wakeOther ≠ 0 then s3.beginWake s.bud.wakeOther else s3

/-- The present step of an entry ends. -/
def State.entryStep (s : State) : State :=
  let goTo := fun (n : Nat) => s.onBud fun b => { b with entryStep := n }
  match s.bud.entryStep with
  | 1 => goTo 2
  | 2 => if s.quiet then goTo 3 else s
  | 3 => if s.drainedAll then goTo 4 else s
  | 4 => goTo 5
  | 5 => (goTo 6).onBud fun b => { b with pwrMode := BitVec.ofNat 2 b.entryTarget }
  | 6 => s.islandsOff
  | _ => s

/-- Bare is entered: every island that Table 16-1 marks unpowered loses its state; the bud's registers stay (R361). -/
def State.enterBare (s : State) : State :=
  let c := s.coldReset
  { c with bud := { s.bud with power := .bare, bareCnt := satInc s.bud.bareCnt, pwrMode := 2, edgeStopped := true, syncLatched := false },
           pcie := { c.pcie with linkState := 4, d3hot := true, pmeEnable := s.pcie.pmeEnable, pmeStatus := s.pcie.pmeStatus } }

-- The cap (R372).

/-- The cap that the register's value asks for. -/
def Bud.cap (b : Bud) : Nat := clampN 25 90 b.capW.toNat

/-- The written cap takes effect, and slot loads are rescaled. -/
def State.applyCap (s : State) : State :=
  let old := s.bud.capNow
  let new := s.bud.cap
  if old = new then s
  else
    let scale := fun (c : CalSlot) =>
      if !c.valid then c
      else
        let l := (rhe (nr (c.load * old) / nr new)).toNat
        if 100 < l then { c with valid := false } else { c with load := l }
    { s with bud := { s.bud with capNow := new, capRecorded := false },
             leaves := s.leaves.map fun (p : Nat × Leaf) => (p.1, { p.2 with cal := p.2.cal.map scale }) }

-- The wake (R367, Table 16-6).

/-- Bough logic is out of reset: markers are read, and table slots, thresholds, range shifts and routes come back from the trunk's copy. -/
def State.restoreBoughs (s : State) : State :=
  let s1 := s.allLeaves.foldl (fun (s : State) k => (s.onLeaf k fun l => l.configure l.record (s.factoryCodes k) (s.mapSlot k)).markInvalid k) s
  (List.range 4).foldl (fun (s : State) i =>
    match (s.stand i).canopy with
    | some c => s.installImage i c (s.stand i).cnpAddr.toNat
    | none => s) s1

/-- The wake ends: dispatch resumes, and what waited is delivered. -/
def State.endWake (s : State) : State :=
  let s1 := (s.onBud fun b => { b with power := .full, wakeStep := 0, edgeStopped := false }).applyCap
  let s2 := (List.range 4).foldl (fun (s : State) i => s.onStand i fun d => { d with schedStopped := false, routerStopped := false }) s1
  s2.deliverEdge.runHeld.actPending.settleTests.settleQueues

/-- The present stage of the wake ends. -/
def State.wakeStage (s : State) (o : StartObs) : State :=
  let goTo := fun (s : State) (n : Nat) => s.onBud fun b => { b with wakeStep := n }
  match s.bud.wakeStep with
  | 1 => goTo s 2
  | 2 => goTo s.restoreBoughs 3
  | 3 =>
    let s1 := s.recoverLeaves s.allLeaves
    goTo (s1.checkLeaves s1.activeLeaves o.refs o.refMon) 4
  | 4 => goTo (s.startCals o.meas) 5
  | 5 => s.endWake
  | _ => s

-- Shade (R360).

/-- A bough island may stop: no task, epoch, held line or trunk phase. -/
def State.boughIdle (s : State) (b : Nat) : Bool :=
  let x := s.bough b
  x.dispatched.isEmpty && x.epochs.isEmpty && x.held.isEmpty && !x.logicRunning && (leavesOf b).all fun k =>
    let l := s.leaf k
    l.meas.isNone && !l.testRunning && !l.verifyRunning && (l.diag.isEmpty || l.role != .active) && l.jobs.isEmpty && l.role != Role.programming

/-- A scheduler island may stop. -/
def State.schedIdle (s : State) (i : Nat) : Bool :=
  s.que.queues.all fun (p : Nat × QRun) => !(p.2.enabled && p.2.desc.owner == i) || (p.2.inflight.isEmpty && p.2.sqTail == p.2.sqHead)

/-- Island `n` has been idle for its limit and stops. -/
def State.stopIsland (s : State) (n : Nat) : State :=
  if n < 16 then
    (if s.enabled n ∧ fld s.bud.pwrCtrl 15 8 ≠ 0 ∧ s.boughIdle n then
      (leavesOf n).foldl (fun (s : State) k => s.onLeaf k fun l => { l with cadence := 0 }) (s.onBough n fun x => { x with clockStopped := true })
     else s)
  else if n < 20 then (if s.schedIdle (n - 16) then s.onStand (n - 16) fun d => { d with schedStopped := true } else s)
  else if n < 24 then s.onStand (n - 20) fun d => { d with routerStopped := true }
  else s

/-- Island `n` runs again. -/
def State.startIsland (s : State) (n : Nat) : State :=
  if n < 16 then s.onBough n fun x => { x with clockStopped := false }
  else if n < 20 then s.onStand (n - 16) fun d => { d with schedStopped := false }
  else if n < 24 then s.onStand (n - 20) fun d => { d with routerStopped := false }
  else s

-- The governor (R369 to R372).

/-- Largest grant: 16 or 12 × 10⁹ leaf-phases per second. -/
def State.grantMax (s : State) : Rat := if fld s.trunk.partId 15 0 = 0x1536 then 12000000000 else 16000000000

/-- The grant of the next interval, for the hottest junction `t` (1/256 °C) and mean power `p` in W. -/
def State.nextGrant (s : State) (t : Int) (p : Rat) : Rat :=
  let g := s.bud.grant
  let cap := nr s.bud.capNow
  let thr := 256 * ni (clampN 85 105 (fld s.bud.thermCtrl 7 0))
  let g1 : Rat :=
    if thr ≤ t then g * 15 / 16
    else if t < thr - 512 ∧ p < cap then g * (if 1 + (cap - p) / (4 * cap) < 17/16 then 1 + (cap - p) / (4 * cap) else 17/16)
    else if cap < p then g * (if 1 - (p - cap) / (4 * cap) < 15/16 then 15/16 else 1 - (p - cap) / (4 * cap))
    else g
  if s.grantMax < g1 then s.grantMax else g1

/-- Cadence of `n` working leaves under grant `g`. -/
def cadenceOf (n : Nat) (g : Rat) : Nat :=
  (((List.range 57).map (· + 8)).find? fun c => decide (nr n * 1000000000 / nr c ≤ g)).getD 64

/-- Bough clock after `k` steps of 5 % down, MHz. -/
def freqAfter (k : Nat) : Nat := 1800 - 90 * k

/-- Every bough moves to the clock of the steps in force. -/
def State.setClocks (s : State) : State :=
  s.allBoughs.foldl (fun (s : State) b => s.onBough b fun x => { x with newFreq := some (BitVec.ofNat 11 (freqAfter s.bud.fSteps)) }) s

/-- One remedy is applied or released in an interval (R370). -/
def State.remedy (s : State) (short hot : Bool) : State :=
  let s0 := s.allBoughs.foldl (fun (s : State) b => s.onBough b fun x => { x with parked := false }) s
  if (short || hot) && decide (s.bud.fSteps < 10) then (s0.onBud fun b => { b with fSteps := b.fSteps + 1, fPct := BitVec.ofNat 7 (100 - 5 * (b.fSteps + 1)) }).setClocks
  else if short then
    match (nextAfter s0.allBoughs s.bud.parkNext).head? with
    | some b => (s0.onBough b fun x => { x with parked := true }).onBud fun d => { d with parking := true, parkNext := b }
    | none => s0
  else if s.bud.parking then s0.onBud fun b => { b with parking := false }
  else if !hot && decide (0 < s.bud.fSteps) then (s0.onBud fun b => { b with fSteps := b.fSteps - 1, fPct := BitVec.ofNat 7 (100 - 5 * (b.fSteps - 1)) }).setClocks
  else s0

/-- Leaves are told the cadence: the common one while they have work, 0 otherwise. -/
def State.setCadence (s : State) (c : Nat) : State :=
  { s with leaves := s.leaves.map fun (p : Nat × Leaf) => (p.1, { p.2 with cadence := if p.2.jobs.isEmpty then 0 else BitVec.ofNat 7 c }) }

/-- Triggers 2 and 4 and the mismatch count of leaf `k` at the end of an interval (R74, R78). -/
def State.judgeLeaf (s : State) (k : Nat) : State :=
  let load := s.bud.loadPct.toNat
  let l := s.leaf k
  let s2 := if !l.mismatchNow then s
    else
      let t := s.onLeaf k fun l => { l with calMismatchCnt := satInc l.calMismatchCnt, mismatchSeen := true, mismatchNow := false, mismatchRec := some l.mismatchGen }
      if l.mismatchRec = some l.mismatchGen then t
      else t.record .calMismatch (uLeaf k) { source := 4, detail := l.mismatchSlot + at_ (min 127 l.mismatchLoad) 8 + at_ (min 127 load) 16 }
  let run := (List.range 3).map fun p => if l.emptyNear load p then nth 0 l.emptyRun p + 1 else 0
  let s3 := s2.onLeaf k fun l => { l with emptyRun := run }
  if l.role ≠ .active ∨ s.inReset (k / 72) then s3
  else
    let s4 := if l.tempTrigger load (smGet 0 s.bud.temps (k / 18)) then s3.trigger k 2 else s3
    if run.any fun n => 2 ≤ n then s4.trigger k 4 else s4

/-- The governor's part of an interval (R369 to R372, R74, R78, R79); THROTTLE gives the grant in leaf-phases per second (log entry 161). -/
def State.govern (s : State) (o : GovObs) : State :=
  let s0 := s.applyCap
  let powers := (o.power :: s0.bud.powers).take 10
  let mean10 : Rat := nr (nsum powers) / nr powers.length
  let mean := (rhe mean10).toNat
  let cap := s0.bud.capNow
  let load := min 255 (rhe (100 * (mean10 / 10) / nr cap)).toNat
  let t := sext 16 s0.bud.tMax.toNat
  let thr := 256 * ni (clampN 85 105 (fld s0.bud.thermCtrl 7 0))
  let g := s0.nextGrant t (mean10 / 10)
  let c := cadenceOf o.working g
  let exceeds := decide (nr cap * 10 * (102/100) < mean10)
  let s1 := s0.onBud fun b =>
    { b with powers := powers, mean := BitVec.ofNat 16 mean, peak := if b.peak.toNat < o.power then BitVec.ofNat 16 (min 65535 o.power) else b.peak, loadPct := BitVec.ofNat 8 load,
             grant := g, cadence := BitVec.ofNat 7 c, working := BitVec.ofNat 9 o.working, throttling := decide (thr ≤ t),
             capExceed := if exceeds then satInc b.capExceed else b.capExceed, capRecorded := b.capRecorded || exceeds }
  let s2 := if exceeds ∧ !s0.bud.capRecorded then s1.record .capExceeded uDevice { detail := cap, detail2 := mean } else s1
  -- Throttle (R373).
  let s3 := if thr ≤ t then
      let again : Bool := match s2.bud.lastThrottle with | some x => decide (10000 ≤ s2.trunk.time - x) | none => true
      let s4 := s2.onBud fun b => { b with throttleCnt := satInc b.throttleCnt, lastThrottle := some s.trunk.time }
      if again then s4.record .throttle uDevice { detail := s4.bud.tMax.toNat + 2 ^ 24 * s4.bud.hotIsland.toNat, detail2 := (rhe g).toNat } else s4
    else s2
  let short := decide (c = 64) && decide (g < nr o.working * 1000000000 / 64)
  let s5 := ((s3.remedy short (decide (thr + 768 ≤ t))).setCadence c)
  (s5.allLeaves.foldl State.judgeLeaf s5).calibAll

-- Thermal control (R373) and VIN (R415).

/-- The hottest island of a table of temperatures: index and temperature. -/
def hottest (m : SMap Int) : Nat × Int :=
  match m with
  | [] => (0, 0)
  | p :: r => r.foldl (fun (a : Nat × Int) q => if a.2 < q.2 then q else a) p

/-- A trip: every island but the bud is unpowered (R373). Queued store writes are discarded (R386). -/
def State.trip (s : State) : State :=
  let c := s.dropWrites
  let b := c.bud
  let off := { c.powerOff 0 with store := c.store, bud := { b with tripped := true, thermN := true, power := .full, entryStep := 0, wakeStep := 0, tripNoted := false } }
  { off with trunk := { boot := .tripped, time := s.trunk.time, puf := s.trunk.puf }, mgmt := { s.mgmt with pending := [], alert := s.mgmt.alert ||| 4#6 }, tap := s.tap,
             leaves := s.leaves.map fun (p : Nat × Leaf) => (p.1, p.2.unpowered), ael := { role := s.ael.role }, out := s.out, pcie := { refclkExt := s.pcie.refclkExt, refclkIn := s.pcie.refclkIn } }

/-- What the bud samples in an interval, with THERM_N, VIN_LOW and the trip. -/
def State.sample (s : State) (o : GovObs) : State :=
  let temps := o.temps.foldl (fun (m : SMap Int) p => smSet m p.1 p.2) s.bud.temps
  let hbmT := o.hbmTemp.foldl (fun (m : SMap Int) p => smSet m p.1 p.2) s.bud.hbmTemp
  let (isl, t) := hottest temps
  let alarm := 256 * ni (clampN 90 110 (fld s.bud.thermCtrl 15 8))
  let n := if alarm ≤ t then true else if t < alarm - 768 then false else s.bud.thermN
  let s1 := (s.onTrunk fun x => { x with time := x.time + 1 }).onBud fun b =>
    { b with temps := temps, hbmTemp := hbmT, vinMv := o.vinMv, inMa := o.inMa, hotIsland := BitVec.ofNat 5 isl, tMax := BitVec.ofNat 16 (toBits 16 t), thermN := n,
             hotLast := (temps.filter fun p => decide (115 * 256 ≤ p.2)).map (·.1) }
  if n && !s.bud.thermN then s1.alert 4 else s1

/-- A sensor reads 115 °C or more on two consecutive samples, the second of them `o` (R373). -/
def State.hotAgain (s : State) (o : GovObs) : Bool := s.bud.hotLast.any fun n => (s.sample o).bud.hotLast.contains n

/-- VIN below 11.4 V (R415). -/
def State.vinLow (s : State) (o : GovObs) : State :=
  if 11400 ≤ o.vinMv then s
  else
    let again : Bool := match s.bud.lastVinLow with | some x => decide (10000 ≤ s.trunk.time - x) | none => true
    let s1 := s.onBud fun b => { b with lastVinLow := some s.trunk.time }
    if again then s1.record .vinLow uDevice { source := 1, detail := o.vinMv } else s1

end Sys2Proof.Machine
end

