-- ==== Sys2Proof/Machine/Governor.lean ====
section
/-! DEFINITION. The meaning of the governor's interval (chapter 16). -/

namespace Sys2Proof.Machine

/-- GOVERNOR_INTERVAL (R369 to R373, R415): the samples, the trip on a second hot sample, with or without firmware, and in Full and Shade the governor. -/
def execGovernorInterval (o : GovObs) (s : State) : Res :=
  let s1 := s.sample o
  ok (if s.trunk.boot = .off ∨ s.trunk.boot = .tripped ∨ s.bud.power = .bare then s
    else if s.hotAgain o then s1.trip
    else if !s.trunk.fwRunning ∧ !s.trunk.warmBusy then s1
    else if s.trunk.fwRunning ∧ !s.trunk.warmBusy ∧ s.awake then (s1.vinLow o).govern o
    else s1.vinLow o)

end Sys2Proof.Machine
end

