-- ==== Sys2Proof/Machine/Grafts.lean ====
section
/-! DEFINITION. Graft operations at issue (Table 10-4). -/

namespace Sys2Proof.Machine

/-- GRAFT_APPLY (R239). -/
def execGraftApply (b : Nat) (s : State) : Res := ok (s.issueIf b (fun w => w.isVec 0x80) (opGraftApply b))

/-- GRAFT_GRAD (R243). -/
def execGraftGrad (b : Nat) (s : State) : Res := ok (s.issueIf b (fun w => w.isVec 0x81) (opGraftGrad b))

/-- GRAFT_STEP (R244). -/
def execGraftStep (b : Nat) (s : State) : Res := ok (s.issueIf b (fun w => w.isVec 0x82) (opGraftStep b))

end Sys2Proof.Machine
end

