-- ==== Sys2Proof/Machine/Host.lean ====
section
/-! DEFINITION. Meanings of the host's accesses and of PCIe events (chapter 12). -/

namespace Sys2Proof.Machine

/-- BAR2_READ (R284). -/
def execBar2Read (addr len : Nat) (s : State) : Res := ok (if s.live ∧ !s.pcie.d3hot then s.accessBar2 (.read addr len) else s)

/-- BAR2_WRITE (R284): `none` for a byte that is not enabled. -/
def execBar2Write (addr : Nat) (bytes : List (Option Byte)) (s : State) : Res :=
  ok (if s.live ∧ !s.pcie.d3hot ∧ !bytes.isEmpty then s.accessBar2 (.write addr bytes) else s)

/-- VF_FLR (R280). -/
def execVfFlr (vf : Nat) (s : State) : Res := ok (if s.live ∧ 1 ≤ vf ∧ s.hasFunc vf then s.resetVf vf else s)

/-- VF_FLR_DONE (R280). -/
def execVfFlrDone (vf : Nat) (s : State) : Res := ok (s.endVfFlr vf)

/-- PF_FLR (R280): VF Enable is cleared, the function's configuration reset, and a warm reset made. -/
def execPfFlr (s : State) : Res :=
  ok (if !s.live then s
    else
      let s1 := s.onPcie fun p => { p with vfEnable := false, numVfs := 0, funcs := [], vfFlr := 0, d3hot := false, pmeEnable := false, pmeStatus := false, cfg := { payload := p.cfg.payload, aspmL1 := p.cfg.aspmL1 } }
      s1.beginWarm 2)

/-- MSIX_UNMASK (R279): messages that are now allowed are sent. -/
def execMsixUnmask (fn : Nat) (act : MsixAct) (s : State) : Res :=
  let s1 := s.onFunc fn fun p =>
    match act with
    | .enable => { p with msixEnable := true }
    | .busMaster => { p with busMaster := true }
    | .unmask v => { p with msix := smUpd {} p.msix v fun e => { e with masked := false } }
  ok (if s.live ∧ s.hasFunc fn then s1.raisePending fn else s)

/-- DMA_REQUEST_FAILED (R288). -/
def execDmaRequestFailed (t : DmaTarget) (addr : Nat) (s : State) : Res := ok (s.failRequest t addr).pumpReads.settleQueues

/-- REFCLK_LOSS (R276): the chosen reference input stops, and the link goes down. -/
def execRefclkLoss (s : State) : Res :=
  let s1 := s.onPcie fun p => { p with refclkIn := false }
  ok (if s.pcie.refclkExt then s1.onPcie fun p => { p with linkState := 0, rate := 0, width := 0, flit := false } else s1)

/-- HOST_READ_COMPLETION (R287). -/
def execHostReadCompletion (t : DmaTarget) (data : List Byte) (s : State) : Res := ok (s.completeRequest t data).pumpReads.settleQueues

/-- Table 12-1: the capabilities and options that configuration space shows; SR-IOV shows no virtual function without a part code (R278). -/
def CfgCap.shown : CfgCap → Bool
  | .sriov | .msix | .aer | .ecrc | .l1 | .ltr | .pme | .flr | .drs | .cplDisable => true
  | .l0p | .msi | .intx | .l0s | .l1ss | .ats | .pasid | .pri | .atomicOps | .tph | .ptm | .resizableBar => false

/-- TotalVFs (R278). -/
def State.totalVfs (s : State) : Nat := if fld s.trunk.partId 15 0 = 0 then 0 else 31

/-- Value of a field of function `fn`'s configuration space (R275, Table 12-2). -/
def State.cfgValue (s : State) (fn : Nat) (f : CfgField) : Nat :=
  let p := s.func fn
  let c := s.pcie.cfg
  let part := fld s.trunk.partId 15 0
  match f with
  | .ids => 0x1F6B + 2 ^ 16 * (if part = 0 then 0x2000 else if fn = 0 then part else part + 1)
  | .classCode => 0x120000
  | .barSize n => if n = 0 then (if fn = 0 then 0x4000000 else 0x10000) else if n = 2 then (if fn = 0 then 0x1000000000 else 0) else if n = 4 then 0x1000000 else 0
  | .has k => b2n (k.shown && (fn == 0 || !(k == .sriov || k == .aer)))
  | .vectors => Sys2Proof.Machine.vectors fn
  | .totalVfs => s.totalVfs
  | .vfDevice => if part = 0 then 0 else part + 1
  | .vfEnable => b2n s.pcie.vfEnable
  | .numVfs => s.pcie.numVfs
  | .busMaster => b2n p.busMaster
  | .msixEnable => b2n p.msixEnable
  | .relaxedOrder => b2n p.relaxedOrder
  | .payload => c.payload
  | .readRequest => c.readRequest
  | .tags10 => b2n c.tags10
  | .ecrc => b2n c.ecrcGen + 2 * b2n c.ecrcCheck
  | .aspmL1 => b2n c.aspmL1
  | .ltr => b2n c.ltr
  | .cplTimeout => c.cplRange.toNat + 16 * b2n c.cplDisable
  | .aer => b2n c.aer
  | .pme => b2n s.pcie.pmeEnable + 2 * b2n s.pcie.pmeStatus

/-- A write of function `fn`'s configuration space (R275 to R280). A field that only the physical function has ignores a virtual function's write, as does a size that Table 12-1 does not support. -/
def State.cfgWrite (s : State) (fn : Nat) (act : CfgAct) : State :=
  let pf := fun (g : Pcie → Pcie) => if fn = 0 then s.onPcie g else s
  let cfg := fun (g : PCfg → PCfg) => pf fun p => { p with cfg := g p.cfg }
  match act with
  | .read _ => s
  | .vfEnable on num =>
    let num := if on then min num s.totalVfs else 0
    pf fun p => { p with vfEnable := on && decide (0 < num), numVfs := num, funcs := p.funcs.filter fun x => decide (x.1 ≤ num) }
  | .busMaster on => ((s.onFunc fn fun p => { p with busMaster := on }).raisePending fn).settleQueues
  | .msixEnable on => (s.onFunc fn fun p => { p with msixEnable := on }).raisePending fn
  | .relaxedOrder on => s.onFunc fn fun p => { p with relaxedOrder := on }
  | .pmeEnable on => pf fun p => { p with pmeEnable := on }
  | .pmeClear => pf fun p => { p with pmeStatus := false }
  | .payload n => cfg fun c => { c with payload := if n = 128 ∨ n = 256 ∨ n = 512 then n else c.payload }
  | .readRequest n => cfg fun c => { c with readRequest := if n ∈ [128, 256, 512, 1024, 2048, 4096] then n else c.readRequest }
  | .tags10 on => cfg fun c => { c with tags10 := on }
  | .ecrc gen check => cfg fun c => { c with ecrcGen := gen, ecrcCheck := check }
  | .aspmL1 on => cfg fun c => { c with aspmL1 := on }
  | .ltr on => cfg fun c => { c with ltr := on }
  | .cplTimeout disable range => cfg fun c => { c with cplDisable := disable, cplRange := range }
  | .aerClear => cfg fun c => { c with aer := false }

/-- CONFIGURATION_REQUEST (R275, R277 to R280, R287): Request Retry Status before readiness. -/
def execConfigurationRequest (fn : Nat) (act : CfgAct) (s : State) : Res :=
  if !s.pcie.ready then ok (if s.trunk.boot = .off ∨ s.bud.perst then s else s.emit .cfgRetry)
  else if !s.live then ok s
  else if !s.hasFunc fn then ok (s.emit .cfgUnsupported)
  else ok (match act with
    | .read f => s.emit (.cfgData (s.cfgValue fn f))
    | _ => (s.emit .cfgDone).cfgWrite fn act)

end Sys2Proof.Machine
end

