-- ==== Sys2Proof/Machine/Integrity.lean ====
section
/-! DEFINITION. Meanings of the integrity events: bias windows, HBM reads, patrol scrub and diagnoses (chapter 14). -/

namespace Sys2Proof.Machine

/-- BIAS_WINDOW_END (R324). -/
def execBiasWindowEnd (b l g : Nat) (s : State) : Res := ok (if s.enabled b ∧ l < 18 then s.endBiasWindow (leafNo b l) g else s)

/-- HBM_READ_RESPONSE (R317): the oldest HBM read of a bough completes, or that of another reader, for which no bough counts. -/
def execHbmReadResponse (b : Nat) (o : ReadObs) (s : State) : Res :=
  let live : Bool := match o with | .engine _ _ _ => true | _ => s.usable b && !s.inReset (standOf b)
  ok (if live ∧ s.awake then (s.readDone b o).pumpReads.settleQueues else s)

/-- PATROL_SCRUB (R317): a part of a channel's pass; scrub_hours 0 disables it. -/
def execPatrolScrub (ch : Nat) (o : ScrubObs) (s : State) : Res :=
  let d := s.stand (ch / 8)
  ok (if ch < 32 ∧ s.awake ∧ s.trunk.fwRunning ∧ !s.inReset (ch / 8) ∧ !d.hbmFenced ∧ fld d.hbmCtrl 7 0 ≠ 0 then s.scrubPart ch o else s)

/-- DIAGNOSIS_DONE (R325): only on an ACTIVE leaf, and not between the two phases of a vector (R34). -/
def execDiagnosisDone (b l : Nat) (o : MeasObs) (s : State) : Res :=
  let k := leafNo b l
  ok (if s.enabled b ∧ l < 18 ∧ s.awake ∧ !s.inReset (standOf b) ∧ (s.leaf k).role = .active ∧ !(s.leaf k).draining ∧ !(s.leaf k).midVector then s.endDiag k o else s)

end Sys2Proof.Machine
end

