-- ==== Sys2Proof/Machine/LeafCmds.lean ====
section
/-! DEFINITION. Commands of one leaf: the reference self-check and a leaf-phase (chapter 02). -/

namespace Sys2Proof.Machine

/-- REF_SELF_CHECK: the check due 10 s after a programming (R44, R66), not between the two phases of a vector (R34). -/
def execRefSelfCheck (b l : Nat) (o : RefObs) (s : State) : Res :=
  let k := leafNo b l
  ok (if s.enabled b && decide (l < 18) && (s.leaf k).refCheckDue && (s.leaf k).role == .active && !(s.leaf k).midVector then s.selfCheck k o.codes o.monitor else s)

/-- LEAF_PHASE: the next phase that waits on the leaf (R55); an XRECV that waited for the owner's own partials may then go on (R210). -/
def execLeafPhase (b l : Nat) (o : PhaseObs) (s : State) : Res :=
  let k := leafNo b l
  ok (if s.usable b && decide (l < 18) && s.awake && !s.inReset (standOf b) then (s.runPhase b k o).tryXrecv b else s)

end Sys2Proof.Machine
end

