-- ==== Sys2Proof/Machine/Load.lean ====
section
/-! DEFINITION. Meanings of the commands of canopy loads and graft folds (chapters 09 and 10). -/

namespace Sys2Proof.Machine

/-- LOAD_CANOPY (R224). -/
def execLoadCanopy (q : Nat) (s : State) : Res :=
  ok (s.serveCommand q 2 2 [(0, 8), (8, 8), (16, 1), (17, 1), (18, 2), (32, 32)] fun t s =>
    let mask := le t.args 16 1
    let hbm := fun (o : Nat) => match decodeAddr (le t.args o 8) with | .hbm a => some a | _ => none
    if (bitsSet 4 mask).any s.busyStands.contains then s.refuseCommand q t 0x0A 0
    else match hbm 0, hbm 8 with
      | some a, some lb =>
        if mask = 0 ∨ 15 < mask then s.refuseCommand q t 1 0
        else
          let l : LoadOp := { addr := a, mask := BitVec.ofNat 4 mask, leafBase := lb, noProgram := (le t.args 17 1).testBit 0,
                              timeoutMs := clampN 1 1000 (le t.args 18 2), expected := sub t.args 32 32 }
          let (s1, h) := (s.popCommand q).acceptOp q t (s.queue q).sqHead (.load l)
          s1.onRunStands h fun d => { d with cnpState := .loading }
      | _, _ => s.refuseCommand q t 1 0)

/-- CANOPY_VALIDATE_DONE (R223). -/
def execCanopyValidateDone (h : Nat) (s : State) : Res :=
  ok (match s.op h with
    | some { body := .load l, suspended := false, .. } => if l.step = 1 ∧ !s.shut (hbmStand l.addr) then s.validated h l else s
    | _ => s)

/-- CANOPY_QUIESCE_DONE (R227). -/
def execCanopyQuiesceDone (h : Nat) (s : State) : Res :=
  ok (match s.op h with
    | some { suspended := false, .. } => s.quiesceEnd h
    | _ => s)

/-- QUIESCE_TIMEOUT (R229). -/
def execQuiesceTimeout (h : Nat) (s : State) : Res :=
  ok (match s.op h, s.rounds h with
    | some { suspended := false, .. }, some r => if r.quiescing ∧ !r.quiesced then (s.failRun h 9 5).1 else s
    | _, _ => s)

/-- FOLD_GRAFT (R247). -/
def execFoldGraft (q : Nat) (s : State) : Res :=
  ok (s.serveCommand q 5 2 [(0, 4), (4, 2), (6, 2), (8, 8)] fun t s =>
    let ctx := le t.args 0 4
    let gi := le t.args 4 2
    let scratch := decodeAddr (le t.args 8 8)
    match s.foldTarget ctx gi scratch with
    | none => s.refuseCommand q t 1 0
    | some (_, g) =>
      if g.stands.any s.busyStands.contains then s.refuseCommand q t 2 0
      else
        let st := s.graftBlock ctx + 64 + 64 * gi
        let f : FoldOp := { context := ctx, graft := gi, scratch := (match scratch with | .hbm a => a | _ => 0), timeoutMs := clampN 1 1000 (le t.args 6 2),
                            bank := (s.hbmNat st 1).testBit 1, mask := BitVec.ofNat 4 (nsum (g.stands.map (2 ^ ·))) }
        ((s.popCommand q).acceptOp q t (s.queue q).sqHead (.fold f)).1)

/-- FOLD_ENTRY_READBACK_DONE (R248). -/
def execFoldEntryReadbackDone (h : Nat) (levels : SMap Nat) (s : State) : Res :=
  ok (match s.op h with
    | some { body := .fold f, suspended := false, .. } => s.foldEntry h f levels
    | _ => s)

end Sys2Proof.Machine
end

