-- ==== Sys2Proof/Machine/LongOps.lean ====
section
/-! DEFINITION. Meanings of SUSPEND, RESUME and CANCEL (R273) over each long operation. -/

namespace Sys2Proof.Machine

/-- Suspend member `pid` (R109): its leaf shows step 11 and the pump is free. -/
def State.suspendMember (s : State) (pid : Nat) : State :=
  match s.prog pid with
  | some p =>
    if 9 ≤ p.step ∨ p.suspended then s
    else
      let s1 := s.onProg pid fun p => { p with suspended := true, suspendedAt := s.trunk.time }
      match p.leaf with | some k => s1.onLeaf k fun l => { l with progStep := 11 } | none => s1
  | none => s

/-- Put a resumed member back in its bough's order: after the operation whose rows are under way, else first. -/
def State.requeueMember (s : State) (b pid : Nat) : State :=
  let rest := removeN (s.bough b).progQueue pid
  let busy : Bool := match rest.head? with | some q => (match s.prog q with | some p => !s.memberHeld p && decide (2 ≤ p.step) | none => false) | none => false
  s.onBough b fun x => { x with progQueue := if busy then rest.take 1 ++ pid :: rest.drop 1 else pid :: rest }

/-- Resume member `pid` (R109): after more than 10 s the sequence restarts at step 3 and spends a further cycle. -/
def State.resumeMember (s : State) (pid : Nat) : State :=
  match s.prog pid with
  | some p =>
    if !p.suspended then s
    else
      let late := decide (100000 < s.trunk.time - p.suspendedAt) && decide (3 ≤ p.step ∧ p.step ≤ 8) && !p.adopt
      let s1 := s.onProg pid fun p => { p with suspended := false, step := if late then 3 else p.step }
      let s2 := match p.leaf with
        | some k =>
          let s3 := if late then (s1.countCycle k).onLeaf k Leaf.beginAttempt else s1
          s3.onLeaf k fun l => { l with progStep := BitVec.ofNat 4 (if late then 3 else p.step), progPass := if late then 0 else l.progPass }
        | none => s1
      if late ∨ p.step ≤ 5 then s2.requeueMember p.bough pid else s2
  | none => s

/-- Members of a load's or fold's present round. -/
def State.membersOf (s : State) (h : Nat) : List Nat := (s.trunk.progs.filter fun (p : Nat × Prog) => p.2.parent == some h).map (·.1)

/-- Outcome of SUSPEND on operation `h`: code and state. -/
def State.suspendOp (s : State) (h : Nat) : Nat × State :=
  match s.op h with
  | none => (1, s)
  | some o =>
    let s1 := s.onOp h fun o => { o with suspended := true }
    match o.body with
    | .dump => (2, s)
    | .program pid => if o.suspended then (3, s) else (0, s1.suspendMember pid)
    | .load _ | .fold _ => if o.suspended then (3, s) else (0, (s.membersOf h).foldl State.suspendMember s1)
    | .calib c => if o.suspended then (3, s) else
        (0, c.leaves.foldl (fun (s : State) k => s.suspendCalib h k) s1)
    | .ftest _ => if o.suspended then (3, s) else (0, s1)

/-- Outcome of RESUME on operation `h`. -/
def State.resumeOp (s : State) (h : Nat) : Nat × State :=
  match s.op h with
  | none => (1, s)
  | some o =>
    let s1 := s.onOp h fun o => { o with suspended := false }
    match o.body with
    | .dump => (2, s)
    | .program pid => if !o.suspended then (3, s) else (0, s1.resumeMember pid)
    | .load _ | .fold _ => if !o.suspended then (3, s) else (0, (s.membersOf h).foldl State.resumeMember s1)
    | .calib c => if !o.suspended then (3, s) else
        (0, (c.leaves.foldl (fun (s : State) k => s.resumeCalib h c.sel k) s1).calibTurn h)
    | .ftest _ => if !o.suspended then (3, s) else (0, s1.settleTests)

/-- Outcome of CANCEL on operation `h`: code, and what follows the CANCEL's own completion. -/
def State.cancelOp (s : State) (h : Nat) : Nat × (State → State) :=
  match s.op h with
  | none => (1, id)
  | some o =>
    match o.body with
    | .program pid =>
      match s.prog pid with
      | none => (3, id)
      | some p =>
        let issued : Bool := match s.group p.group with | some _ => s.mapIssued p.group | none => true
        if 10 ≤ p.step ∨ (p.step = 9 ∧ issued) then (3, id) else (0, fun s => s.failMember pid 0x0A false)
    | .load _ | .fold _ =>
      let final : Bool := match s.rounds h with | some r => r.switchIssued s | none => true
      if final then (3, id) else (0, fun s => (s.failRun h 0x0C 7).1)
    | .calib c => (0, fun s => (c.leaves.filter c.waits).foldl (fun (s : State) k =>
        (s.leaveMeas h k).calibLeaf h k 5) s)
    | .ftest f => (0, fun s => (s.ftestForget f).endOp h 4)
    | .dump => (0, fun s => s.onTrunk fun t => { t with dumps := t.dumps.map fun (d : DumpRun) => if d.kind = 0 ∧ d.op = some h then { d with cancelled := true } else d })

/-- The handle a command names. -/
def TaskRec.handle (t : TaskRec) : Nat := le t.args 0 2

/-- SUSPEND (R273). -/
def execSuspend (q : Nat) (s : State) : Res :=
  ok (s.serveCommand q 0x10 1 [(0, 2)] fun t s =>
    let r := match s.opOfHandle t.handle with | some h => s.suspendOp h | none => (1, s)
    r.2.refuseCommand q t r.1 (wordOf t.handle))

/-- RESUME (R273). -/
def execResume (q : Nat) (s : State) : Res :=
  ok (s.serveCommand q 0x11 1 [(0, 2)] fun t s =>
    let r := match s.opOfHandle t.handle with | some h => s.resumeOp h | none => (1, s)
    r.2.refuseCommand q t r.1 (wordOf t.handle))

/-- CANCEL (R273): the operation's own completion follows the CANCEL's. -/
def execCancel (q : Nat) (s : State) : Res :=
  ok (s.serveCommand q 0x12 1 [(0, 2)] fun t s =>
    let r := match s.opOfHandle t.handle with | some h => s.cancelOp h | none => (1, id)
    r.2 (s.refuseCommand q t r.1 (wordOf t.handle)))

end Sys2Proof.Machine
end

