-- ==== Sys2Proof/Machine/Resets.lean ====
section
/-! DEFINITION. Meanings of the resets, their steps, the replay and the heartbeat (chapter 15). -/

namespace Sys2Proof.Machine

/-- The registers that the bud decodes are reached (R348, R357). -/
def State.budLive (s : State) : Bool := s.live && !s.pcie.d3hot && s.bud.power != .bare

/-- A write of STD_RST_CTRL (R344). -/
def execStandReset (i : Nat) (v : Word) (s : State) : Res := ok (if s.regLive ∧ i < 4 then s.writeRstCtrl i v else s)

/-- The present step of a stand's reset ends (R344). -/
def execStandResetStepDone (i : Nat) (o : ResetObs) (s : State) : Res :=
  ok (if i < 4 ∧ s.trunk.fwRunning ∧ !s.trunk.warmBusy then s.standStep i o else s)

/-- A channel does not confirm self-refresh in step 4 (R345). -/
def execSelfRefreshTimeout (i : Nat) (s : State) : Res :=
  ok (if 3 < i then s
    else if s.trunk.warmBusy then (if s.trunk.warmStep = 3 then s.onStand i fun d => { d with fallback := true } else s)
    else if (s.stand i).rstStep = 4 then s.onStand i fun d => { d with fallback := true, rstStep := 5 } else s)

/-- A stand reset is escalated to a warm reset (R351). -/
def execStandResetEscalation (i : Nat) (s : State) : Res := ok (if i < 4 ∧ !s.trunk.warmBusy then s.escalate i else s)

/-- An attempt of a replay ends (R355). -/
def execReplayAttemptEnd (i : Nat) (s : State) : Res :=
  ok (if i < 4 ∧ !s.trunk.warmBusy ∧ (s.stand i).rstState = .replaying then s.endAttempt i else s)

/-- An attempt exceeds its budget (R355, R356). -/
def execReplayBudgetExpiry (i : Nat) (s : State) : Res :=
  ok (if i < 4 ∧ !s.trunk.warmBusy ∧ (s.stand i).rstState = .replaying then s.guilty i else s)

/-- A write of TRK_RST_CTRL with warm, and its RW field (R348). -/
def execWarmReset (v : Word) (s : State) : Res :=
  ok (if !s.budLive then s
    else
      let s1 := s.onTrunk fun t => { t with warmDump := bit v 0 }
      if bit v 30 then s1.beginWarm 1 else s1)

/-- The present step of the warm reset ends (R348). -/
def execWarmResetStepDone (o : ResetObs) (s : State) : Res := ok (if s.trunk.warmBusy then s.warmStepDone o else s)

/-- The dump of a warm reset has not ended within 5 ms (R348). -/
def execWarmDumpTimeout (s : State) : Res :=
  ok (if s.trunk.warmBusy ∧ s.trunk.warmStep = 2 then s.onTrunk fun t => { t with warmStep := 3, dumps := t.dumps.filter fun d => d.kind != 2 } else s)

/-- The trunk does not answer within 1 ms: the controllers send the notice, and no dump is taken (R348). -/
def execWarmNoticeTimeout (s : State) : Res :=
  ok (if s.trunk.warmBusy ∧ s.trunk.warmStep = 1 then s.warmNotice.warmDumpStep false else s)

/-- A write of TRK_RST_CTRL with cold (R349). -/
def execColdReset (s : State) : Res := ok (if s.budLive then s.selfColdReset else s)

/-- One 1 ms tick of a trunk core, or of the bud for both in Dormant (R343, R366). -/
def execHeartbeatTick (core : Nat) (s : State) : Res :=
  ok (if s.bud.power = .dormant then s.onTrunk fun t => { t with hb0 := t.hb0 + 1, hb1 := t.hb1 + 1 }
    else if !s.trunk.fwRunning then s
    else if core = 0 then s.onTrunk fun t => { t with hb0 := t.hb0 + 1 }
    else if core = 1 then s.onTrunk fun t => { t with hb1 := t.hb1 + 1 } else s)

end Sys2Proof.Machine
end

