-- ==== Sys2Proof/Machine/Power.lean ====
section
/-! DEFINITION. Meanings of the power states, clock islands and the cap (chapter 16). -/

namespace Sys2Proof.Machine

/-- PF_D3HOT_ENTRY (R361): with d3_state 1 or 2 it requests Dormant; 3 acts as 2. -/
def execPfD3hotEntry (s : State) : Res :=
  ok (if !s.live ∨ s.pcie.d3hot then s
    else
      let s1 := s.onPcie fun p => { p with d3hot := true }
      let d := fld s.bud.pwrCtrl 1 0
      if d = 0 then s1 else s1.requestDormant (min d 2))

/-- PF_D0_TRANSITION (R365). -/
def execPfD0Transition (s : State) : Res :=
  ok (if !s.pcie.d3hot ∨ !s.live then s
    else
      let s1 := s.onPcie fun p => { p with d3hot := false }
      match s.bud.power with
      | .dormant => s1.beginWake 5
      | .entering => s1.onBud fun b => { b with wakeOther := 5 }
      | _ => s1)

/-- PME_TURN_OFF (R361). -/
def execPmeTurnOff (s : State) : Res :=
  ok (if s.bud.power = .dormant ∧ s.pcie.d3hot ∧ 2 ≤ fld s.bud.pwrCtrl 1 0 then s.enterBare.emit .pmeToAck else s)

/-- PWR_REQ_DORMANT: a write of BUD_PWR_REQ with target 1 (R361, R362). -/
def execPwrReqDormant (s : State) : Res := ok (if s.budLive then s.requestDormant 1 else s)

/-- PWR_REQ_WAKE: a write of BUD_PWR_REQ with target 2 (R365). -/
def execPwrReqWake (s : State) : Res :=
  ok (if !s.budLive then s
    else match s.bud.power with
      | .dormant => s.beginWake 6
      | .entering => s.onBud fun b => { b with wakeOther := if b.wakeOther = 0 then 6 else b.wakeOther }
      | _ => s)

/-- DORMANT_ENTRY_STEP_DONE (R363). -/
def execDormantEntryStepDone (s : State) : Res := ok (if s.bud.power = .entering then s.entryStep else s)

/-- ENTRY_TIMEOUT (R365): steps 2 and 3 exceed entry_timeout_ms. -/
def execEntryTimeout (s : State) : Res :=
  ok (if s.bud.power = .entering ∧ (s.bud.entryStep = 2 ∨ s.bud.entryStep = 3) then (s.abortEntry 9 0).actPending.settleTests.settleQueues else s)

/-- WAKE_EVENT (R364, R365). -/
def execWakeEvent (kind : WakeKind) (s : State) : Res := ok (s.wakeEvent kind)

/-- WAKE_STEP_DONE (R367). -/
def execWakeStepDone (o : StartObs) (s : State) : Res := ok (if s.bud.power = .waking then s.wakeStage o else s)

/-- SHADE_IDLE_TIMEOUT (R360). -/
def execShadeIdleTimeout (island : Nat) (s : State) : Res := ok (if s.bud.power = .full ∧ s.trunk.fwRunning then s.stopIsland island else s)

/-- ISLAND_RESTART (R360). -/
def execIslandRestart (island : Nat) (s : State) : Res := ok (if s.bud.power = .full ∧ s.trunk.fwRunning then s.startIsland island else s)

/-- CLOCK_LOCK (R358): a bough's new frequency has locked. The other islands' clocks do not change. -/
def execClockLock (island : Nat) (s : State) : Res :=
  ok (if s.enabled island then s.onBough island fun x => match x.newFreq with
      | some f => { x with freqMhz := f, newFreq := none }
      | none => x
    else s)

/-- BUD_PWR_CAP: a write of the power cap (R372). -/
def execBudPwrCap (v : Word) (s : State) : Res := ok (if s.budLive then s.onBud fun b => { b with capW := BitVec.ofNat 7 (fld v 6 0) } else s)

end Sys2Proof.Machine
end

