-- ==== Sys2Proof/Machine/Queues.lean ====
section
/-! DEFINITION. Meanings of doorbells, queue commands, SYNC_IN and knots (chapter 11). -/

namespace Sys2Proof.Machine

/-- DOORBELL (R252, R286): a write of `len` bytes at BAR4 offset `off` through function `fn`. -/
def State.doorbell (s : State) (fn off len : Nat) (data : DWord) : State :=
  let count := fun (s : State) => s.onQue fun x => { x with dbErr := satInc x.dbErr }
  let q := off / 8
  let r := s.queue q
  if 0x800000 ≤ off then (count s).pciError 5 fn off
  else if len ≠ 8 ∨ off % 8 ≠ 0 ∨ !r.enabled ∨ r.desc.function ≠ fn then count s
  else if r.flr then s
  else if s.doorbellsActed q then (s.actDoorbell q (wordOf data.toNat) (wordOf (data.toNat / 2 ^ 32))).settleQueues
  else (s.wakeEvent .doorbell).onQueue q fun r => { r with pendingDb := some (wordOf data.toNat, wordOf (data.toNat / 2 ^ 32)) }

/-- DOORBELL (R252, R286): an access of `len` bytes to BAR4 through function `fn`; with no data, a read, which completes with zeros. -/
def execDoorbell (fn off len : Nat) (data : Option DWord) (s : State) : Res :=
  ok (if !s.live ∨ s.pcie.d3hot ∨ !(s.hasFunc fn) then s
    else match data with
      | none => s.emit (.readData (List.replicate len 0) false)
      | some d => s.doorbell fn off len d)

/-- QUE_CMD ENABLE (R251, R280). -/
def execQueEnable (q : Nat) (s : State) : Res :=
  ok (if !s.regLive ∨ s.que.cmdBusy ∨ 2 ^ 20 ≤ q then s
    else if (!(s.queue q).enabled ∨ (s.queue q).flr) ∧ (s.flrHolds q ∨ s.shut (hbmStand (s.descAddr q))) then s.onQue fun x => { x with cmdBusy := true, cmdOp := 1, cmdQueue := q }
    else (s.enableQueue q).settleQueues)

/-- QUE_CMD DISABLE (R251). -/
def execQueDisable (q : Nat) (s : State) : Res :=
  ok (if !s.regLive ∨ s.que.cmdBusy ∨ 2 ^ 20 ≤ q then s
    else if !(s.queue q).enabled then s.queResult 3
    else if (s.queue q).idle then s.finishDisable q
    else (s.onQueue q fun r => { r with disabling := true }).onQue fun x => { x with cmdBusy := true, cmdOp := 2, cmdQueue := q })

/-- QUE_CMD RESUME (R269). -/
def execQueResume (q : Nat) (s : State) : Res :=
  ok (if !s.regLive ∨ s.que.cmdBusy ∨ 2 ^ 20 ≤ q then s
    else if !(s.queue q).enabled then s.queResult 3
    else ((s.onQueue q fun r => { r with halted := false, haltCause := 0 }).queResult 0).settleQueues)

/-- QUE_CMD FLUSH (R269). -/
def execQueFlush (q : Nat) (s : State) : Res :=
  ok (if !s.regLive ∨ s.que.cmdBusy ∨ 2 ^ 20 ≤ q then s
    else if !(s.queue q).enabled then s.queResult 3
    else ((s.onQueue q fun r => { r with flushing := true, halted := true }).onQue fun x => { x with cmdBusy := true, cmdOp := 4, cmdQueue := q }).flushOn q)

/-- A write of QUE_CTRL (R252). -/
def execQueCtrlWrite (v : Word) (s : State) : Res :=
  ok (if !s.regLive then s
    else
      let s1 := s.onQue fun x => { x with ctrl := bit v 0 }
      if bit v 0 then s1.actPending.settleQueues else s1)

/-- A SYNC_IN edge (R260, R364): counted; in a power-state entry, in Dormant and in a wake one is kept and each further one missed. -/
def execSyncInEdge (rising : Bool) (s : State) : Res :=
  ok (if s.trunk.boot = .off ∨ (rising == s.que.falling) then s
    else
      let s1 := s.onQue fun x => { x with syncCnt := x.syncCnt + 1 }
      if !s.que.syncEn ∨ s.trunk.warmBusy then s1
      else if s.bud.power = .full then s1.syncEdge.settleQueues
      else if s.bud.syncLatched then (s1.onSyncQueues fun r => { r with missed := r.missed + 1 }).wakeEvent .syncIn
      else (s1.onBud fun b => { b with syncLatched := true }).wakeEvent .syncIn)

/-- A signal reaches knot `n` (R262). -/
def execKnotSignal (n : Nat) (s : State) : Res := ok (if s.trunk.fwRunning ∧ n < 65536 then (s.settleQueues.signalKnot n).settleQueues else s)

/-- A write of QUE_KNOT_SIGNAL (R262): behind the BAR2 writes of its function that wait for a wake (R285). -/
def execQueKnotSignal (v : Word) (s : State) : Res :=
  ok (if !s.regLive ∨ !bit v 0 then s
    else if s.pcie.heldAcc.isEmpty then (s.settleQueues.signalKnot s.que.knotSel.toNat).settleQueues
    else s.onPcie fun p => { p with heldAcc := p.heldAcc ++ [.signal s.que.knotSel.toNat] })

/-- A write of QUE_KNOT_CFG (R265). -/
def execQueKnotCfg (v : Word) (s : State) : Res :=
  ok (if s.regLive then s.onKnot s.que.knotSel.toNat fun x => { x with t := BitVec.ofNat 16 (fld v 15 0), l := BitVec.ofNat 16 (fld v 31 16), p := 0 } else s)

/-- A write of QUE_KNOT_STATE (R263): the tokens are set and waiters served at once. -/
def execQueKnotState (v : Word) (s : State) : Res :=
  ok (if s.regLive then
      let n := s.que.knotSel.toNat
      (if n = 0 then s else ((s.settleQueues.onKnot n fun x => { x with k := BitVec.ofNat 16 (fld v 15 0) }).serveKnot n).settleQueues)
    else s)

end Sys2Proof.Machine
end

