-- ==== Sys2Proof/Machine/RegOps.lean ====
section
/-! DEFINITION. The BAR0 registers (chapters 00, 02 to 04, 06, 07, 09, 11 to 19): for each its value, what a read clears and what a write does (R9 to R12, R281 to R283). -/

namespace Sys2Proof.Machine

/-- A register as an access meets it; one that is not listed reads 0 and ignores writes. -/
structure Reg where
  value : Word := 0
  /-- Clears its RC fields. -/
  clear : State → State := fun s => s
  write : Word → State → State := fun _ s => s
  /-- A _LO register: its _HI value is latched by a read (R9). -/
  lo : Bool := false

/-- A value made of fields, each with its lowest bit. -/
def fields (l : List (Nat × Nat)) : Word := wordOf (l.foldl (fun n p => n + at_ p.1 p.2) 0)

/-- Bits [31:0] and [63:32] of a quantity. -/
def loOf (d : DWord) : Word := BitVec.ofNat 32 d.toNat
def hiOf (d : DWord) : Word := BitVec.ofNat 32 (d.toNat / 2 ^ 32)
/-- The quantity with either half written. -/
def setLo (d : DWord) (v : Word) : DWord := BitVec.ofNat 64 (at_ (hiOf d).toNat 32 + v.toNat)
def setHi (d : DWord) (v : Word) : DWord := BitVec.ofNat 64 (at_ v.toNat 32 + (loOf d).toNat)

/-- A 4 KiB-aligned address's _LO half: bits [11:0] read 0. -/
def page (v : Word) : Word := v &&& 0xFFFFF000#32

/-- The pair of registers of an RW address. -/
def pairReg (hi : Bool) (d : DWord) (mask : Word) (put : DWord → State → State) : Reg :=
  if hi then { value := hiOf d, write := fun v => put (setHi d v) } else { value := loOf d, lo := true, write := fun v => put (setLo d (v &&& mask)) }

/-- The pair of registers of an RO quantity. -/
def roPair (hi : Bool) (d : DWord) : Reg := if hi then { value := hiOf d } else { value := loOf d, lo := true }

/-- The state that a command's outcome leaves. -/
def Res.state (r : Res) (s : State) : State :=
  match r with
  | .next t => t
  | _ => s

-- Leaves (Tables 2-8 to 2-17, 3-6 to 3-14, 4-8 to 4-13).

/-- cadence_ns: the governor's cadence of 8 to 64 ns while the leaf has work, 0 otherwise (R56, Table 2-11). A leaf given work inside an interval takes the cadence in force. -/
def State.cadenceNow (s : State) (k : Nat) : Nat :=
  let l := s.leaf k
  let measuring : Bool := match l.meas with | some m => !m.done && !m.suspended | none => false
  if l.jobs.isEmpty && !measuring then 0 else clampN 8 64 (if l.cadence = 0 then s.bud.cadence else l.cadence).toNat

/-- LEF_STATUS. -/
def State.lefStatus (s : State) (k : Nat) : Word :=
  let l := s.leaf k
  let role := match l.role with | .active => 0 | .spare => 1 | .programming => 2 | .invalid => 3 | .fenced => 4
  fields [(s.cadenceNow k, 16), (b2n l.refCheckPass, 5), (b2n l.marker, 4), (b2n (s.zeroScale k), 3), (role, 0)]

/-- LEF_CAL_STATUS. -/
def Leaf.calStatus (l : Leaf) : Word :=
  fields [(l.generation.toNat, 24), ((if l.recalWanted then l.wantedCause else l.lastCause).toNat, 16), (b2n l.recalWanted, 8), (b2n l.meas.isSome, 7), (b2n l.mismatchActive, 6), (b2n l.mismatchSeen, 5),
          (b2n l.reprogramDue, 4), (b2n (nth {} l.cal 0).valid, 0), (b2n (nth {} l.cal 1).valid, 1), (b2n (nth {} l.cal 2).valid, 2)]

/-- The remap table that LEF_REMAP_i shows: while a leaf is programmed, the one being written (Table 2-17). -/
def Leaf.shownRemap (l : Leaf) : SMap (BitVec 16) := if l.role = .programming then l.record.remap else l.remap

/-- The digest that LEF_DIGEST_i shows: the target while the leaf is PROGRAMMING, 0 where it is ERASED (R110). -/
def Leaf.shownDigest (l : Leaf) : List Byte :=
  if l.role = .programming then l.targetDigest else if l.record.state = .erased then [] else l.record.digest

/-- LEF_TRIM_DATA. -/
def Leaf.trimData (l : Leaf) : Word :=
  let p := fld l.trimSel 12 11
  let c := fld l.trimSel 10 0
  let slot := nth {} l.cal p
  if p = 3 ∨ 1151 < c ∨ !slot.valid then 0 else wordOf (toBits 12 (smGet 0 slot.trims c))

/-- LEF_PROG_STATUS. -/
def Leaf.progWord (l : Leaf) : Word :=
  fields [(l.progRow.toNat, 20), (l.progPass.toNat, 18), (b2n l.releaseKnot, 12), (b2n l.draining, 11), (b2n (decide (20000 < l.record.cycles)), 10),
          (b2n (decide (18000 ≤ l.record.cycles)), 9), (l.progStep.toNat, 0)]

/-- Register of leaf `k` at an offset of its window. -/
def State.leafReg (s : State) (k off : Nat) : Reg :=
  let l := s.leaf k
  let on := fun (f : Leaf → Leaf) (s : State) => s.onLeaf k f
  match off with
  | 0x0000 => { value := fields [(l.slot.toNat, 16), (k / 72, 12), (k / 18 % 4, 8), (k % 18, 0)] }
  | 0x0004 => { value := wordOf l.width.toNat }
  | 0x0008 => { value := s.lefStatus k }
  | 0x000C => { value := fields [(l.rangeSecond.toNat, 2), (l.rangeFirst.toNat, 0)] }
  | 0x0010 => { value := wordOf l.errStatus.toNat, write := fun v => on fun l => { l with errStatus := l.errStatus &&& ~~~BitVec.ofNat 5 v.toNat } }
  | 0x0014 => { value := wordOf l.mismatchCnt.toNat, clear := on fun l => { l with mismatchCnt := 0 } }
  | 0x0018 => roPair false l.phaseCnt
  | 0x001C => roPair true l.phaseCnt
  | 0x0020 => { value := l.groupFence }
  | 0x0024 => { value := wordOf (sparesUsed l.shownRemap) }
  | 0x0800 => { value := l.progWord }
  | 0x0804 => { value := wordOf l.record.cycles }
  | 0x0808 => { value := fields [(l.progStatus.toNat, 24), (l.iterMax.toNat, 16), (l.iterMean.toNat, 0)] }
  | 0x080C => { value := fields [(l.progGroup.toNat, 16), (l.progKnot.toNat, 0)] }
  | 0x0810 => { value := wordOf l.record.pendingRemap.length }
  | 0x1000 => { value := l.calStatus, write := fun v => on fun l => { l with recalWanted := l.recalWanted && !bit v 8, mismatchSeen := l.mismatchSeen && !bit v 5 } }
  | 0x1004 => { value := l.calCtrl, write := fun v => on fun l => { l with calCtrl := v &&& 0x0001FF0F#32 } }
  | 0x1008 => { value := fields [(l.noiseSigma.toNat, 16), (l.mvmEst.toNat, 0)] }
  | 0x100C => { value := l.calMismatchCnt, clear := on fun l => { l with calMismatchCnt := 0 } }
  | 0x101C => { value := l.calAutoCnt, clear := on fun l => { l with calAutoCnt := 0 } }
  | 0x1020 => { value := wordOf l.trimSel.toNat, write := fun v => on fun l => { l with trimSel := BitVec.ofNat 13 (fld v 12 0) } }
  | 0x1024 => { value := l.trimData }
  | _ =>
    let i := fun (base : Nat) => (off - base) / 4
    if 0x0100 ≤ off ∧ off < 0x0180 then
      { value := fields [(b2n (bit l.outOfWindow (i 0x0100)), 16), (smGet 192 l.factoryCode (i 0x0100), 8), (smGet 0 l.lastCode (i 0x0100), 0)] }
    else if 0x0200 ≤ off ∧ off < 0x0300 then { value := wordOf (smGet 0 l.shownRemap (i 0x0200)).toNat }
    else if 0x0820 ≤ off ∧ off < 0x0840 then { value := wordOf (le l.shownDigest (off - 0x0820) 4) }
    else if 0x1010 ≤ off ∧ off < 0x101C then
      let p := nth {} l.cal (i 0x1010)
      { value := fields [(b2n p.valid, 31), (toBits 8 p.temp, 16), (p.load, 0)] }
    else if 0x1100 ≤ off ∧ off < 0x1180 then
      let code := fun (n : Nat) => nth 0 (nth {} l.cal n).refs (i 0x1100)
      { value := fields [(code 2, 16), (code 1, 8), (code 0, 0)] }
    else {}

-- Boughs (Tables 6-5, 6-6, 7-4 to 7-12).

/-- Code of BGH_STATUS.state (Table 7-6). -/
def BState.code : BState → Nat
  | .idle => 0 | .running => 1 | .draining => 2 | .squashing => 3 | .drained => 4 | .fenced => 5 | .inReset => 6

/-- State of bough `b`. A squash completes within its step, so SQUASHING is never seen. -/
def State.boughState (s : State) (b : Nat) : BState :=
  let x := s.bough b
  if s.inReset (standOf b) then .inReset
  else if x.fenced then .fenced
  else if x.drained then .drained
  else if x.draining then .draining
  else if x.task.isSome ∨ !x.epochs.isEmpty then .running else .idle

/-- Present clock of bough `b`, MHz: 0 while stopped, 8 % up while the logic part runs (R331). -/
def Bough.freqNow (x : Bough) : Nat := if x.clockStopped then 0 else if x.logicRunning then min 1944 (x.freqMhz.toNat * 108 / 100) else x.freqMhz.toNat

/-- Register of bough `b` at an offset of its window below the leaves. -/
def State.boughReg (s : State) (b off : Nat) : Reg :=
  let x := s.bough b
  let on := fun (f : Bough → Bough) (s : State) => s.onBough b f
  let ctx := match x.task with | some t => fld t.trec.context 17 0 | none => 0
  match off with
  | 0x0000 => { value := fields [(1, 31), (b / 4, 12), (b % 4, 8), (b, 0)] }
  | 0x0004 => { value := fields [(x.freqNow, 16), ((s.boughState b).code, 0)] }
  | 0x0008 => { value := fields [(b2n x.task.isSome, 31), (ctx, 0)] }
  | 0x1000 => { value := fields [(x.program, 16), (x.ck.pc, 0)] }
  | 0x1004 => { value := fields [(x.retiredEpoch.toNat, 16), (x.issuedEpoch.toNat, 0)] }
  | 0x1008 => roPair false x.retireCnt
  | 0x100C => roPair true x.retireCnt
  | 0x2000 => { value := x.raCtrl, write := fun v => on fun x => { x with raCtrl := v &&& 0x0000033F#32 } }
  | 0x2004 =>
    let ahead := match x.epochs with | e :: _ => min 3 (x.layer - e.layer) | [] => 0
    { value := fields [(b2n x.stalledCredit, 8), (b2n (decide (x.wait = .dep)), 7), (b2n (decide (x.wait = .lines)), 6), (ahead, 4), (x.epochs.length, 0)] }
  | 0x2008 => { value := fields [(x.highWater.toNat, 16), (x.held.length, 0)], clear := on fun x => { x with highWater := 0 } }
  | 0x200C => { value := x.squashCnt, clear := on fun x => { x with squashCnt := 0 } }
  | 0x2010 => { value := x.failCnt, clear := on fun x => { x with failCnt := 0 } }
  | 0x2014 => { value := x.lastSquash }
  | 0x2018 => { value := fields [(x.depStalls.toNat, 16), (x.holdStalls.toNat, 0)], clear := on fun x => { x with depStalls := 0, holdStalls := 0 } }
  | 0x2020 => { value := wordOf x.pipeErr.toNat, write := fun v => on fun x => { x with pipeErr := x.pipeErr &&& ~~~BitVec.ofNat 5 v.toNat } }
  | 0x3000 => { value := x.qntCtrl, write := fun v => on fun x => { x with qntCtrl := v &&& 0x000000C7#32 } }
  | 0x3004 => { value := x.qntLast }
  | 0x3008 => { value := x.convHiCnt, clear := on fun x => { x with convHiCnt := 0 } }
  | 0x300C => { value := x.convLoCnt, clear := on fun x => { x with convLoCnt := 0 } }
  | 0x3010 => { value := x.clipCnt, clear := on fun x => { x with clipCnt := 0 } }
  | 0x3014 => { value := x.nonfiniteCnt, clear := on fun x => { x with nonfiniteCnt := 0 } }
  | 0x3018 => { value := x.qntSquashCnt, clear := on fun x => { x with qntSquashCnt := 0 } }
  | 0x301C => { value := x.persistCnt, clear := on fun x => { x with persistCnt := 0 } }
  | 0x3020 => { value := fields [(x.rangeRaised.toNat, 16), (x.rangeLowered.toNat, 0)], clear := on fun x => { x with rangeRaised := 0, rangeLowered := 0 } }
  | 0x3024 => { value := x.badBlockCnt, clear := on fun x => { x with badBlockCnt := 0 } }
  | 0x4000 => { value := wordOf (nsum (x.tables.map fun p => 2 ^ p.1)) }
  | _ => {}

-- Stands (Tables 9-14, 9-15, 11-10, 14-11, 15-8, 15-9).

/-- Code of STD_RST_STATUS.state (Table 15-9). -/
def RstState.code : RstState → Nat
  | .normal => 0 | .dumping => 1 | .stopping => 2 | .holding => 3 | .reinit => 4 | .restoring => 5 | .replaying => 6 | .fenced => 7

/-- STD_RST_STATUS. -/
def Stand.rstStatus (d : Stand) : Word :=
  fields [(d.rstState.code, 29), (b2n d.rstIgnored, 28), (d.rstPath.toNat, 26), (d.rstTrigger.toNat, 24), (b2n d.tablesLost, 23), (b2n d.writeBackFailed, 22),
          (b2n d.suspectOverflow, 21)]

/-- STD_CNP_STATUS. -/
def Stand.cnpStatus (d : Stand) : Word :=
  let state := match d.cnpState with | .none => 0 | .loaded => 1 | .loading => 2 | .quiesced => 3
  let signed := match d.canopy with | some c => c.signed | none => false
  fields [(d.cnpRound.toNat, 24), (d.cnpRounds.toNat, 16), (b2n signed, 5), (b2n d.cnpPartial, 4), (state, 0)]

/-- Reason that bough `b` is not retiring (STD_HB_WAIT, R343, R363). -/
def State.waitReason (s : State) (b : Nat) : Nat :=
  let x := s.bough b
  let d := s.stand (standOf b)
  if !s.enabled b then 0
  else if s.inReset (standOf b) then 8
  else if s.bud.power ≠ .full then 7
  else if d.rstState = .replaying then 9
  else if x.fenced then 10
  else if x.logicRunning ∨ x.drained then 5
  else match x.wait with
    | .knot n => if s.ael.armed.any fun p => p.2.ent.done == n && p.2.inFlight then 4 else 2
    | .xrecv .. => 3
    | _ => if x.task.isSome ∨ !x.epochs.isEmpty then 1 else if !d.holdOps.isEmpty then 6 else 0

/-- STD_SUSPECT_i. -/
def Suspect.word (u : Suspect) : Word :=
  let v := match u.verdict with | .pending => 0 | .running => 1 | .cleared => 2 | .guilty => 3 | .unresolved => 4
  fields [(1, 31), (v, 28), (min 3 u.attempts, 26), (u.bough, 22), (u.context, 0)]

/-- Register of stand `i` at an offset of its window below the boughs. -/
def State.standReg (s : State) (i off : Nat) : Reg :=
  let d := s.stand i
  let on := fun (f : Stand → Stand) (s : State) => s.onStand i f
  let loaded : Option Canopy := match d.cnpState with | .none => none | _ => d.canopy
  match off with
  | 0x0000 => { value := d.rstCtrl, write := fun v s => (execStandReset i v s).state s }
  | 0x0004 => { value := d.rstStatus, write := fun v => on fun d => { d with rstIgnored := d.rstIgnored && !bit v 28 } }
  | 0x0008 => { value := fields [(d.cntFallback.toNat, 16), (d.cntMain.toNat, 0)] }
  | 0x000C => { value := d.rstTime }
  | 0x0100 => { value := d.hbDispatch }
  | 0x0104 => { value := d.hbComplete }
  | 0x0108 => { value := fields ((List.range 4).map fun j => (s.waitReason (4 * i + j), 4 * j)) }
  | 0x8000 => { value := d.cnpStatus }
  | 0x8004 => roPair false (match loaded with | some c => c.imageId | none => 0)
  | 0x8008 => roPair true (match loaded with | some c => c.imageId | none => 0)
  | 0x800C => roPair false (if loaded.isSome then d.cnpAddr else 0)
  | 0x8010 => roPair true (if loaded.isSome then d.cnpAddr else 0)
  | 0x8014 => { value := fields [(d.loadStatus.toNat, 24), (d.loadSection.toNat, 20), (d.loadEntry.toNat, 0)] }
  | 0x8018 => { value := d.loadCnt }
  | 0x9000 => { value := d.schCtrl, write := fun v => on fun d => { d with schCtrl := v &&& 0x00FFFFFF#32 } }
  | 0x9004 => { value := fields [(((s.cachedOf i).filter fun p => p.2.pinned).length, 16), ((s.cachedOf i).length, 0)] }
  | 0x9008 => { value := d.missCnt, clear := on fun d => { d with missCnt := 0 } }
  | 0x900C => { value := d.yieldCnt, clear := on fun d => { d with yieldCnt := 0 } }
  | 0xA000 => { value := fields [(d.xylRetry.toNat, 16), (d.xylPoison.toNat, 0)], clear := on fun d => { d with xylRetry := 0, xylPoison := 0 } }
  | 0xA004 => { value := wordOf d.xylStatus.toNat, write := fun v => on fun d => { d with xylStatus := d.xylStatus &&& ~~~BitVec.ofNat 3 v.toNat } }
  | 0xC000 => { value := d.hbmCtrl, write := fun v => on fun d => { d with hbmCtrl := v &&& 0x00FF01FF#32 } }
  | 0xC004 => roPair false d.ueAddr
  | 0xC008 => roPair true d.ueAddr
  | 0xC00C => { value := fields [(d.scrubActive.toNat, 8), (d.ueSeen.toNat, 0)], write := fun v => on fun d => { d with ueSeen := d.ueSeen &&& ~~~BitVec.ofNat 8 v.toNat } }
  | 0xC050 => { value := fields [(d.poisonResets.toNat, 16), (d.poisoned.toNat, 0)], clear := on fun d => { d with poisonResets := 0, poisoned := 0 } }
  | _ =>
    if 0x0200 ≤ off ∧ off < 0x0240 then { value := match d.suspects[(off - 0x0200) / 4]? with | some u => u.word | none => 0 }
    else if 0xC010 ≤ off ∧ off < 0xC030 then
      { value := smGet 0 d.ceCnt ((off - 0xC010) / 4), clear := on fun d => { d with ceCnt := smSet d.ceCnt ((off - 0xC010) / 4) 0 } }
    else if 0xC030 ≤ off ∧ off < 0xC050 then
      { value := smGet 0 d.ueCnt ((off - 0xC030) / 4), clear := on fun d => { d with ueCnt := smSet d.ueCnt ((off - 0xC030) / 4) 0 } }
    else {}

-- Bud and heartwood store (Tables 16-7, 17-10, 17-11).

/-- BUD_PWR_STATUS: SHADE while every enabled bough island is stopped (R360); a device in Bare shows DORMANT. -/
def State.pwrStatus (s : State) : Word :=
  let stopped := (s.allBoughs.filter fun b => (s.bough b).clockStopped).length
  let state := match s.bud.power with
    | .full => if !s.allBoughs.isEmpty ∧ stopped = s.allBoughs.length then 1 else 0
    | .entering => 2
    | .dormant | .bare => 3
    | .waking => 4
  fields [(s.bud.lastWake.toNat, 20), (stopped, 8), (state, 0)]

/-- BUD_GOV_STATUS. -/
def State.govStatus (s : State) : Word :=
  let g := if s.grantMax < s.bud.grant then s.grantMax else s.bud.grant
  fields [((rhe (g / 100000000)).toNat, 24), (s.bud.fPct.toNat, 17), (s.bud.working.toNat, 8), (s.bud.loadPct.toNat, 0)]

/-- BUD_THERM_STATUS. -/
def Bud.thermStatus (b : Bud) : Word :=
  fields [(b2n b.tripped, 31), (b2n b.throttling, 30), (b2n b.thermN, 29), (b.hotIsland.toNat, 24), (b.tMax.toNat, 0)]

/-- Register of the bud at an offset of its block. -/
def State.budReg (s : State) (off : Nat) : Reg :=
  let b := s.bud
  let on := fun (f : Bud → Bud) (s : State) => s.onBud f
  match off with
  | 0x00 => { value := s.pwrStatus }
  | 0x04 => { write := fun v s => if fld v 1 0 = 1 then (execPwrReqDormant s).state s else if fld v 1 0 = 2 then (execPwrReqWake s).state s else s }
  | 0x08 => { value := b.pwrCtrl, write := fun v => on fun b => { b with pwrCtrl := v &&& 0x00FFFF03#32 } }
  | 0x0C => { value := wordOf b.pwrMode.toNat }
  | 0x10 => { value := wordOf b.wakeEn.toNat, write := fun v => on fun b => { b with wakeEn := BitVec.ofNat 4 (fld v 3 0) } }
  | 0x14 => { value := wordOf b.wakeLatch.toNat }
  | 0x18 => { value := fields [(b.refused.toNat, 16), (b.abortedCnt.toNat, 0)], clear := on fun b => { b with refused := 0, abortedCnt := 0 } }
  | 0x1C => { value := fields [(b2n b.reasonAborted, 7), (b.reason.toNat, 0)] }
  | 0x20 => { value := b.refuseUnit }
  | 0x24 => { value := fields [(b.bareCnt.toNat, 16), (b.dormantCnt.toNat, 0)] }
  | 0x28 => { value := wordOf b.capW.toNat, write := fun v s => (execBudPwrCap v s).state s }
  | 0x2C => { value := s.govStatus }
  | 0x30 => { value := fields [(b.mean.toNat, 16), (b.peak.toNat, 0)], clear := on fun b => { b with peak := 0 } }
  | 0x34 => { value := wordOf b.thermCtrl.toNat, write := fun v => on fun b => { b with thermCtrl := BitVec.ofNat 16 (fld v 15 0) } }
  | 0x38 => { value := b.thermStatus }
  | 0x3C => { value := fields [(b.capExceed.toNat, 16), (b.throttleCnt.toNat, 0)], clear := on fun b => { b with capExceed := 0, throttleCnt := 0 } }
  | _ => {}

/-- HWS_STATUS. -/
def Store.status (d : Store) : Word :=
  let state := match d.state with | .ready => 0 | .recovering => 1 | .readOnly => 2
  fields [(b2n (decide (d.busy ≠ .idle)), 31), (state, 28), (min 15 d.queue.length, 24), (d.badSectors.toNat, 16), (min 1519 d.erasedCount, 0)]

/-- Largest erase count of a log or ring sector. -/
def Store.eraseMax (d : Store) : Nat := d.rings.foldl (fun (m : Nat) (r : Ring) => max m r.erases) (d.log.foldl (fun (m : Nat) (p : Nat × Sector) => max m p.2.erases) 0)

/-- Register of the heartwood store at an offset of its block. -/
def State.storeReg (s : State) (off : Nat) : Reg :=
  let d := s.store
  let c := d.counters
  match off with
  | 0x00 => { value := d.status }
  | 0x04 => { value := wordOf d.errStatus.toNat, write := fun v s => s.onStore fun d => { d with errStatus := d.errStatus &&& ~~~BitVec.ofNat 6 v.toNat } }
  | 0x08 => { value := d.ignored }
  | 0x0C => { value := d.writeCnt, clear := fun s => s.onStore fun d => { d with writeCnt := 0 } }
  | 0x10 => { value := wordOf d.eraseMax }
  | 0x14 => { value := wordOf d.scanTime.toNat }
  | 0x18 => { value := fields [(c.debug, 24), (c.lifecycle, 20), (c.svn, 12), (c.ownership, 0)] }
  | 0x20 => { value := wordOf (nth {} d.rings 0).value }
  | 0x24 => { value := wordOf (nth {} d.rings 1).value }
  | 0x28 => { value := wordOf (nth {} d.rings 2).value }
  | _ => {}

-- Trunk (Tables 0-1, 0-2, 15-7, 15-9, 18-6, 19-11).

/-- TRK_RST_STATUS and TRK_HEARTBEAT. -/
def Trunk.rstStatus (t : Trunk) : Word := fields [(b2n t.warmBusy, 31), (t.lastCause.toNat, 24), (t.warmCount.toNat, 0)]
def Trunk.heartbeat (t : Trunk) : Word := fields [(t.hb1.toNat, 16), (t.hb0.toNat, 0)]

/-- Register of the trunk at an offset of its block, the queue registers apart. -/
def State.trunkReg (s : State) (off : Nat) : Reg :=
  let t := s.trunk
  let c := s.store.counters
  let on := fun (f : Trunk → Trunk) (s : State) => s.onTrunk f
  match off with
  | 0x0000 => { value := t.partId }
  | 0x0004 => { value := wordOf t.coreMap.toNat }
  | 0x1000 => { value := wordOf (b2n t.warmDump), write := fun v s => if bit v 31 then (execColdReset s).state s else (execWarmReset v s).state s }
  | 0x1004 => { value := t.rstStatus }
  | 0x1008 => { value := t.heartbeat }
  | 0x1010 => pairReg false t.hostEpoch 0xFFFFFFFF#32 fun d => on fun t => { t with hostEpoch := d }
  | 0x1014 => pairReg true t.hostEpoch 0 fun d => on fun t => { t with hostEpoch := d }
  | 0x1018 => pairReg false t.recBase 0xFFFFF000#32 fun d => on fun t => { t with recBase := d }
  | 0x101C => pairReg true t.recBase 0 fun d => on fun t => { t with recBase := d }
  | 0x1020 =>
    { value := fields [(b2n t.recEnable, 31), (t.recVector.toNat, 16), (b2n t.recIrqEn, 15), (t.recLog2.toNat, 0)],
      write := fun v => on fun t => { t with recEnable := bit v 31, recVector := BitVec.ofNat 11 (fld v 26 16), recIrqEn := bit v 15, recLog2 := BitVec.ofNat 5 (fld v 4 0) } }
  | 0x1024 => { value := t.recHead }
  | 0x1028 => { value := t.recTail, write := fun v => on fun t => { t with recTail := v } }
  | 0x102C => { value := t.recLost, clear := on fun t => { t with recLost := 0 } }
  | 0x1030 => pairReg false t.dumpBase 0xFFFFFFFF#32 fun d => on fun t => { t with dumpBase := d }
  | 0x1034 => pairReg true t.dumpBase 0 fun d => on fun t => { t with dumpBase := d }
  | 0x1038 => pairReg false t.dumpHost 0xFFFFFFFF#32 fun d => on fun t => { t with dumpHost := d }
  | 0x103C => pairReg true t.dumpHost 0 fun d => on fun t => { t with dumpHost := d }
  | 0x1040 =>
    { value := fields [(t.dumpHostKib.toNat, 16), (t.dumpBaseKib.toNat, 0)],
      write := fun v => on fun t => { t with dumpHostKib := BitVec.ofNat 16 (fld v 31 16), dumpBaseKib := BitVec.ofNat 16 (fld v 15 0) } }
  | 0x1044 => { value := fields [(t.dumpStatus.toNat, 24), (b2n (!t.dumps.isEmpty), 23), (t.dumpUnreach.toNat, 16), (t.dumpLen.toNat, 0)] }
  | 0x3000 => { value := fields [(b2n t.identityOk, 31), (b2n t.debugActive, 30), (t.runningSlot, 28), (c.lifecycle, 26), (c.ownership, 22), (c.svn, 15), (c.debug, 9)] }
  | 0x3004 =>
    { value := fields [(t.slotASvn.toNat, 24), (t.slotBSvn.toNat, 16), (s.slotState.active, 14), (s.slotState.trial, 12), (s.slotState.attempts, 10), (t.bootResult.toNat, 8)] }
  | 0x3008 => { value := wordOf t.verifyTime.toNat }
  | 0x300C => { value := wordOf t.xmssNext }
  | 0x3010 => { value := wordOf t.xmssLimit }
  | 0x4000 => { value := fields [(b2n (!s.mgmt.pending.isEmpty), 31), (s.mgmt.vdmEid.toNat, 16), (s.mgmt.smbEid.toNat, 8), (s.mgmt.smbAddr.toNat, 0)] }
  | 0x4004 => { value := wordOf s.mgmt.alert.toNat, write := fun v s => s.onMgmt fun m => { m with alert := m.alert &&& ~~~BitVec.ofNat 6 v.toNat } }
  | 0x4008 => { value := wordOf s.mgmt.alertEn.toNat, write := fun v s => s.onMgmt fun m => { m with alertEn := BitVec.ofNat 6 (fld v 5 0) } }
  | 0x400C => { value := fields [(s.mgmt.requests.toNat, 16), (s.mgmt.errors.toNat, 0)], clear := fun s => s.onMgmt fun m => { m with requests := 0, errors := 0 } }
  | _ => if 0x3020 ≤ off ∧ off < 0x3040 then { value := wordOf (le s.idHash (off - 0x3020) 4) } else {}

-- Queue engine (Tables 11-8, 11-9).

/-- QUE_OP_STATUS of the selected handle and leaf. -/
def State.opStatus (s : State) : Word :=
  let h := s.que.opHandle.toNat
  let k := s.que.opLeaf.toNat
  match s.opOfHandle h with
  | some i =>
    match s.op i with
    | some o =>
      let leaf := match o.body with | .calib c => smGet 0xFF c.status k | _ => 0xFF
      fields [(o.opcode.toNat % 256, 24), (0xFF, 16), (leaf, 8), (b2n o.suspended, 1), (1, 0)]
    | none => 0
  | none =>
    match smFind s.trunk.opDone (h % 256) with
    | some d => if d.handle = h then fields [(d.code, 16), (smGet 0xFF d.leaves k, 8)] else fields [(0xFF, 16), (0xFF, 8)]
    | none => fields [(0xFF, 16), (0xFF, 8)]

/-- Register of the queue engine at an offset from 0x008_0000. -/
def State.queReg (s : State) (off : Nat) : Reg :=
  let q := s.que
  let x := s.knot q.knotSel.toNat
  let on := fun (f : Que → Que) (s : State) => s.onQue f
  match off with
  | 0x00 => { value := wordOf (b2n q.ctrl), write := fun v s => (execQueCtrlWrite v s).state s }
  | 0x08 => pairReg false q.tableBase 0xFFFFF000#32 fun d => on fun q => if q.ctrl then q else { q with tableBase := d }
  | 0x0C => pairReg true q.tableBase 0 fun d => on fun q => if q.ctrl then q else { q with tableBase := d }
  | 0x10 => pairReg false q.ctxBase 0xFFFFF000#32 fun d => on fun q => if q.ctrl then q else { q with ctxBase := d }
  | 0x14 => pairReg true q.ctxBase 0 fun d => on fun q => if q.ctrl then q else { q with ctxBase := d }
  | 0x18 =>
    { write := fun v s =>
        let n := fld v 19 0
        match fld v 31 28 with
        | 1 => (execQueEnable n s).state s
        | 2 => (execQueDisable n s).state s
        | 3 => (execQueResume n s).state s
        | 4 => (execQueFlush n s).state s
        | _ => s }
  | 0x1C => { value := fields [(b2n q.cmdBusy, 31), (q.cmdResult.toNat, 0)] }
  | 0x20 => { value := fields [(b2n q.falling, 1), (b2n q.syncEn, 0)], write := fun v => on fun q => { q with falling := bit v 1, syncEn := bit v 0 } }
  | 0x24 => { value := q.syncCnt }
  | 0x28 => { value := q.dbErr, clear := on fun q => { q with dbErr := 0 } }
  | 0x2C => { value := wordOf q.holdCtx.toNat }
  | 0x30 => { value := fields [(q.holdCause.toNat, 24), (q.holdQueue.toNat, 0)] }
  | 0x40 => { value := wordOf q.knotSel.toNat, write := fun v => on fun q => { q with knotSel := BitVec.ofNat 16 (fld v 15 0) } }
  | 0x44 => { value := fields [(x.l.toNat, 16), (x.t.toNat, 0)], write := fun v s => (execQueKnotCfg v s).state s }
  | 0x48 => { value := fields [(x.p.toNat, 16), (x.k.toNat, 0)], write := fun v s => (execQueKnotState v s).state s }
  | 0x4C => { value := x.f }
  | 0x50 => { write := fun v s => (execQueKnotSignal v s).state s }
  | 0x54 =>
    { value := fields [(b2n x.overflow, 1), (b2n (!x.waiters.isEmpty), 0)],
      write := fun v s => s.onKnot s.que.knotSel.toNat fun x => { x with overflow := x.overflow && !bit v 1 } }
  | 0x60 =>
    { value := fields [(q.opLeaf.toNat, 16), (q.opHandle.toNat, 0)],
      write := fun v => on fun q => { q with opLeaf := BitVec.ofNat 9 (fld v 24 16), opHandle := BitVec.ofNat 16 (fld v 15 0) } }
  | 0x64 => { value := s.opStatus }
  | _ => {}

-- PCIe (Tables 12-5 to 12-7, R279).

/-- PCI_LINK_STATUS. -/
def Pcie.linkStatus (p : Pcie) : Word :=
  fields [(p.width.toNat, 8), (b2n p.flit, 7), (b2n p.refclkExt, 6), (p.rate.toNat, 3), (p.linkState.toNat, 0)]

/-- Word `w` of an MSI-X table of function `f`: four words to an entry (R279). -/
def State.msixReg (s : State) (f w : Nat) : Reg :=
  let n := w / 4
  let e := smGet {} (s.func f).msix n
  let put := fun (g : MsixEnt → MsixEnt) (s : State) => s.onFunc f fun p => { p with msix := smUpd {} p.msix n g }
  match w % 4 with
  | 0 => { value := loOf e.addr, write := fun v => put fun e => { e with addr := setLo e.addr (v &&& 0xFFFFFFFC#32) } }
  | 1 => { value := hiOf e.addr, write := fun v => put fun e => { e with addr := setHi e.addr v } }
  | 2 => { value := e.data, write := fun v => put fun e => { e with data := v } }
  | _ => { value := wordOf (b2n e.masked), write := fun v s => (put (fun e => { e with masked := bit v 0 }) s).raisePending f }

/-- Word `w` of a pending-bit array. -/
def State.pbaReg (s : State) (f w : Nat) : Reg := { value := wordOf (nsum (((s.func f).pba.filter fun v => v / 32 == w).map fun v => 2 ^ (v % 32))) }

/-- Register of the PCIe block at an offset from 0x020_0000. -/
def State.pcieReg (s : State) (off : Nat) : Reg :=
  let p := s.pcie
  let part := fld s.trunk.partId 15 0
  match off with
  | 0x00 => { value := fields [(if part = 0 then 0x2000 else part, 16), (0x1F6B, 0)] }
  | 0x04 => { value := p.linkStatus }
  | 0x08 => { value := wordOf p.errStatus.toNat, write := fun v s => s.onPcie fun p => { p with errStatus := p.errStatus &&& ~~~BitVec.ofNat 7 v.toNat } }
  | 0x0C => { value := fields [(p.errEvent.toNat, 8), (p.errFunc.toNat, 0)] }
  | 0x10 => roPair false p.errAddr
  | 0x14 => roPair true p.errAddr
  | 0x18 => { value := p.dmaErr, clear := fun s => s.onPcie fun p => { p with dmaErr := 0 } }
  | 0x1C => { value := p.readyTime }
  | 0x20 => { value := p.vfFlr }
  | _ =>
    if 0x10000 ≤ off ∧ off < 0x18000 then s.msixReg 0 ((off - 0x10000) / 4)
    else if 0x18000 ≤ off ∧ off < 0x18100 then s.pbaReg 0 ((off - 0x18000) / 4)
    else {}

/-- Register of virtual function `v`'s BAR0 (R289). -/
def State.vfReg (s : State) (v off : Nat) : Reg :=
  if off < 0x400 then s.msixReg v (off / 4)
  else if 0x800 ≤ off ∧ off < 0x808 then s.pbaReg v ((off - 0x800) / 4)
  else if off = 0x1000 then { value := fields [(v, 16), (fld s.trunk.partId 15 0, 0)] }
  else {}

-- The map (Tables 12-3, 12-4).

/-- Enabling the collective engine lets armed entries take tokens; disabling it ends their waits (Table 13-6). -/
def State.setCollEn (s : State) (on : Bool) : State :=
  let s1 := s.onAel fun a => { a with collEn := on }
  if on then s1.ael.armed.foldl (fun (s : State) (p : Nat × Armed) => s.armWait p.1) s1
  else s1.onQue fun x => x.unwait fun w => match w with | .coll _ => true | _ => false

/-- The registers that the bud decodes (R348). -/
def budDecoded (off : Nat) : Bool :=
  decide (0x100000 ≤ off ∧ off < 0x200000) || off == 0x1000 || off == 0x1004 || off == 0x1008 || decide (0x4000 ≤ off ∧ off < 0x4010)

end Sys2Proof.Machine
end

