-- ==== Sys2Proof/Machine/Management.lean ====
section
/-! DEFINITION. Management messages, MCTP control commands and the SMBus alert response (R419, R421 to R424). -/

namespace Sys2Proof.Machine

/-- Response payload of GET_IDENTITY (Table 19-12). -/
def State.identityBytes (s : State) : List Byte :=
  let c := s.store.counters
  leBytes 4 s.trunk.partId.toNat ++ s.idHash ++ [byteOf c.lifecycle, byteOf c.ownership, byteOf c.svn, byteOf s.trunk.runningSlot] ++ sub s.trunk.fwDigest 0 32

/-- GET_IDENTITY. -/
def execGetIdentity (r : MReq) (s : State) : Res :=
  ok (s.trunkServe r 0x01 true fun s => if r.payload ≠ [] then s.answer r.via 0x01 .badRequest [] else s.answer r.via 0x01 .success s.identityBytes)

/-- Response payload of GET_STATUS (Table 19-12). -/
def State.statusBytes (s : State) : List Byte :=
  let word := fun (w : Word) => leBytes 4 w.toNat
  word s.pwrStatus ++ word s.trunk.rstStatus ++ word s.trunk.heartbeat ++ word (wordOf s.trunk.coreMap.toNat) ++ word s.pcie.linkStatus ++ word s.store.status
    ++ word (wordOf s.mgmt.alert.toNat) ++ (List.range 4).flatMap fun i => word (s.stand i).rstStatus ++ word (s.stand i).cnpStatus

/-- GET_STATUS, served by the bud in every state (R423). -/
def execGetStatus (r : MReq) (s : State) : Res :=
  ok (s.mgmtServe r 0x02 fun s => if r.payload ≠ [] then s.answer r.via 0x02 .badRequest [] else s.answer r.via 0x02 .success s.statusBytes)

/-- Island `i` is powered in the present power state (Table 16-1). -/
def State.powered (s : State) (i : Nat) : Bool :=
  if i = 28 then true
  else if s.bud.power = .bare ∨ s.trunk.boot = .tripped then i == 26 && s.bud.power == .bare
  else if i < 16 then s.enabled i && s.bud.power != .dormant
  else true

/-- Value of telemetry sensor `i` (R424, Table 19-14), low 32 bits. -/
def State.sensor (s : State) (i : Nat) : Nat :=
  let b := s.bud
  let off := 0x80000000
  if i = 0 then b.vinMv
  else if i = 1 then b.inMa
  else if i = 2 then b.mean.toNat
  else if i = 3 then toBits 32 (sext 16 b.tMax.toNat)
  else if i < 33 then (if s.powered (i - 4) then toBits 32 (smGet 0 b.temps (i - 4)) else off)
  else if i < 35 then (if s.powered 20 then toBits 32 (smGet 0 b.hbmTemp (i - 33)) else off)
  else if i = 35 then b.capW.toNat
  else if i = 36 then fld s.govStatus 31 24
  else if i = 37 then b.loadPct.toNat
  else if i = 38 then (nth {} s.store.rings 1).value
  else (nth {} s.store.rings 0).value

/-- GET_TELEMETRY, served by the bud: sensors 0 to 39 (R424). -/
def execGetTelemetry (r : MReq) (s : State) : Res :=
  let mask := le r.payload 0 8
  ok (s.mgmtServe r 0x03 fun s =>
    if r.payload.length ≠ 8 ∨ 2 ^ 40 ≤ mask then s.answer r.via 0x03 .badRequest []
    else s.answer r.via 0x03 .success ((bitsSet 40 mask).flatMap fun i => byteOf i :: leBytes 4 (s.sensor i)))

/-- READ_RECORDS (R337, R422). -/
def execReadRecords (r : MReq) (s : State) : Res :=
  let n := le r.payload 4 1
  ok (s.trunkServe r 0x04 false fun s =>
    if r.payload.length ≠ 5 ∨ n = 0 ∨ 16 < n then s.answer r.via 0x04 .badRequest []
    else s.answer r.via 0x04 .success (((s.trunk.onDie.filter fun e => decide (le r.payload 0 4 ≤ e.seq.toNat)).take n).flatMap ERec.bytes))

/-- CLEAR_ALERT, served by the bud (R419). -/
def execClearAlert (r : MReq) (s : State) : Res :=
  ok (s.mgmtServe r 0x05 fun s =>
    if r.payload.length ≠ 4 then s.answer r.via 0x05 .badRequest []
    else (s.onMgmt fun m => { m with alert := m.alert &&& ~~~BitVec.ofNat 6 (le r.payload 0 1) }).answer r.via 0x05 .success [])

/-- RESET of kind stand: its RW bits are written and the reset requested, after the answer (R344, R422, R423). -/
def execMgmtStandReset (r : MReq) (s : State) : Res :=
  let i := le r.payload 1 1
  ok (s.trunkServe r 0x06 false fun s =>
    if r.payload.length ≠ 4 ∨ le r.payload 0 1 ≠ 1 ∨ 3 < i then s.answer r.via 0x06 .badRequest []
    else
      let s1 := (s.answer r.via 0x06 .success []).onStand i fun d =>
        { d with rstCtrl := (d.rstCtrl &&& 0x0000FFFF#32) ||| (wordOf (at_ (le r.payload 2 2) 16) &&& 0x7FE00000#32) }
      if s1.bud.power = .full ∨ s1.bud.power = .entering then s1.requestReset i 3 else s1)

/-- A RESET payload of a kind that the bud serves. -/
def resetPayload (bs : List Byte) (kind : Nat) : Bool := decide (1 ≤ bs.length ∧ bs.length ≤ 4 ∧ le bs 0 1 = kind)

/-- RESET of kind warm, served by the bud: answered before the reset begins (R423). -/
def execMgmtWarmReset (r : MReq) (s : State) : Res :=
  ok (s.mgmtServe r 0x06 fun s =>
    if !resetPayload r.payload 2 then s.answer r.via 0x06 .badRequest [] else (s.answer r.via 0x06 .success []).beginWarm 4)

/-- RESET of kind cold, served by the bud: answered before the reset begins (R423). -/
def execMgmtColdReset (r : MReq) (s : State) : Res :=
  ok (s.mgmtServe r 0x06 fun s =>
    if !resetPayload r.payload 3 then s.answer r.via 0x06 .badRequest [] else (s.answer r.via 0x06 .success []).selfColdReset)

/-- POWER with target Dormant (R361, R362). -/
def execMgmtPowerDormant (r : MReq) (s : State) : Res :=
  ok (s.trunkServe r 0x07 false fun s =>
    if r.payload ≠ [1] then s.answer r.via 0x07 .badRequest []
    else match s.refusal with
      | some (reason, _) => (s.requestDormant 1).answer r.via 0x07 .powerRefused [byteOf reason]
      | none => (s.requestDormant 1).answer r.via 0x07 .success [])

/-- POWER with target wake, served by the bud (R364, R423). -/
def execMgmtPowerWake (r : MReq) (s : State) : Res :=
  ok (s.mgmtServe r 0x07 fun s =>
    if r.payload ≠ [2] then s.answer r.via 0x07 .badRequest [] else (s.wakeEvent .mgmt).answer r.via 0x07 .success [])

/-- SET_POWER_CAP, served by the bud (R372). -/
def execSetPowerCap (r : MReq) (s : State) : Res :=
  let w := le r.payload 0 1
  ok (s.mgmtServe r 0x08 fun s =>
    if r.payload.length ≠ 1 ∨ 127 < w then s.answer r.via 0x08 .badRequest []
    else (s.onBud fun b => { b with capW := BitVec.ofNat 7 w }).answer r.via 0x08 .success [])

/-- Parse a role record (R290, Table 17-13). -/
def parseRole (bs : List Byte) : Option RoleRec :=
  let g := fun o n => le bs o n
  let lens := [g 8 1, g 9 1, g 10 1, g 11 1]
  let zero := g 3 1 == 0 && g 12 4 == 0
  let noPlace := g 1 1 == 0 && g 2 1 == 0
  let noLens := lens.all (· == 0)
  if bs.length ≠ 16 ∨ !zero then none
  else match g 0 1 with
    | 0 => if noPlace && noLens then some { systemId := wordOf (g 4 4) } else none
    | 1 => if noPlace && lens.all fun n => decide (n ≤ 16) then some { role := .manager, systemId := wordOf (g 4 4), ringLen := lens } else none
    | 2 => if noLens && decide (g 1 1 ≤ 3 ∧ g 2 1 ≤ 15) then some { role := .worker, ring := g 1 1, position := g 2 1, systemId := wordOf (g 4 4) } else none
    | _ => none

/-- WRITE_ROLE (R290): the record takes effect at the next cold reset. -/
def execWriteRole (r : MReq) (s : State) : Res :=
  ok (s.trunkServe r 0x09 false fun s =>
    match parseRole r.payload with
    | none => s.answer r.via 0x09 .badRequest []
    | some x =>
      if s.storeRefuses then s.answer r.via 0x09 .storeReadOnly []
      else (s.storeRec roleKey (.role x) .mgmt).awaitStore r.via 0x09 1 0 [])

/-- GET_QUOTE (R404 to R406). -/
def execGetQuote (r : MReq) (s : State) : Res :=
  ok (s.trunkServe r 0x10 false fun s => if r.payload.length ≠ 32 then s.answer r.via 0x10 .badRequest [] else s.quote r.via r.payload)

/-- GET_DEBUG_NONCE (R407). -/
def execGetDebugNonce (r : MReq) (nonce : List Byte) (s : State) : Res :=
  ok (s.trunkServe r 0x11 false fun s =>
    if r.payload ≠ [] then s.answer r.via 0x11 .badRequest []
    else (s.onTrunk fun t => { t with nonce := some (sub nonce 0 32) }).answer r.via 0x11 .success (sub nonce 0 32))

-- MCTP control commands (R421), with response bodies as DSP0236 lays them out.

/-- A control command is answered while the bud runs, its transport works and the store does not hold SMBus (R385). -/
def State.mctp (s : State) (via : Transport) (go : State → State) : State :=
  if s.trunk.boot = .off ∨ (via = .vdm ∧ !s.live) ∨ (via = .smbus ∧ s.store.busy ≠ .idle) then s else go s

/-- Endpoint ID on a transport. -/
def Mgmt.eid (m : Mgmt) : Transport → Byte
  | .smbus => m.smbEid
  | .vdm => m.vdmEid

/-- SET_ENDPOINT_ID: 0x00 and 0xFF are not assignable (DSP0236). -/
def execSetEndpointId (via : Transport) (eid : Byte) (s : State) : Res :=
  ok (s.mctp via fun s =>
    if eid = 0 ∨ eid = 0xFF then s.emit (.mctp via 1 [2])
    else (s.onMgmt fun m => match via with | .smbus => { m with smbEid := eid } | .vdm => { m with vdmEid := eid }).emit (.mctp via 1 [0, 0, eid, 0]))

/-- GET_ENDPOINT_ID: a simple endpoint. -/
def execGetEndpointId (via : Transport) (s : State) : Res := ok (s.mctp via fun s => s.emit (.mctp via 2 [0, s.mgmt.eid via, 0, 0]))

/-- The UUID (R421): identity hash bytes 0 to 15 with version 8 and variant 0b10; nil without an identity. -/
def State.uuid (s : State) : List Byte :=
  let h := s.idHash
  if !s.trunk.identityOk then List.replicate 16 0
  else h.take 6 ++ [(nth 0 h 6 &&& 0x0F#8) ||| 0x80#8, nth 0 h 7, (nth 0 h 8 &&& 0x3F#8) ||| 0x80#8] ++ sub h 9 7

/-- GET_ENDPOINT_UUID. -/
def execGetEndpointUuid (via : Transport) (s : State) : Res := ok (s.mctp via fun s => s.emit (.mctp via 3 (0 :: s.uuid)))

/-- GET_MCTP_VERSION_SUPPORT: one version, whose number the manual does not give (a free value). -/
def execGetMctpVersionSupport (via : Transport) (s : State) : Res :=
  ok (s.mctp via fun s =>
    let (v, s1) := s.free
    s1.emit (.mctp via 4 (0 :: 1 :: leBytes 4 v.toNat)))

/-- GET_MESSAGE_TYPE_SUPPORT: vendor-defined (PCI) messages, type 0x7E (R422). -/
def execGetMessageTypeSupport (via : Transport) (s : State) : Res := ok (s.mctp via fun s => s.emit (.mctp via 5 [0, 1, 0x7E]))

/-- GET_VENDOR_DEFINED_MSG_SUPPORT: PCI vendor ID 0x1F6B, big-endian (R422); the version word is not given (a free value). -/
def execGetVendorDefinedMsgSupport (via : Transport) (s : State) : Res :=
  ok (s.mctp via fun s =>
    let (v, s1) := s.free
    s1.emit (.mctp via 6 ([0, 0xFF, 0, 0x1F, 0x6B] ++ leBytes 2 v.toNat)))

/-- ALERT_N is asserted (R419). -/
def State.alertN (s : State) : Bool := s.mgmt.alert &&& s.mgmt.alertEn != 0

/-- SMBUS_ALERT_RESPONSE (R419). -/
def execSmbusAlertResponse (s : State) : Res := ok (if s.trunk.boot ≠ .off ∧ s.alertN then s.emit (.araResponse s.mgmt.smbAddr) else s)

end Sys2Proof.Machine
end

