-- ==== Sys2Proof/Machine/Programming.lean ====
section
/-! DEFINITION. Meanings of PROGRAM_LEAF and of the events of the program sequence (chapter 04). -/

namespace Sys2Proof.Machine

/-- The load in progress that uses a bough: its full handle (R230). -/
def State.loadOn (s : State) (b : Nat) : Option Nat :=
  s.trunk.ops.findSome? fun (p : Nat × LongOp) => match p.2.body with
    | .load l =>
      let uses : Bool := match l.canopy with | some c => bit c.boughUse b | none => true
      if bit l.mask (standOf b) && uses then some (p.2.handle p.1) else none
    | _ => none

/-- PROGRAM_LEAF (R106, R99). -/
def execProgramLeaf (q : Nat) (s : State) : Res :=
  ok (s.serveCommand q 1 2 [(0, 4), (4, 1), (5, 1), (6, 2), (8, 2), (10, 2), (16, 8), (24, 32)] fun t s =>
    let a := t.args
    let slot := le a 4 1
    let knotMode := le a 5 1 == 1
    let knot := le a 6 2
    let gid := le a 8 2
    let size := le a 10 2
    let bad := s.refuseCommand q t 1 0
    match parseUnit (le a 0 4) with
    | some (2, st, bo, _) =>
      let b := 4 * st + bo
      let open_ := if gid = 0 then none else s.trunk.groups.find? fun (p : Nat × Group) => p.2.gid == gid && !p.2.released
      let conflict : Bool := match open_ with
        | some (_, g) => g.knotMode != knotMode || (knotMode && g.knot != knot) || decide (g.size ≤ g.members.length)
            || (!knotMode && g.members.any fun m => match s.prog m with | some p => p.bough != b | none => false)
        | none => false
      if !s.usable b ∨ 15 < slot ∨ 1 < le a 5 1 ∨ size = 0 ∨ 288 < size ∨ conflict then bad
      else
        let addr := match decodeAddr (le a 16 8) with | .hbm x => x | _ => hbmSize
        let (s1, gk) := match open_ with
          | some (k, _) => (s, k)
          | none =>
            let k := s.trunk.nextGroup
            (s.onTrunk fun x => { x with groups := smSet x.groups k { gid := gid, size := if gid = 0 then 1 else size, knotMode := knotMode, knot := if knotMode then knot else 0 },
                                         nextGroup := k + 1 }, k)
        let waits := s.loadOn b
        let idx := (s.queue q).sqHead
        let (s2, pid) := s1.newProg { bough := b, slot := slot, group := gk, imageAddr := addr, expected := sub a 24 32, waitsFor := waits }
        let s3 := (s2.onGroup gk fun g => { g with members := g.members ++ [pid] }).onBough b fun x => { x with progQueue := x.progQueue ++ [pid] }
        let (s4, h) := (s3.popCommand q).acceptOp q t idx (.program pid)
        s4.onProg pid fun p => { p with op := some h }
    | _ => bad)

/-- PROG_STEP_DONE (R91): a step of member `pid` ends; in step 4 one row. -/
def execProgStepDone (pid : Nat) (o : ProgObs) (s : State) : Res :=
  ok (if s.trunk.fwRunning ∧ s.awake then s.progStep pid o else s)

/-- SPARE_LEAF_FREED (R107): the operation that waits at step 1 goes on. -/
def execSpareLeafFreed (b : Nat) (s : State) : Res :=
  ok (match s.pumpHead b with
    | some pid =>
      let first : Bool := match s.prog pid with | some p => p.step == 1 | none => false
      if s.trunk.fwRunning ∧ s.awake ∧ !s.inReset (standOf b) ∧ first then s.acceptStep pid else s
    | none => s)

/-- LEAF_SWAP (R102): at a layer boundary, or at once on a bough without a task. -/
def execLeafSwap (b : Nat) (s : State) : Res :=
  let x := s.bough b
  let boundary : Bool := match x.task, s.canopyOf b with
    | none, _ => true
    | some t, some c => (match (nth ({} : Program) c.programs t.trec.program).ops[x.ck.pc]? with | some w => (opWord w).opcode == 0x0F | none => true)
    | some _, none => false
  ok (if s.enabled b ∧ s.awake ∧ !s.inReset (standOf b) ∧ boundary then s.applySwaps b else s)

end Sys2Proof.Machine
end

