-- ==== Sys2Proof/Machine/Registers.lean ====
section
/-! DEFINITION. Meanings of the BAR0 accesses (chapters 00 and 12): the map of the blocks over the register tables, and accesses that are malformed or time out. -/

namespace Sys2Proof.Machine

/-- AEL_PORT_STATUS_p. -/
def Port.status (q : Port) (split : Bool) : Word :=
  let state := match q.state with | .down0 => 0 | .training => 1 | .up => 2 | .down => 3 | .ringDisabled => 4
  fields [(q.peer.toNat, 8), (b2n (split && q.linkB.up), 5), (b2n (split && q.linkA.up), 4), (state, 0)]

/-- AEL_ROLE. -/
def State.roleWord (s : State) : Word :=
  let r := s.ael.role
  match r.role with
  | .standalone => 0
  | .manager => fields [(1, 24)]
  | .worker => fields [(2, 24), (r.ring, 20), (r.position, 16), (s.myDev, 0)]

/-- Register of the Aetholo block at an offset from 0x030_0000 (Tables 13-5, 13-6). -/
def State.aelReg (s : State) (off : Nat) : Reg :=
  let a := s.ael
  let on := fun (f : Ael → Ael) (s : State) => s.onAel f
  let base := fun (d : DWord) (s : State) => if s.ael.collEn then s else s.onAel fun a => { a with collBase := d }
  match off with
  | 0x00 => { value := s.roleWord }
  | 0x04 => { value := wordOf (b2n a.collEn), write := fun v s => (s.setCollEn (bit v 0)).settleQueues }
  | 0x08 => pairReg false a.collBase 0xFFFFF000#32 base
  | 0x0C => pairReg true a.collBase 0 base
  | 0x10 =>
    { write := fun v s =>
        if fld v 31 30 = 1 then (execCollArm (fld v 11 0) s).state s else if fld v 31 30 = 2 then (execCollDisarm (fld v 11 0) s).state s else s }
  | 0x14 => { value := fields [(b2n a.armBusy, 31), (a.armResult.toNat, 0)] }
  | 0x18 => { value := wordOf a.incarnation.toNat }
  | 0x1C => { value := fields [(a.noticeReason.toNat, 24), (a.noticeStand.toNat, 20), (a.noticeDev.toNat, 0)] }
  | 0x20 => { value := a.digestCnt, clear := on fun a => { a with digestCnt := 0 } }
  | 0x24 => { value := a.failCnt, clear := on fun a => { a with failCnt := 0 } }
  | 0x28 => { write := fun v s => (execAelSysReset v s).state s }
  | _ =>
    if off < 0x100 ∨ 0x200 ≤ off then {}
    else
      let p := (off - 0x100) / 0x40
      let q := s.port p
      let put := fun (f : Port → Port) (s : State) => s.onPort p f
      match off % 0x40 with
      | 0x00 => { value := q.status s.isManager }
      | 0x04 => { value := q.fec, clear := put fun q => { q with fec := 0 } }
      | 0x08 => { value := q.replay, clear := put fun q => { q with replay := 0 } }
      | 0x0C => { value := q.retrain, clear := put fun q => { q with retrain := 0 } }
      | _ => {}

/-- Register at an offset of the physical function's BAR0 (Tables 12-3 and 12-4, R4, R283, R348, R366). -/
def State.reg (s : State) (off : Nat) : Reg :=
  if s.trunk.warmBusy && !budDecoded off && !decide (0x200000 ≤ off ∧ off < 0x300000) then {}
  else if off < 0x80000 then s.trunkReg off
  else if off < 0x80100 then s.queReg (off - 0x80000)
  else if off < 0x100000 then {}
  else if off < 0x180000 then s.budReg (off - 0x100000)
  else if off < 0x200000 then s.storeReg (off - 0x180000)
  else if off < 0x300000 then s.pcieReg (off - 0x200000)
  else if off < 0x400000 then s.aelReg (off - 0x300000)
  else if off < 0x1000000 ∨ 0x2000000 ≤ off then {}
  else
    let i := (off - 0x1000000) / 0x400000
    let o := off % 0x400000
    if o < 0x100000 then s.standReg i o
    else if 0x300000 ≤ o then {}
    else
      let b := 4 * i + (o - 0x100000) / 0x80000
      let w := o % 0x80000
      if !s.enabled b ∨ s.bud.power = .dormant then {}
      else if w < 0x40000 then s.boughReg b w
      else if w < 0x64000 then s.leafReg (leafNo b ((w - 0x40000) / 0x2000)) (w % 0x2000)
      else {}

/-- Register at an offset of a function's BAR0. -/
def State.regOf (s : State) (fn off : Nat) : Reg := if fn = 0 then s.reg off else s.vfReg fn off

/-- BAR0 accesses of a function reach the device (R277, R278). -/
def State.bar0Live (s : State) (fn : Nat) : Bool :=
  s.live && !s.pcie.d3hot && s.hasFunc fn

/-- Key of a register's latch: function and offset of its _HI half. -/
def latchKey (fn off : Nat) : Nat := 0x4000000 * fn + off

/-- One register is read (R9, R10, R12): the value, and the state that its RC fields and the _HI latch leave. -/
def State.readReg (s : State) (fn off : Nat) : Word × State :=
  let r := s.regOf fn off
  match smFind s.latches (latchKey fn off) with
  | some v => (v, { s with latches := smErase s.latches (latchKey fn off) })
  | none =>
    let s1 := r.clear s
    (r.value, if r.lo then { s1 with latches := smSet s1.latches (latchKey fn (off + 4)) (s.regOf fn (off + 4)).value } else s1)

/-- An access that R281 allows: 4 or 8 bytes, aligned to 4, every byte enabled. -/
def Bar0Acc.wellFormed (a : Bar0Acc) : Bool := a.full && (a.len == 4 || a.len == 8) && decide (a.off % 4 = 0)

/-- A read completes with data. -/
def State.completeRead (s : State) (len : Nat) (d : DWord) : State := { s with rdata := d }.emit (.readData (leBytes len d.toNat) false)

/-- A BAR0 read: 8 bytes are two registers, the lower first (R281). -/
def State.bar0Read (s : State) (a : Bar0Acc) : State :=
  if !a.wellFormed then (s.pciError 0 a.fn a.off).completeRead a.len 0
  else
    let (lo, s1) := s.readReg a.fn a.off
    if a.len = 4 then s1.completeRead 4 (BitVec.ofNat 64 lo.toNat)
    else
      let (hi, s2) := s1.readReg a.fn (a.off + 4)
      s2.completeRead 8 (BitVec.ofNat 64 (lo.toNat + at_ hi.toNat 32))

/-- A BAR0 write (R281). -/
def State.bar0Write (s : State) (a : Bar0Acc) (v : DWord) : State :=
  if !a.wellFormed then s.pciError 0 a.fn a.off
  else
    let s1 := (s.regOf a.fn a.off).write (loOf v) s
    if a.len = 4 then s1 else (s1.regOf a.fn (a.off + 4)).write (hiOf v) s1

/-- REGISTER_WRITE (R10, R281, R283): registers with behaviour of their own act as their commands do. -/
def execRegisterWrite (acc : Bar0Acc) (v : DWord) (s : State) : Res := ok (if s.bar0Live acc.fn then s.bar0Write acc v else s)

/-- REGISTER_READ_CLEAR (R10, R12, R281): a read of any register; RC fields are cleared. -/
def execRegisterReadClear (acc : Bar0Acc) (s : State) : Res := ok (if s.bar0Live acc.fn then s.bar0Read acc else s)

/-- LO_REGISTER_READ (R9): a 4-byte read of a _LO register latches its _HI value. -/
def execLoRegisterRead (off : Nat) (s : State) : Res :=
  ok (if s.bar0Live 0 ∧ (s.reg off).lo ∧ off % 4 = 0 then
      let r := s.readReg 0 off
      r.2.completeRead 4 (BitVec.ofNat 64 r.1.toNat)
    else s)

/-- BAR0_ACCESS_TIMEOUT (R282): a read completes with all ones, a write is discarded. -/
def execBar0AccessTimeout (acc : Bar0Acc) (isWrite : Bool) (s : State) : Res :=
  ok (if !s.bar0Live acc.fn ∨ !acc.wellFormed then s
    else
      let s1 := s.pciError 1 acc.fn acc.off
      if isWrite then s1 else s1.completeRead acc.len (if acc.len = 4 then 0xFFFFFFFF#64 else 0xFFFFFFFFFFFFFFFF#64))

end Sys2Proof.Machine
end

