-- ==== Sys2Proof/Machine/Retire.lean ====
section
/-! DEFINITION. Meanings of the events of run-ahead, retirement and release (chapters 07 and 08). -/

namespace Sys2Proof.Machine

/-- The bough works: it is in use, awake and outside a reset. -/
def State.boughLive (s : State) (b : Nat) : Bool := s.usable b && s.awake && !s.inReset (standOf b)

/-- POINTER_VALUE_ARRIVAL (R200, Table 14-2). -/
def execPointerValueArrival (b : Nat) (s : State) : Res :=
  ok (if !s.boughLive b ∨ (s.bough b).wait ≠ .ptr then s
    else
      let s1 := (s.onBough b fun x => { x with ptrOk := true, wait := .none }).issueAny b
      match (s1.bough b).wait with
      | .ue a =>
        let s2 := s1.reportUe a
        if s2.poisonMode (standOf b) then s2.faultTask b .poison (wordOf (a / 64)) else s2.ueReset (standOf b)
      | _ => s1)

/-- HOLD_LINES_FREED (R177). -/
def execHoldLinesFreed (b : Nat) (s : State) : Res := ok (if s.boughLive b ∧ (s.bough b).wait = .lines then s.issueAny b else s)

/-- EPOCH_RETIRE (R178, R179). -/
def execEpochRetire (b : Nat) (s : State) : Res := ok (if s.boughLive b then (s.judgeOldest b).settleQueues else s)

/-- HELD_LINE_RELEASE (R180). -/
def execHeldLineRelease (b : Nat) (accepted parityBad : Bool) (s : State) : Res :=
  ok (if s.boughLive b then (s.releaseLine b accepted parityBad).settleQueues else s)

/-- DRAIN_END (R186). -/
def execDrainEnd (b : Nat) (s : State) : Res := ok (if s.boughLive b then (s.endDrain b).settleTests else s)

/-- RANGE_RESTORE_WINDOW (R146). -/
def execRangeRestoreWindow (b l : Nat) (second : Bool) (s : State) : Res :=
  ok (if s.boughLive b ∧ l < 18 then s.endRangeWindow b (leafNo b l) second else s)

/-- XFER_LAND (R209). -/
def execXferLand (b route sender : Nat) (s : State) : Res := ok (if s.boughLive b then s.landXfer b route sender else s)

end Sys2Proof.Machine
end

