-- ==== Sys2Proof/Machine/Security.lean ====
section
/-! DEFINITION. Security and firmware-update messages (chapter 18, R422): one meaning per message. -/

namespace Sys2Proof.Machine

/-- The signature of a message body verifies under a key (R402). -/
def SecReq.signedBy (r : SecReq) (pk : Option (List Byte)) : Bool :=
  match pk with
  | some k => Config.xmssVerify k (shake256 r.body) r.signature
  | none => false

/-- The message names this device (R402). -/
def SecReq.forMe (r : SecReq) (s : State) : Bool := decide (r.idHash = s.idHash)

/-- Serve a security message: message code 0x12; `life` lists the lifecycles it is allowed in (log entry 21). -/
def State.secServe (s : State) (r : SecReq) (life : List Nat) (good : Bool) (go : State → State) : State :=
  s.trunkServe { via := r.via, instance_ := r.instance_ } 0x12 false fun s =>
    if !life.contains s.store.counters.lifecycle then s.answer r.via 0x12 .denied []
    else if !(r.forMe s && good) then s.answer r.via 0x12 .refused []
    else if s.storeRefuses then s.answer r.via 0x12 .storeReadOnly []
    else go s

/-- PROVISION (R402, Table 18-4): Manufacturing to Provisioned, signed by the vendor key. -/
def execProvision (r : SecReq) (s : State) : Res :=
  ok (s.secServe r [0] (r.signedBy (some Config.vendorKey) && r.bind == 0) fun s =>
    (s.storeWrite (.counter .lifecycle .mgmt)).awaitStore r.via 0x12 1 0 [])

/-- INSTALL_OWNER (R402, Table 18-4): the first owner key, with the default policy. -/
def execInstallOwner (r : SecReq) (s : State) : Res :=
  ok (s.secServe r [1] (r.bind == 0 && s.store.counters.ownership == 0) fun s =>
    ((s.storeRec (ownerKeyAt 1) (.ownerKey r.key) .mgmt).storeRec policyKey (.policy {}) .mgmt).awaitStore r.via 0x12 2 1 [])

/-- TRANSFER_OWNER (R402, Table 18-4): signed by the present owner; a further ownership unit and key. -/
def execTransferOwner (r : SecReq) (s : State) : Res :=
  let n := s.store.counters.ownership
  ok (s.secServe r [2] (r.signedBy s.ownerPk && r.bind == n) fun s =>
    if 8 ≤ n then s.answer r.via 0x12 .exhausted []
    else ((s.storeRec (ownerKeyAt (n + 1)) (.ownerKey r.key) .mgmt).storeRec policyKey (.policy {}) .mgmt).awaitStore r.via 0x12 2 2 [])

/-- SET_POLICY (R402, Table 18-4): signed by the owner, with a sequence above the stored one. -/
def execSetPolicy (r : SecReq) (s : State) : Res :=
  ok (s.secServe r [2] (r.signedBy s.ownerPk && decide (s.policy.seq.toNat < r.bind)) fun s =>
    (s.storeRec policyKey (.policy { seq := wordOf r.bind, requireOwnerFw := bit r.flags 0, requireSignedCanopy := bit r.flags 1,
                                     allowDebug := bit r.flags 2 }) .mgmt).awaitStore r.via 0x12 1 0 [])

/-- Raise the security version to the running image's, one unit per step (R398); the message binds that target. -/
def execSvnCommit (r : SecReq) (s : State) : Res :=
  let target := (s.slotSvn s.trunk.runningSlot).toNat
  let signedOk := if s.store.counters.lifecycle = 2 then r.signedBy s.ownerPk else true
  ok (s.secServe r [0, 1, 2, 3] (signedOk && r.bind == target) fun s =>
    let n := target - s.store.counters.svn
    if n = 0 ∨ 64 < target then s.answer r.via 0x12 .success []
    else ((List.range n).foldl (fun s _ => s.storeWrite (.counter .svn .mgmt)) s).awaitStore r.via 0x12 n 0 [])

/-- RELEASE (R402, Table 18-4): Deployed to Returned, signed by the owner. -/
def execRelease (r : SecReq) (s : State) : Res :=
  ok (s.secServe r [2] (r.signedBy s.ownerPk && r.bind == s.store.counters.ownership) fun s =>
    (s.storeWrite (.counter .lifecycle .mgmt)).awaitStore r.via 0x12 1 0 [])

/-- A grant binds the debug nonce and counter; the nonce is spent by the attempt (R407). -/
def execDebugGrant (r : SecReq) (s : State) : Res :=
  let g := s.store.counters.debug
  let key := if s.store.counters.lifecycle = 2 then s.ownerPk else some Config.vendorKey
  -- An attempt that names another device spends the nonce too.
  ok (s.secServe { r with idHash := s.idHash } [1, 2, 3] true fun s =>
    let s1 := s.onTrunk fun t => { t with nonce := none }
    if !(r.forMe s && r.signedBy key && decide (s.trunk.nonce = some r.nonce) && r.bind == g) then s1.answer r.via 0x12 .refused []
    else if 32 ≤ g then s1.answer r.via 0x12 .exhausted []
    else if s.store.counters.lifecycle = 2 ∧ !s.policy.allowDebug then s1.answer r.via 0x12 .denied []
    else (s1.storeWrite (.counter .debug .mgmt)).awaitStore r.via 0x12 1 5 [])

/-- Erase the slot that is not running and open an update (R422). -/
def execFwBegin (r : MReq) (s : State) : Res :=
  ok (s.trunkServe r 0x20 true fun s =>
    let n := le r.payload 0 4
    if r.payload.length ≠ 4 ∨ n = 0 ∨ 2 ^ 20 < n then s.answer r.via 0x20 .badRequest []
    else ((s.onSlot s.updateSlot fun _ => {}).onTrunk fun t =>
      if s.updateSlot = 1 then { t with fwUpdate := some [], slotASvn := 0xFF } else { t with fwUpdate := some [], slotBSvn := 0xFF }).answer r.via 0x20 .success [])

/-- Bytes that follow on from the previous message's data (R422). -/
def execFwData (r : MReq) (s : State) : Res :=
  ok (s.trunkServe r 0x21 true fun s =>
    let d := r.payload.drop 4
    match s.trunk.fwUpdate with
    | none => s.answer r.via 0x21 .badRequest []
    | some got =>
      if d.length = 0 ∨ 1024 < d.length ∨ le r.payload 0 4 ≠ got.length ∨ 2 ^ 20 < got.length + d.length then s.answer r.via 0x21 .badRequest []
      else ((s.onSlot s.updateSlot fun x => { x with bytes := x.bytes ++ d, erased := false }).onTrunk fun t =>
        { t with fwUpdate := some (got ++ d) }).answer r.via 0x21 .success [])

/-- Check the slot and enter it as the trial slot (R397). -/
def execFwEnd (r : MReq) (s : State) : Res :=
  ok (s.trunkServe r 0x22 true fun s =>
    match s.trunk.fwUpdate with
    | none => s.answer r.via 0x22 .badRequest []
    | some _ =>
      let slot := s.updateSlot
      let c := s.fwCheck (s.slotBytes slot)
      let s1 := s.onTrunk fun t =>
        if slot = 1 then { t with fwUpdate := none, slotASvn := s.slotSvn 1 } else { t with fwUpdate := none, slotBSvn := s.slotSvn 2 }
      if c ≠ 0 then s1.answer r.via 0x22 .success [byteOf c]
      else if s.storeRefuses then s1.answer r.via 0x22 .storeReadOnly []
      else (s1.storeRec slotKey (.slotState { s.slotState with trial := slot, attempts := 0 }) .mgmt).awaitStore r.via 0x22 1 0 [0])

end Sys2Proof.Machine
end

