-- ==== Sys2Proof/Machine/StartUp.lean ====
section
/-! DEFINITION. Meanings of the events of start-up and of the 12 V input (chapters 15, 17, 18 and 19). -/

namespace Sys2Proof.Machine

/-- VIN_APPLIED (R394, R412, R415): rails come up, the straps are read and store recovery starts. -/
def execVinApplied (straps : BitVec 2) (s : State) : Res :=
  ok (if s.trunk.boot ≠ .off ∨ s.bud.railFault then s
    else (s.onTrunk fun t => { t with boot := .recovering }).onMgmt fun m => { m with smbAddr := BitVec.ofNat 7 (0x64 + straps.toNat) })

/-- STORE_RECOVERY_DONE (R388, R391, R394): PWR_GOOD is released; the power-on count rises; the role record applies. -/
def execStoreRecoveryDone (timeUs : BitVec 16) (s : State) : Res :=
  ok (if s.trunk.boot ≠ .recovering then s
    else
      let s1 := (s.onStore fun d => d.recover timeUs).onTrunk fun t => { t with boot := .waiting }
      let g : Rat := if s1.factoryPart = 0x1536 then 12000000000 else 16000000000
      let s2 := (s1.onBud fun b => { b with pwrGood := true, grant := g }).onAel fun a => { a with role := s1.roleRec }
      s2.storeWrite (.ring 0 ((nth {} s2.store.rings 0).value + 1)))

/-- LOSS_OF_12V (R387, R415). -/
def execLossOf12V (kept : Nat) (s : State) : Res :=
  ok (if s.trunk.boot = .off then s.onBud fun b => { b with railFault := false } else s.powerOff kept)

/-- RAIL_FAULT (R415): as a loss of 12 V, until VIN is removed. -/
def execRailFault (kept : Nat) (s : State) : Res :=
  ok (if s.trunk.boot = .off then s else (s.powerOff kept).onBud fun b => { b with railFault := true })

/-- PERST_N_ASSERT (R349, R368). -/
def execPerstNAssert (s : State) : Res :=
  let s1 := if s.trunk.boot = .off ∨ s.trunk.boot = .recovering then s else s.coldReset
  ok (s1.onBud fun b => { b with perst := true })

/-- PERST_N_DEASSERT (R276, R277, R394, R416). -/
def execPerstNDeassert (refclk : Bool) (puf : List Byte) (s : State) : Res :=
  let s1 := s.onBud fun b => { b with perst := false }
  ok (if s.bud.perst ∧ s.trunk.boot = .waiting then s1.releaseBoot refclk puf else s1)

/-- STARTUP_STAGE_DONE (R394, R396, R397, Table 18-1). -/
def execStartupStageDone (o : StartObs) (s : State) : Res :=
  let slot := s.trunk.runningSlot
  let check := s.fwCheck (s.slotBytes slot)
  let timed := s.onTrunk fun t => { t with verifyTime := t.verifyTime + o.timeUs }
  let go := fun (s : State) (recovery : Bool) =>
    let s1 := (s.startFirmware slot recovery).onTrunk fun t => { t with boot := .training }
    if recovery then s1 else s1.trainPorts
  let failed := timed.onTrunk fun t => { t with fwFails := t.fwFails ++ [(slot, check)] }
  ok (match s.trunk.boot with
    | .verifying =>
      if s.slotWriteOn then s
      else if check = 0 then go timed false
      else failed.onTrunk fun t => { t with boot := .verifyOther, runningSlot := t.otherSlot, bootResult := if t.bootResult = 0 then 1 else t.bootResult }
    | .verifyOther => if check = 0 then go timed false else go failed true
    | .training =>
      let s0 := (s.trainHbm o.untrained).recoverLeaves s.allLeaves
      let s1 := o.crcFail.foldl (fun (s : State) k => s.onLeaf k fun l => { l with derivedOk := false }) s0
      s1.onTrunk fun t => { t with boot := if s1.needReadback.isEmpty then .selfCheck else .readback }
    | .readback => (s.needReadback.foldl (fun (s : State) k => s.readBackLeaf k (smGet [] o.levels k)) s).onTrunk fun t => { t with boot := .selfCheck }
    | .selfCheck => (s.checkLeaves s.activeLeaves o.refs o.refMon).onTrunk fun t => { t with boot := .calibrating }
    | .calibrating => (s.startCals o.meas).becomeReady o
    | _ => s)

/-- FW_SLOT_CONFIRM (R396). -/
def execFwSlotConfirm (s : State) : Res :=
  ok (if s.trunk.boot = .ready ∧ s.trunk.fwRunning ∧ !s.trunk.warmBusy ∧ s.trunk.confirmDue then
      (s.onTrunk fun t => { t with confirmDue := false }).storeRec slotKey (.slotState { active := s.trunk.runningSlot }) .none
    else s)

/-- XMSS_SUBTREE_BUILD_DONE (R404): a quote that waited for the build goes on. -/
def execXmssSubtreeBuildDone (s : State) : Res :=
  ok (if !s.trunk.fwRunning ∨ s.trunk.warmBusy ∨ !s.trunk.identityOk ∨ !s.awake then s
    else
      let s1 := s.onTrunk fun t => { t with subtree := some (subtreeOf t.xmssNext) }
      let waits := s1.mgmt.pending.filter fun p => p.after == 6
      waits.foldl (fun (s : State) p => (s.onMgmt fun m => { m with pending := m.pending.filter fun q => !decide (q = p) }).quote p.via p.answer) s1)

end Sys2Proof.Machine
end

