-- ==== Sys2Proof/Machine/StoreRun.lean ====
section
/-! DEFINITION. The heartwood store at work: write operations, their outcomes for the requesters, and background steps (R382, R383, R389, R390). -/

namespace Sys2Proof.Machine

/-- Who asked for a write. -/
def WriteReq.who : WriteReq → Requester
  | .record _ w => w
  | .counter _ w => w
  | .ring _ _ => .none

/-- The store may work: its rail is up and recovery is over. -/
def State.storeUp (s : State) : Bool := decide (s.trunk.boot ≠ .off ∧ s.trunk.boot ≠ .recovering)

/-- The requester of a write is told that it is durable (R382). -/
def State.told (s : State) (w : WriteReq) : State :=
  match w with
  | .record { payload := .leafMap m, .. } (.groups gs) => s.mapDurable m gs
  | w => match w.who with
    | .prog pid => s.recordTold pid
    | .mgmt => s.mgmtTold
    | _ => s

/-- The requester of a write is told that the store refuses it (R383). -/
def State.refusedWrite (s : State) (w : WriteReq) : State :=
  match w.who with
  | .prog pid => s.recordRefused pid
  | .groups gs => gs.foldl (fun (s : State) g => match s.group g with
      | some { members := m :: _, .. } => s.failMember m 9 false
      | _ => s) s
  | .mgmt => s.mgmtRefused
  | _ => s

/-- Records that the next write operation takes (R382, R389). -/
def Store.nextWrites (d : Store) : List WriteReq :=
  let q := if d.erasedCount < 4 then d.queue.filter fun w => w.prio == 0 else d.queue
  takePages q (match d.openSec with | some k => (smGet {} d.log k).free | none => 16) 24

/-- A write operation starts. -/
def Store.startWrite (d : Store) : Store :=
  let ws := d.nextWrites
  if d.busy ≠ .idle ∨ d.state ≠ .ready ∨ ws.isEmpty then d
  else { d with busy := .write ws, queue := ws.foldl (fun (q : List WriteReq) w => q.erase w) d.queue }

/-- The writes of an operation in order, each with its verify failures: the store after them, and which became durable. -/
def Store.performAll (d : Store) : List (WriteReq × Nat) → Store × List (WriteReq × Bool)
  | [] => (d, [])
  | (w, f) :: r =>
    if d.state = .readOnly then
      let (d1, l) := d.performAll r
      (d1, (w, false) :: l)
    else
      let (d1, good) := d.perform w f
      let (d2, l) := d1.performAll r
      (d2, (w, good) :: l)

/-- Key of a write that was refused. -/
def WriteReq.key : WriteReq → Nat
  | .record r _ => r.key
  | .ring i _ => 0x08000000 + i
  | .counter _ _ => 0

/-- A write operation ends (R382, R383). -/
def State.endWrites (s : State) (fails : List Nat) : State :=
  match s.store.busy with
  | .write ws =>
    let (d, l) := s.store.performAll (ws.zipIdx.map fun p => (p.1, nth 0 fails p.2))
    let lost := decide (d.state = .readOnly)
    let rest := if lost then d.queue else []
    let s1 := s.onStore fun _ => { d with busy := .idle, queue := if lost then [] else d.queue }
    let bad := (l.find? fun p => !p.2).map fun p => p.1.key
    let s2 := match bad with
      | some k => s1.record .storeReadOnly uDevice { source := 1, detail := (d.openSec.getD 0), detail2 := k }
      | none => s1
    let s3 := l.foldl (fun (s : State) p => if p.2 then s.told p.1 else s.refusedWrite p.1) s2
    (rest.foldl State.refusedWrite s3).bootHeld
  | _ => s

/-- The background step that is due (R389, R391): compaction below 16 ERASED sectors, else a ring sector's erase. -/
def Store.dueStep (d : Store) : StoreOp :=
  let ring := (List.range 3).find? fun i => (nth {} d.rings i).eraseDue
  if d.erasedCount < 16 then
    match d.oldest with
    | some k => if (smGet {} d.log k).copied then .erase k else .compact k
    | none => .idle
  else match ring with
    | some i => .ringErase i
    | none => .idle

/-- A background step starts while the queue is empty, or before it when fewer than 4 sectors are ERASED. -/
def Store.startStep (d : Store) : Store :=
  let fence := d.queue.any fun w => w.prio == 0
  if d.state ≠ .ready ∨ (!d.queue.isEmpty ∧ (4 ≤ d.erasedCount ∨ fence)) then d
  else match d.dueStep with
    | .compact k => { d with busy := .compact k, log := smUpd {} d.log k fun x => { x with state := .reclaiming } }
    | op => { d with busy := op }

/-- A background step ends; `good` is whether an erase passed, at its first or second try (R390). -/
def State.endStep (s : State) (good : Bool) : State :=
  let idle := fun (d : Store) => { d with busy := .idle }
  match s.store.busy with
  | .compact k => s.onStore fun d => idle { d.copyLive k with log := smUpd {} (d.copyLive k).log k fun x => { x with copied := true } }
  | .erase k =>
    if good then s.onStore fun d => idle (d.eraseSector k)
    else
      (s.onStore fun d => idle { d with badSectors := satInc d.badSectors, log := smUpd {} d.log k fun x => { x with state := .bad, recs := [] } }).record .storeBadSector uDevice
        { source := 1, detail := k, detail2 := (s.store.log.find? fun p => p.1 == k).map (·.2.erases) |>.getD 0 }
  | .ringErase i =>
    if good then s.onStore fun d => idle { d with rings := modAt d.rings i fun g => { g with eraseDue := false, erases := g.erases + 1 } }
    else
      (s.onStore fun d => idle { d with badSectors := satInc d.badSectors, rings := modAt d.rings i fun g => { g with eraseDue := false, inLog := true } }).record .storeBadSector uDevice
        { source := 1, detail := 9 + 2 * i + (1 - (nth {} s.store.rings i).sector), detail2 := (nth {} s.store.rings i).erases }
  | _ => s

end Sys2Proof.Machine
end

