-- ==== Sys2Proof/Machine/StoreCmds.lean ====
section
/-! DEFINITION. Meanings of the store's events (chapter 17). -/

namespace Sys2Proof.Machine

/-- STORE_WRITE_OP_START (R382). -/
def execStoreWriteOpStart (s : State) : Res := ok (if s.storeUp then s.onStore Store.startWrite else s)

/-- STORE_WRITE_OP_DONE (R382, R383): `fails` gives the failed verifies of each record in turn. -/
def execStoreWriteOpDone (fails : List Nat) (s : State) : Res := ok (if s.storeUp then s.endWrites fails else s)

/-- STORE_BACKGROUND_STEP (R389, R390): the step that is due starts on an idle store, and the step that runs ends. -/
def execStoreBackgroundStep (good : Bool) (s : State) : Res :=
  ok (if !s.storeUp then s
    else match s.store.busy with
      | .idle => s.onStore Store.startStep
      | .write _ => s
      | _ => (s.endStep good).bootHeld)

/-- POWERED_HOUR_TICK (R391). -/
def execPoweredHourTick (s : State) : Res :=
  ok (if s.storeUp then s.storeWrite (.ring 1 ((nth {} s.store.rings 1).value + 1)) else s)

end Sys2Proof.Machine
end

