-- ==== Sys2Proof/Machine/Tasks.lean ====
section
/-! DEFINITION. Meanings of dispatch, completion and interrupt coalescing (chapter 11). -/

namespace Sys2Proof.Machine

/-- TASK_DISPATCH (R258). -/
def execTaskDispatch (b : Nat) (s : State) : Res := ok (s.actPending.settleQueues.dispatch b).settleQueues

/-- TASK_COMPLETION (R266). -/
def execTaskCompletion (b : Nat) (s : State) : Res :=
  ok (if !s.enabled b ∨ !s.awake ∨ s.inReset (standOf b) then s
    else match (s.bough b).nextEnd with
      | some t => (s.finishTask b t).settleQueues.settleTests
      | none => s)

/-- COAL_TIMER (R267). -/
def execCoalTimer (q : Nat) (s : State) : Res :=
  ok (if (s.queue q).enabled ∧ (s.queue q).desc.irqAll ∧ (s.queue q).desc.coalUs ≠ 0 ∧ 0 < (s.queue q).uncovered then s.queueIrq q else s)

end Sys2Proof.Machine
end

