-- ==== Sys2Proof/Machine/TestPort.lean ====
section
/-! DEFINITION. The test access port (R425): one meaning per TAP instruction. -/

namespace Sys2Proof.Machine

/-- The sideband and test lands work once the rails are up (R412). -/
def State.tapAlive (s : State) : Bool := decide (s.trunk.boot ≠ .off)

/-- The pins follow the device and the bypass register is selected. -/
def State.tapBypass (s : State) : State :=
  s.onTap fun t => { t with instr := .bypass, driving := false, highz := false, acTest := 0 }

/-- An instruction that takes effect only while PERST_N is low, and otherwise acts as BYPASS (R425). -/
def State.tapPins (s : State) (f : Tap → Tap) : State :=
  if !s.tapAlive then s else if s.bud.perst then s.onTap f else s.tapBypass

/-- IDCODE register (R425). -/
def idcodeOf (partCode : Nat) : Word := wordOf (0x10000000 + partCode * 0x1000 + 0xB47)

/-- EXTEST (R425). -/
def execExtest (bits : List Bool) (s : State) : Res :=
  ok (s.tapPins fun t => { t with instr := .extest, preload := bits, driving := true, highz := false, acTest := 0 })

/-- IDCODE (R425): the register is shifted out. -/
def execIdcode (s : State) : Res :=
  ok (if !s.tapAlive then s else
    (s.onTap fun t => { t with instr := .idcode, driving := false, highz := false, acTest := 0 }).emit
      (.tdo (idcodeOf s.factoryPart)))

/-- SAMPLE and PRELOAD (R425): the pins are captured and the boundary register loaded; the pins follow the device. -/
def execSamplePreload (pins bits : List Bool) (s : State) : Res :=
  ok (if !s.tapAlive then s else
    s.onTap fun t => { t with instr := .sample, captured := pins, preload := bits, driving := false, highz := false, acTest := 0 })

/-- CLAMP (R425). -/
def execClamp (s : State) : Res :=
  ok (s.tapPins fun t => { t with instr := .clamp, driving := true, highz := false, acTest := 0 })

/-- HIGHZ (R425). -/
def execHighz (s : State) : Res :=
  ok (s.tapPins fun t => { t with instr := .highz, driving := false, highz := true, acTest := 0 })

/-- EXTEST_PULSE (R425). -/
def execExtestPulse (s : State) : Res :=
  ok (s.tapPins fun t => { t with instr := .extestPulse, driving := true, highz := false, acTest := 1 })

/-- EXTEST_TRAIN (R425). -/
def execExtestTrain (s : State) : Res :=
  ok (s.tapPins fun t => { t with instr := .extestTrain, driving := true, highz := false, acTest := 2 })

/-- BYPASS and every code without an instruction of its own; a vendor code under a debug grant, or in Manufacturing, has no described effect. -/
def execBypass (code : Byte) (s : State) : Res :=
  if s.tapAlive ∧ 0x80 ≤ code.toNat ∧ code.toNat ≤ 0xFE ∧ (s.trunk.debugActive ∨ s.store.counters.lifecycle = 0) then
    .refused (.vendorInstruction code)
  else ok (if s.tapAlive then s.tapBypass else s)

end Sys2Proof.Machine
end

