-- ==== Sys2Proof/Machine/Twig.lean ====
section
/-! DEFINITION. The twig's own operations at issue (Table 7-3). -/

namespace Sys2Proof.Machine

/-- NOP: nothing but the next operation (R167). -/
def execNop (b : Nat) (s : State) : Res := ok (s.issueIf b (fun w => w.opcode == 0x00) (opNop b))

/-- FETCH: reads from HBM or host memory into sapwood are begun (R191, R175). -/
def execFetch (b : Nat) (s : State) : Res := ok (s.issueIf b (fun w => w.opcode == 0x01) (opFetch b))

/-- STORE: writes toward HBM or host memory are held (R191, R173). -/
def execStore (b : Nat) (s : State) : Res := ok (s.issueIf b (fun w => w.opcode == 0x02) (opStore b))

/-- DRIVE: a tile opens and its phases are issued (R169, R195 to R208). -/
def execDrive (b : Nat) (s : State) : Res := ok (s.issueIf b (fun w => w.opcode == 0x03) (opDrive b))

/-- XSEND: a transfer is held against a route credit (R209, R210). -/
def execXsend (b : Nat) (s : State) : Res := ok (s.issueIf b (fun w => w.opcode == 0x0A) (opXsend b))

/-- XRECV: an epoch opens and waits for a transfer of every sender (R209, R210). -/
def execXrecv (b : Nat) (s : State) : Res := ok (s.issueIf b (fun w => w.opcode == 0x0B) (opXrecv b))

/-- KSIG: a knot signal is held (R262). -/
def execKsig (b : Nat) (s : State) : Res := ok (s.issueIf b (fun w => w.opcode == 0x0C) (opKsig b))

/-- KWAIT: an epoch opens and waits for a token (R263). -/
def execKwait (b : Nat) (s : State) : Res := ok (s.issueIf b (fun w => w.opcode == 0x0D) (opKwait b))

/-- LOOP: the level is stepped (R192). -/
def execLoop (b : Nat) (s : State) : Res := ok (s.issueIf b (fun w => w.opcode == 0x0E) (opLoop b))

/-- LBND: a layer boundary (R170). -/
def execLbnd (b : Nat) (s : State) : Res := ok (s.issueIf b (fun w => w.opcode == 0x0F) (opLbnd b))

/-- END: the task issues no more and its completion is held (R167). -/
def execEndOp (b : Nat) (s : State) : Res := ok (s.issueIf b (fun w => w.opcode == 0x10) (opEnd b))

end Sys2Proof.Machine
end

