-- ==== Sys2Proof/Machine/Dispatch.lean ====
section
/-! DEFINITION. One arm per command: each calls its meaning. -/

namespace Sys2Proof.Machine

def exec (i : Instr) (s : State) : Host.Outcome State Fault Refusal :=
  match i with
  | .vinApplied straps => Sys2Proof.Machine.execVinApplied straps s
  | .storeRecoveryDone timeUs => Sys2Proof.Machine.execStoreRecoveryDone timeUs s
  | .lossOf12V kept => Sys2Proof.Machine.execLossOf12V kept s
  | .railFault kept => Sys2Proof.Machine.execRailFault kept s
  | .perstNAssert => Sys2Proof.Machine.execPerstNAssert s
  | .perstNDeassert refclk puf => Sys2Proof.Machine.execPerstNDeassert refclk puf s
  | .startupStageDone o => Sys2Proof.Machine.execStartupStageDone o s
  | .fwSlotConfirm => Sys2Proof.Machine.execFwSlotConfirm s
  | .xmssSubtreeBuildDone => Sys2Proof.Machine.execXmssSubtreeBuildDone s
  | .refSelfCheck b l o => Sys2Proof.Machine.execRefSelfCheck b l o s
  | .leafPhase b l o => Sys2Proof.Machine.execLeafPhase b l o s
  | .governorInterval o => Sys2Proof.Machine.execGovernorInterval o s
  | .refDriftBlockEnd b l => Sys2Proof.Machine.execRefDriftBlockEnd b l s
  | .recalSpacingEnd b l => Sys2Proof.Machine.execRecalSpacingEnd b l s
  | .calMeasurementDone b l o => Sys2Proof.Machine.execCalMeasurementDone b l o s
  | .calCommit b l => Sys2Proof.Machine.execCalCommit b l s
  | .calibrate q => Sys2Proof.Machine.execCalibrate q s
  | .calibrateLoadTimeout h => Sys2Proof.Machine.execCalibrateLoadTimeout h s
  | .programLeaf q => Sys2Proof.Machine.execProgramLeaf q s
  | .progStepDone pid o => Sys2Proof.Machine.execProgStepDone pid o s
  | .spareLeafFreed b => Sys2Proof.Machine.execSpareLeafFreed b s
  | .leafSwap b => Sys2Proof.Machine.execLeafSwap b s
  | .suspend q => Sys2Proof.Machine.execSuspend q s
  | .resume q => Sys2Proof.Machine.execResume q s
  | .cancel q => Sys2Proof.Machine.execCancel q s
  | .nop b => Sys2Proof.Machine.execNop b s
  | .fetch b => Sys2Proof.Machine.execFetch b s
  | .store b => Sys2Proof.Machine.execStore b s
  | .drive b => Sys2Proof.Machine.execDrive b s
  | .combine3 b => Sys2Proof.Machine.execCombine3 b s
  | .rescale b => Sys2Proof.Machine.execRescale b s
  | .table b => Sys2Proof.Machine.execTable b s
  | .cvt b => Sys2Proof.Machine.execCvt b s
  | .add b => Sys2Proof.Machine.execAdd b s
  | .sub b => Sys2Proof.Machine.execSub b s
  | .mul b => Sys2Proof.Machine.execMul b s
  | .fma b => Sys2Proof.Machine.execFma b s
  | .vmin b => Sys2Proof.Machine.execVmin b s
  | .vmax b => Sys2Proof.Machine.execVmax b s
  | .vabs b => Sys2Proof.Machine.execVabs b s
  | .select b => Sys2Proof.Machine.execSelect b s
  | .shl b => Sys2Proof.Machine.execShl b s
  | .shr b => Sys2Proof.Machine.execShr b s
  | .cmul b => Sys2Proof.Machine.execCmul b s
  | .cmulc b => Sys2Proof.Machine.execCmulc b s
  | .vsum b => Sys2Proof.Machine.execVsum b s
  | .rmax b => Sys2Proof.Machine.execRmax b s
  | .mac b => Sys2Proof.Machine.execMac b s
  | .graftApply b => Sys2Proof.Machine.execGraftApply b s
  | .graftGrad b => Sys2Proof.Machine.execGraftGrad b s
  | .graftStep b => Sys2Proof.Machine.execGraftStep b s
  | .cone b => Sys2Proof.Machine.execCone b s
  | .xsend b => Sys2Proof.Machine.execXsend b s
  | .xrecv b => Sys2Proof.Machine.execXrecv b s
  | .ksig b => Sys2Proof.Machine.execKsig b s
  | .kwait b => Sys2Proof.Machine.execKwait b s
  | .loop b => Sys2Proof.Machine.execLoop b s
  | .lbnd b => Sys2Proof.Machine.execLbnd b s
  | .endOp b => Sys2Proof.Machine.execEndOp b s
  | .pointerValueArrival b => Sys2Proof.Machine.execPointerValueArrival b s
  | .holdLinesFreed b => Sys2Proof.Machine.execHoldLinesFreed b s
  | .epochRetire b => Sys2Proof.Machine.execEpochRetire b s
  | .heldLineRelease b accepted parityBad => Sys2Proof.Machine.execHeldLineRelease b accepted parityBad s
  | .drainEnd b => Sys2Proof.Machine.execDrainEnd b s
  | .rangeRestoreWindow b l second => Sys2Proof.Machine.execRangeRestoreWindow b l second s
  | .biasWindowEnd b l g => Sys2Proof.Machine.execBiasWindowEnd b l g s
  | .xferLand b route sender => Sys2Proof.Machine.execXferLand b route sender s
  | .hbmReadResponse b o => Sys2Proof.Machine.execHbmReadResponse b o s
  | .patrolScrub ch o => Sys2Proof.Machine.execPatrolScrub ch o s
  | .diagnosisDone b l o => Sys2Proof.Machine.execDiagnosisDone b l o s
  | .leafTestDue b l => Sys2Proof.Machine.execLeafTestDue b l s
  | .leafPartDone b l o => Sys2Proof.Machine.execLeafPartDone b l o s
  | .logicTestDue b => Sys2Proof.Machine.execLogicTestDue b s
  | .testDeferralLimit b => Sys2Proof.Machine.execTestDeferralLimit b s
  | .logicPartDone b d1 d2 d3 => Sys2Proof.Machine.execLogicPartDone b d1 d2 d3 s
  | .fullVerifyDone b l levels => Sys2Proof.Machine.execFullVerifyDone b l levels s
  | .fieldTest q => Sys2Proof.Machine.execFieldTest q s
  | .fieldTestSchedule q => Sys2Proof.Machine.execFieldTestSchedule q s
  | .loadCanopy q => Sys2Proof.Machine.execLoadCanopy q s
  | .canopyValidateDone h => Sys2Proof.Machine.execCanopyValidateDone h s
  | .canopyQuiesceDone h => Sys2Proof.Machine.execCanopyQuiesceDone h s
  | .quiesceTimeout h => Sys2Proof.Machine.execQuiesceTimeout h s
  | .foldGraft q => Sys2Proof.Machine.execFoldGraft q s
  | .foldEntryReadbackDone h levels => Sys2Proof.Machine.execFoldEntryReadbackDone h levels s
  | .doorbell fn off len data => Sys2Proof.Machine.execDoorbell fn off len data s
  | .queEnable q => Sys2Proof.Machine.execQueEnable q s
  | .queDisable q => Sys2Proof.Machine.execQueDisable q s
  | .queResume q => Sys2Proof.Machine.execQueResume q s
  | .queFlush q => Sys2Proof.Machine.execQueFlush q s
  | .queCtrlWrite v => Sys2Proof.Machine.execQueCtrlWrite v s
  | .taskDispatch b => Sys2Proof.Machine.execTaskDispatch b s
  | .taskCompletion b => Sys2Proof.Machine.execTaskCompletion b s
  | .coalTimer q => Sys2Proof.Machine.execCoalTimer q s
  | .syncInEdge rising => Sys2Proof.Machine.execSyncInEdge rising s
  | .knotSignal n => Sys2Proof.Machine.execKnotSignal n s
  | .queKnotSignal v => Sys2Proof.Machine.execQueKnotSignal v s
  | .queKnotCfg v => Sys2Proof.Machine.execQueKnotCfg v s
  | .queKnotState v => Sys2Proof.Machine.execQueKnotState v s
  | .registerWrite acc v => Sys2Proof.Machine.execRegisterWrite acc v s
  | .registerReadClear acc => Sys2Proof.Machine.execRegisterReadClear acc s
  | .loRegisterRead off => Sys2Proof.Machine.execLoRegisterRead off s
  | .bar0AccessTimeout acc isWrite => Sys2Proof.Machine.execBar0AccessTimeout acc isWrite s
  | .bar2Read addr len => Sys2Proof.Machine.execBar2Read addr len s
  | .bar2Write addr bytes => Sys2Proof.Machine.execBar2Write addr bytes s
  | .vfFlr vf => Sys2Proof.Machine.execVfFlr vf s
  | .vfFlrDone vf => Sys2Proof.Machine.execVfFlrDone vf s
  | .pfFlr => Sys2Proof.Machine.execPfFlr s
  | .msixUnmask fn act => Sys2Proof.Machine.execMsixUnmask fn act s
  | .dmaRequestFailed t addr => Sys2Proof.Machine.execDmaRequestFailed t addr s
  | .pfD3hotEntry => Sys2Proof.Machine.execPfD3hotEntry s
  | .pfD0Transition => Sys2Proof.Machine.execPfD0Transition s
  | .pmeTurnOff => Sys2Proof.Machine.execPmeTurnOff s
  | .pwrReqDormant => Sys2Proof.Machine.execPwrReqDormant s
  | .pwrReqWake => Sys2Proof.Machine.execPwrReqWake s
  | .dormantEntryStepDone => Sys2Proof.Machine.execDormantEntryStepDone s
  | .entryTimeout => Sys2Proof.Machine.execEntryTimeout s
  | .wakeEvent kind => Sys2Proof.Machine.execWakeEvent kind s
  | .wakeStepDone o => Sys2Proof.Machine.execWakeStepDone o s
  | .shadeIdleTimeout island => Sys2Proof.Machine.execShadeIdleTimeout island s
  | .islandRestart island => Sys2Proof.Machine.execIslandRestart island s
  | .clockLock island => Sys2Proof.Machine.execClockLock island s
  | .budPwrCap v => Sys2Proof.Machine.execBudPwrCap v s
  | .standReset j v => Sys2Proof.Machine.execStandReset j v s
  | .standResetStepDone j o => Sys2Proof.Machine.execStandResetStepDone j o s
  | .selfRefreshTimeout j => Sys2Proof.Machine.execSelfRefreshTimeout j s
  | .standResetEscalation j => Sys2Proof.Machine.execStandResetEscalation j s
  | .dumpUnitTimeout => Sys2Proof.Machine.execDumpUnitTimeout s
  | .dump q => Sys2Proof.Machine.execDump q s
  | .dumpUnitRead us payload => Sys2Proof.Machine.execDumpUnitRead us payload s
  | .replayAttemptEnd j => Sys2Proof.Machine.execReplayAttemptEnd j s
  | .replayBudgetExpiry j => Sys2Proof.Machine.execReplayBudgetExpiry j s
  | .warmReset v => Sys2Proof.Machine.execWarmReset v s
  | .warmResetStepDone o => Sys2Proof.Machine.execWarmResetStepDone o s
  | .warmDumpTimeout => Sys2Proof.Machine.execWarmDumpTimeout s
  | .warmNoticeTimeout => Sys2Proof.Machine.execWarmNoticeTimeout s
  | .coldReset => Sys2Proof.Machine.execColdReset s
  | .discoveryMessage port sideB m => Sys2Proof.Machine.execDiscoveryMessage port sideB m s
  | .discoveryTimeout ring => Sys2Proof.Machine.execDiscoveryTimeout ring s
  | .aetholoFlitReceive port sideB f => Sys2Proof.Machine.execAetholoFlitReceive port sideB f s
  | .linkRetrainDone port sideB => Sys2Proof.Machine.execLinkRetrainDone port sideB s
  | .linkRetrainTimeout port sideB => Sys2Proof.Machine.execLinkRetrainTimeout port sideB s
  | .linkDown port link => Sys2Proof.Machine.execLinkDown port link s
  | .collArm e => Sys2Proof.Machine.execCollArm e s
  | .collDisarm e => Sys2Proof.Machine.execCollDisarm e s
  | .collectiveTransfer port sideB x => Sys2Proof.Machine.execCollectiveTransfer port sideB x s
  | .collectiveArrival dev e stand sig => Sys2Proof.Machine.execCollectiveArrival dev e stand sig s
  | .collectiveRelease e status dev stand => Sys2Proof.Machine.execCollectiveRelease e status dev stand s
  | .collectiveRunEnd e => Sys2Proof.Machine.execCollectiveRunEnd e s
  | .aetholoKnotSignal knot => Sys2Proof.Machine.execAetholoKnotSignal knot s
  | .aelSysReset v => Sys2Proof.Machine.execAelSysReset v s
  | .sysResetNotice => Sys2Proof.Machine.execSysResetNotice s
  | .resetNotice dev stand warm inc => Sys2Proof.Machine.execResetNotice dev stand warm inc s
  | .peerNotice dev stand reason inc => Sys2Proof.Machine.execPeerNotice dev stand reason inc s
  | .storeWriteOpStart => Sys2Proof.Machine.execStoreWriteOpStart s
  | .storeWriteOpDone fails => Sys2Proof.Machine.execStoreWriteOpDone fails s
  | .storeBackgroundStep ok => Sys2Proof.Machine.execStoreBackgroundStep ok s
  | .poweredHourTick => Sys2Proof.Machine.execPoweredHourTick s
  | .getIdentity r => Sys2Proof.Machine.execGetIdentity r s
  | .getStatus r => Sys2Proof.Machine.execGetStatus r s
  | .getTelemetry r => Sys2Proof.Machine.execGetTelemetry r s
  | .readRecords r => Sys2Proof.Machine.execReadRecords r s
  | .clearAlert r => Sys2Proof.Machine.execClearAlert r s
  | .mgmtStandReset r => Sys2Proof.Machine.execMgmtStandReset r s
  | .mgmtWarmReset r => Sys2Proof.Machine.execMgmtWarmReset r s
  | .mgmtColdReset r => Sys2Proof.Machine.execMgmtColdReset r s
  | .mgmtPowerDormant r => Sys2Proof.Machine.execMgmtPowerDormant r s
  | .mgmtPowerWake r => Sys2Proof.Machine.execMgmtPowerWake r s
  | .setPowerCap r => Sys2Proof.Machine.execSetPowerCap r s
  | .writeRole r => Sys2Proof.Machine.execWriteRole r s
  | .getQuote r => Sys2Proof.Machine.execGetQuote r s
  | .getDebugNonce r nonce => Sys2Proof.Machine.execGetDebugNonce r nonce s
  | .provision r => Sys2Proof.Machine.execProvision r s
  | .installOwner r => Sys2Proof.Machine.execInstallOwner r s
  | .transferOwner r => Sys2Proof.Machine.execTransferOwner r s
  | .setPolicy r => Sys2Proof.Machine.execSetPolicy r s
  | .svnCommit r => Sys2Proof.Machine.execSvnCommit r s
  | .release r => Sys2Proof.Machine.execRelease r s
  | .debugGrant r => Sys2Proof.Machine.execDebugGrant r s
  | .fwBegin r => Sys2Proof.Machine.execFwBegin r s
  | .fwData r => Sys2Proof.Machine.execFwData r s
  | .fwEnd r => Sys2Proof.Machine.execFwEnd r s
  | .setEndpointId via eid => Sys2Proof.Machine.execSetEndpointId via eid s
  | .getEndpointId via => Sys2Proof.Machine.execGetEndpointId via s
  | .getEndpointUuid via => Sys2Proof.Machine.execGetEndpointUuid via s
  | .getMctpVersionSupport via => Sys2Proof.Machine.execGetMctpVersionSupport via s
  | .getMessageTypeSupport via => Sys2Proof.Machine.execGetMessageTypeSupport via s
  | .getVendorDefinedMsgSupport via => Sys2Proof.Machine.execGetVendorDefinedMsgSupport via s
  | .smbusAlertResponse => Sys2Proof.Machine.execSmbusAlertResponse s
  | .extest bits => Sys2Proof.Machine.execExtest bits s
  | .idcode => Sys2Proof.Machine.execIdcode s
  | .samplePreload pins bits => Sys2Proof.Machine.execSamplePreload pins bits s
  | .clamp => Sys2Proof.Machine.execClamp s
  | .highz => Sys2Proof.Machine.execHighz s
  | .extestPulse => Sys2Proof.Machine.execExtestPulse s
  | .extestTrain => Sys2Proof.Machine.execExtestTrain s
  | .bypass code => Sys2Proof.Machine.execBypass code s
  | .refclkLoss => Sys2Proof.Machine.execRefclkLoss s
  | .heartbeatTick core => Sys2Proof.Machine.execHeartbeatTick core s
  | .hostReadCompletion t data => Sys2Proof.Machine.execHostReadCompletion t data s
  | .configurationRequest fn act => Sys2Proof.Machine.execConfigurationRequest fn act s

end Sys2Proof.Machine
end

