-- ==== Sys2Proof/WellFormed.lean ====
section
/-! DEFINITION. Which operands a command can carry: the ranges of units, rings, ports, knots and payloads that the manual gives. No meaning rests on them; a meaning answers every command. -/

namespace Sys2Proof

open Sys2Proof.Machine

/-- A device-wide bough number (R5). -/
def okBough (b : Nat) : Bool := decide (b < 16)

/-- A physical leaf of a bough (R5). -/
def okLeaf (b l : Nat) : Bool := okBough b && decide (l < 18)

/-- A stand (R5). -/
def okStand (j : Nat) : Bool := decide (j < 4)

/-- A queue number (R250). -/
def okQueue (q : Nat) : Bool := decide (q < 2 ^ 20)

/-- A knot (R262). -/
def okKnot (n : Nat) : Bool := decide (n < 65536)

/-- A slot of long operations (R272). -/
def okSlot (h : Nat) : Bool := decide (h < 256)

/-- A port of the Aetholo block (R292). -/
def okPort (p : Nat) : Bool := decide (p < 4)

/-- A collective entry (R300). -/
def okEntry (e : Nat) : Bool := decide (e < 4096)

/-- A device of a system: the manager's 0 or a worker's 1 + 16r + p (R291). -/
def okDev (d : Nat) : Bool := decide (d ≤ 64)

/-- A PCIe function: 0 = physical, 1 to 31 virtual (R278). -/
def okFn (f : Nat) : Bool := decide (f < 32)

/-- A clock island (Table 16-1). -/
def okIsland (i : Nat) : Bool := decide (i < 29)

/-- A management payload fits a message: at most 1,024 bytes of data after a 4-byte offset (R422). -/
def okPayload (bs : List Byte) : Bool := decide (bs.length ≤ 1028)

/-- A BAR0 access inside the window of Table 12-2. -/
def okAcc (a : Bar0Acc) : Bool := okFn a.fn && decide (a.off < if a.fn = 0 then 0x4000000 else 0x10000)

/-- Levels read back are the cell levels 0 to 3 (R26). -/
def okLevels (m : SMap Nat) : Bool := m.all fun p => decide (p.2 < 4)

/-- The operands of a command are in range. -/
def Instr.wf : Instr → Bool
  | .refSelfCheck b l o => okLeaf b l && decide (o.codes.length = 32)
  | .leafPhase b l _ | .refDriftBlockEnd b l | .recalSpacingEnd b l | .calMeasurementDone b l _ | .calCommit b l => okLeaf b l
  | .rangeRestoreWindow b l _ | .diagnosisDone b l _ | .leafTestDue b l | .leafPartDone b l _ => okLeaf b l
  | .biasWindowEnd b l g => okLeaf b l && decide (g < 16)
  | .fullVerifyDone b l levels => okLeaf b l && okLevels levels
  | .governorInterval o => decide (o.working ≤ 288)
  | .calibrate q | .programLeaf q | .suspend q | .resume q | .cancel q | .fieldTest q | .fieldTestSchedule q | .loadCanopy q | .foldGraft q | .dump q => okQueue q
  | .queEnable q | .queDisable q | .queResume q | .queFlush q | .coalTimer q => okQueue q
  | .calibrateLoadTimeout h | .canopyValidateDone h | .canopyQuiesceDone h | .quiesceTimeout h => okSlot h
  | .foldEntryReadbackDone h levels => okSlot h && okLevels levels
  | .spareLeafFreed b | .leafSwap b | .nop b | .fetch b | .store b | .drive b | .combine3 b | .rescale b | .table b | .cvt b => okBough b
  | .add b | .sub b | .mul b | .fma b | .vmin b | .vmax b | .vabs b | .select b | .shl b | .shr b | .cmul b | .cmulc b | .vsum b | .rmax b | .mac b => okBough b
  | .graftApply b | .graftGrad b | .graftStep b | .cone b | .xsend b | .xrecv b | .ksig b | .kwait b | .loop b | .lbnd b | .endOp b => okBough b
  | .pointerValueArrival b | .holdLinesFreed b | .epochRetire b | .heldLineRelease b _ _ | .drainEnd b => okBough b
  | .hbmReadResponse b _ | .logicTestDue b | .testDeferralLimit b | .logicPartDone b _ _ _ | .taskDispatch b | .taskCompletion b => okBough b
  | .xferLand b route sender => okBough b && decide (route < 1024) && decide (sender < 16)
  | .patrolScrub ch _ => decide (ch < 32)
  | .doorbell fn off _ _ => okFn fn && decide (off < 0x1000000)
  | .knotSignal n | .aetholoKnotSignal n => okKnot n
  | .registerWrite acc _ | .registerReadClear acc | .bar0AccessTimeout acc _ => okAcc acc
  | .loRegisterRead off => decide (off < 0x4000000)
  | .bar2Read addr len => decide (addr + len ≤ 2 ^ 36 ∧ 0 < len)
  | .bar2Write addr bytes => decide (addr + bytes.length ≤ 2 ^ 36) && !bytes.isEmpty
  | .vfFlr vf | .vfFlrDone vf => okFn vf && decide (0 < vf)
  | .msixUnmask fn act => okFn fn && (match act with | .unmask v => decide (v < if fn = 0 then 2048 else 64) | _ => true)
  | .dmaRequestFailed t _ | .hostReadCompletion t _ => (match t with | .ring q => okQueue q | .fetch b | .ptr b => okBough b)
  | .configurationRequest fn act => okFn fn && (match act with | .vfEnable _ num => decide (num ≤ 31) | _ => true)
  | .shadeIdleTimeout n | .islandRestart n | .clockLock n => okIsland n
  | .standReset j _ | .standResetStepDone j _ | .selfRefreshTimeout j | .standResetEscalation j | .replayAttemptEnd j | .replayBudgetExpiry j => okStand j
  | .discoveryMessage port _ m => okPort port && (match m with | .discovery _ | .discoveryAnswer _ _ _ _ => true | _ => false)
  | .discoveryTimeout ring => decide (ring < 4)
  | .aetholoFlitReceive port _ f => okPort port && decide (f.bytes.length = 248)
  | .linkRetrainDone port _ | .linkRetrainTimeout port _ => okPort port
  | .linkDown port link => okPort port && decide (link ≤ 16)
  | .collArm e | .collDisarm e | .collectiveRunEnd e => okEntry e
  | .collectiveTransfer port _ x => okPort port && okEntry x.entry && okDev x.dev && decide (x.half ≤ 2)
  | .collectiveArrival dev e stand _ => okDev dev && okEntry e && okStand stand
  | .collectiveRelease e _ dev stand => okEntry e && okDev dev && okStand stand
  | .resetNotice dev stand _ _ | .peerNotice dev stand _ _ => okDev dev && okStand stand
  | .heartbeatTick core => decide (core < 2)
  | .getIdentity r | .getStatus r | .getTelemetry r | .readRecords r | .clearAlert r | .mgmtStandReset r | .mgmtWarmReset r | .mgmtColdReset r => okPayload r.payload
  | .mgmtPowerDormant r | .mgmtPowerWake r | .setPowerCap r | .writeRole r | .getQuote r | .fwBegin r | .fwData r | .fwEnd r => okPayload r.payload
  | .getDebugNonce r nonce => okPayload r.payload && decide (nonce.length = 32)
  | .provision r | .installOwner r | .transferOwner r | .setPolicy r | .svnCommit r | .release r | .debugGrant r => decide (r.idHash.length = 32)
  | .bypass code => !(code == 0x00 || code == 0x01 || code == 0x02 || code == 0x04 || code == 0x05 || code == 0x06 || code == 0x07)
  | .vinApplied _ | .storeRecoveryDone _ | .lossOf12V _ | .railFault _ | .perstNAssert | .perstNDeassert _ _ | .startupStageDone _ | .fwSlotConfirm => true
  | .xmssSubtreeBuildDone | .progStepDone _ _ | .queCtrlWrite _ | .syncInEdge _ | .queKnotSignal _ | .queKnotCfg _ | .queKnotState _ => true
  | .pfFlr | .refclkLoss | .pfD3hotEntry | .pfD0Transition | .pmeTurnOff | .pwrReqDormant | .pwrReqWake | .dormantEntryStepDone | .entryTimeout => true
  | .wakeEvent _ | .wakeStepDone _ | .budPwrCap _ | .dumpUnitTimeout | .dumpUnitRead _ _ | .warmReset _ | .warmResetStepDone _ | .warmDumpTimeout => true
  | .warmNoticeTimeout | .coldReset | .aelSysReset _ | .sysResetNotice | .storeWriteOpStart | .storeWriteOpDone _ | .storeBackgroundStep _ => true
  | .poweredHourTick | .setEndpointId _ _ | .getEndpointId _ | .getEndpointUuid _ | .getMctpVersionSupport _ | .getMessageTypeSupport _ => true
  | .getVendorDefinedMsgSupport _ | .smbusAlertResponse | .extest _ | .idcode | .samplePreload _ _ | .clamp | .highz | .extestPulse | .extestTrain => true

end Sys2Proof
end

