-- ==== Sys2Proof/Safety.lean ====
section
/-! DEFINITION. The terms claims use: a canonical state, states that agree on memory, and the conditions under which a command of a queue, an operation of a twig and a management message are served. -/

namespace Sys2Proof.Machine

/-- The invariant of memory: its list is in canonical form. -/
def State.Canonical (s : State) : Prop := Memory.wf s.hbm = true

/-- Every byte of HBM reads the same in both states, and the same words read as uncorrectable. -/
def SameMemory (s t : State) : Prop := (∀ a, memGet t.hbm a = memGet s.hbm a) ∧ t.hbmBad = s.hbmBad

/-- The head of command queue `q` is the well-formed record `t` with opcode `opc`, it can be read, and its turn has come (R271, R272). `n` completions and the argument ranges `used` belong to the opcode. -/
def State.ServesHead (s : State) (q opc n : Nat) (used : List (Nat × Nat)) (t : TaskRec) : Prop :=
  ∃ bs, s.takeCommand q n = some (t, bs) ∧ s.cmdTurn q = true ∧ s.headUe q = none ∧ knownOpcode t.program = true ∧ t.program = opc ∧ cmdFieldsOk bs used = true

/-- Bough `b` presents operation word `w` of task `t` in canopy `c` for issue; `s1` is the state once the task's start has been made (R151, R167, R200). -/
def State.Presents (s : State) (b : Nat) (s1 : State) (t : Task) (c : Canopy) (w : OpWord) : Prop := s.present b = .ok (some (s1, t, c, w))

/-- The state that an operation which issued leaves on its bough: no wait but for a knot's token or a transfer (R200, Tables 7-9 and 7-10). -/
def State.issued (s : State) (b : Nat) : State :=
  s.onBough b fun x => { x with wait := match x.wait with | .knot n => .knot n | .xrecv r t l => .xrecv r t l | _ => .none, ptrOk := false }

/-- Bough `b` presents a word that `pick` names and its operation `op` issues, which leaves the state `u`. -/
def State.Issues (s : State) (b : Nat) (pick : OpWord → Prop) (op : Nat → State → Task → Canopy → OpWord → Issue State) (u : State) : Prop :=
  ∃ s1 t c w s2, s.Presents b s1 t c w ∧ pick w ∧ op b s1 t c w = .ok s2 ∧ u = s2.issued b

/-- A part of an operation that its checks pass, with a property of what it gives. -/
def okWith {α : Type} (r : Issue α) (p : α → Bool) : Bool := match r with | .ok a => p a | .error _ => false

/-- `n` more lines fit in the present epoch of bough `b` and are free (R177). -/
def State.LinesFit (s : State) (b n : Nat) : Prop := ((s.bough b).epochs.getLast?.elim 0 (·.footprint)) + n ≤ 2048 ∧ n ≤ (s.bough b).freeLines

/-- Lines that iterations fill on bough `b` (R177). -/
def State.fills (s : State) (b : Nat) (r : Issue State) : Nat := match r with | .ok u => (u.bough b).held.length - (s.bough b).held.length | .error _ => 0

/-- A FETCH may read for iteration `i`: both ranges lie in their spaces, host memory may be requested, and nothing held or pending stands in the way (R175, R214, R287). -/
def State.fetchReady (s : State) (b : Nat) (t : Task) (n : Nat) (i : Iter) : Bool :=
  i.inA.room n && i.outA.room n && (match i.outA with | .sap o => ((s.bough b).directStall o n).isNone | _ => false) &&
    match i.inA with | .hbm a => ((s.bough b).heldRange .hbm a n).isNone | .host a => ((s.bough b).heldRange .host a n).isNone && (s.func t.function).busMaster | _ => false

/-- A STORE may write for iteration `i`: both ranges lie in their spaces, whole elements move, the data is there, and host memory may be requested (R174, R287). -/
def State.storeReady (s : State) (b : Nat) (t : Task) (n elem : Nat) (i : Iter) : Bool :=
  i.inA.room n && i.outA.room n && decide (n % elem = 0) && (match i.inA with | .sap o => !(s.bough b).sapPending o n | _ => false) &&
    match i.outA with | .hbm _ => true | .host _ => (s.func t.function).busMaster | _ => false

/-- COMBINE3 may run on iteration `i`: its regions lie in the accumulators and no phase or contribution is outstanding on them (R429). -/
def State.combineReady (s : State) (b n : Nat) (i : Iter) : Bool :=
  okWith (accRegion i.inA (3 * n)) fun o => okWith (accRegion i.outA (2 * n)) fun q => !(s.accPending b o (3 * n) || s.accPending b q (2 * n))

/-- RESCALE may run on iteration `i`: the same of its region, and its output is formed (Table 8-5). -/
def State.rescaleReady (s : State) (b : Nat) (c : Canopy) (w : OpWord) (n : Nat) (i : Iter) : Bool :=
  decide ((c.desc w.localDesc).outTensor = w.a) && okWith (accRegion i.inA n) (fun o => !s.accPending b o n) && okWith (c.opd w.localDesc (c.desc w.localDesc) i 1 w.a n) fun _ => true

/-- An operand is formed and, where it is read, its data is there (R174, Table 8-5). -/
def Bough.opdReady (x : Bough) (c : Canopy) (dIdx : Nat) (i : Iter) (operand tensor n : Nat) (isRead : Bool) : Bool :=
  okWith (c.opd dIdx (c.desc dIdx) i operand tensor n) fun o => !(isRead && o.waits x)

/-- TABLE may run on iteration `i`. -/
def Bough.tableReady (x : Bough) (c : Canopy) (w : OpWord) (n : Nat) (i : Iter) : Bool :=
  match smFind x.tables w.a with
  | some sl => x.opdReady c w.localDesc i 0 sl.preTensor n true && x.opdReady c w.localDesc i 1 sl.outTensor n false
  | none => false

/-- CVT may run on iteration `i`: neither tensor is Cone4 (R427). -/
def Bough.cvtReady (x : Bough) (c : Canopy) (w : OpWord) (n : Nat) (i : Iter) : Bool :=
  let d := c.desc w.localDesc
  decide ((c.quant d.inTensor).fmt ≠ .cone4 ∧ (c.quant d.outTensor).fmt ≠ .cone4) && x.opdReady c w.localDesc i 0 d.inTensor n true && x.opdReady c w.localDesc i 1 d.outTensor n false

/-- A VEC function may run on iteration `i`: aux is an operand of the two-source functions, and FMA and MAC read out (Table 7-14). -/
def Bough.vecReady (x : Bough) (c : Canopy) (w : OpWord) (n : Nat) (i : Iter) : Bool :=
  let d := c.desc w.localDesc
  let k := n * (c.quant d.inTensor).fmt.comps
  x.opdReady c w.localDesc i 0 d.inTensor k true && (decide (w.a = 6 ∨ w.a = 12 ∨ w.a = 13) || x.opdReady c w.localDesc i 2 d.inTensor k true) &&
    x.opdReady c w.localDesc i 1 d.outTensor (if w.a = 12 ∨ w.a = 13 then 1 else k) (decide (w.a = 3 ∨ w.a = 14))

/-- CONE may run on iteration `i` with its weights in HBM: its operands are formed, its weights lie in the space and no held write meets them, and every block is well formed (R120, R156, R157). -/
def State.coneReady (s : State) (b : Nat) (t : Task) (c : Canopy) (w : OpWord) (n : Nat) (i : Iter) : Bool :=
  let d := c.desc w.localDesc
  let nb := ceilDiv (i.extK.getD 0) 32
  coneFormat (c.quant d.inTensor).fmt && (s.bough b).opdReady c w.localDesc i 0 d.inTensor (i.extK.getD 0) true && okWith (fp32Opd i.outA n) (fun _ => true) &&
    (match i.auxA with | .hbm _ => true | _ => false) &&
    match c.companion w.localDesc 2 with
    | some cp => (coneAreas d i cp nb n).all (fun a => okWith (s.coneRange b a.1 a.2) fun _ => true) &&
        (List.range (nb * n)).all fun m => let r := s.coneBlockAt b d i cp (d.coneFirst i + (m : Nat)); (coneDecode (f32val (t.scale c w.a).s) (r.1 &&& 0x3FF#32) r.2.1 r.2.2).isSome
    | none => false

/-- No word of HBM reads as uncorrectable. -/
def State.HbmGood (s : State) : Prop := ∀ a n, s.firstUe a n = none

/-- An operation word's fields in their places (R167). -/
def OpWord.bits (w : OpWord) : DWord := BitVec.ofNat 64 (w.opcode * 2 ^ 58 + w.flags * 2 ^ 48 + w.a * 2 ^ 32 + w.b)

/-- A management message that the bud serves now (R421 to R423): the bud runs, its transport works, and the store does not hold SMBus. -/
def State.BudServes (s : State) (via : Transport) : Prop :=
  s.trunk.boot ≠ .off ∧ (via = .vdm → s.live = true) ∧ (via = .smbus → s.store.busy = .idle)

/-- No field of the block but those of one bough's own record changed: its operations touch no memory, register block, leaf or other bough. -/
def OnlyBough (b : Nat) (s t : State) : Prop := t = { s with boughs := t.boughs } ∧ ∀ b', b' ≠ b → t.bough b' = s.bough b'

/-- What an operation that issued on bough `b` leaves: only its bough is changed, its next operation stands at issue, and `n` more lines are held after those held before. -/
def Issued (b n : Nat) (s t : State) : Prop :=
  OnlyBough b s t ∧ (t.bough b).ck.pc = (s.bough b).ck.pc + 1 ∧ (s.bough b).held <+: (t.bough b).held ∧ (t.bough b).held.length = (s.bough b).held.length + n

end Sys2Proof.Machine
end

