-- ==== Sys2Proof/Certificates/Slice0/Obligations.lean ====
section
/-! DEFINITION. The statements for the provers: what each command of the block does, what it leaves alone, and what every step keeps. A statement whose basis is derived rests on more than one rule, or on a choice that its text and the assumption log name. -/

open Sys2Proof Sys2Proof.Machine

/-- O1: A step runs the command at the front of the queue on the state with the queue's rest. -/
def Obligations.StepRunsFrontCommand : Prop :=
  ∀ (c : Instr) (rest : List Instr) (s : State), step { s with pending := c :: rest } = exec c { s with pending := rest }

/-- O2: On an empty queue the block idles (log entry 1, the model's choice); and the table gives no row any bits, so no word spells a command and withFetchWord changes nothing. -/
def Obligations.EmptyQueueIdlesAndNoWordSpells : Prop :=
  (∀ s : State, s.pending = [] → step s = .next s) ∧
  (∀ (nbits w : Nat) (s : State), decodeTableWord nbits w = none ∧ s.withFetchWord nbits w = s)

/-- O3: Every command answers a next state; only a vendor TAP code under a debug grant, or in Manufacturing, is refused (R425). -/
def Obligations.EveryCommandAnswers : Prop :=
  ∀ (c : Instr) (s : State), (∃ t, exec c s = .next t) ∨
    ∃ code : Byte, c = .bypass code ∧ 0x80 ≤ code.toNat ∧ code.toNat ≤ 0xFE ∧ (s.trunk.debugActive = true ∨ s.store.counters.lifecycle = 0) ∧
      exec c s = .refused (.vendorInstruction code)

/-- O4: Every step from a state whose memory is in canonical form answers a state whose memory is: the form is the model's representation of HBM. -/
def Obligations.StepKeepsMemoryCanonical : Prop :=
  ∀ s t : State, Memory.wf s.hbm = true → step s = .next t → Memory.wf t.hbm = true

/-- O5: A step takes exactly the front command off the queue: no command's effect touches the queue. -/
def Obligations.StepTakesFrontCommand : Prop :=
  ∀ s t : State, Memory.wf s.hbm = true → step s = .next t → t.pending = s.pending.tail

/-- O6: What `State.reset` leaves: memory canonical and zero, the queue empty, 12 V off, PERST_N low, the store as delivered (the reset point is the model's choice, log entry 2); and the registers' reset values of Tables 3-6, 6-5, 7-7, 9-14, 11-10, 14-11, 15-9, 16-7 and 19-11. -/
def Obligations.ResetLeaves : Prop :=
  (Memory.wf State.reset.hbm = true ∧ State.reset.pending = [] ∧ (∀ a, memGet State.reset.hbm a = 0) ∧ State.reset.trunk.boot = .off ∧
      State.reset.bud.perst = true ∧ State.reset.store.counters.lifecycle = 0 ∧ (∀ k, (State.reset.leaf k).cells = []) ∧
      ∀ b, (State.reset.bough b).task = none) ∧
  ((∀ i < 4, (State.reset.standReg i 0x0000).value = 0x40200032#32 ∧ (State.reset.standReg i 0x8014).value = 0xFF000000#32 ∧
      (State.reset.standReg i 0x9000).value = 0x00010204#32 ∧ (State.reset.standReg i 0xC000).value = 0x00400018#32) ∧
    (∀ b < 16, (State.reset.boughReg b 0x2000).value = 0x00000128#32 ∧ (State.reset.boughReg b 0x3000).value = 0x000000C2#32) ∧
    (∀ k < 288, (State.reset.leafReg k 0x1004).value = 0x00010A03#32 ∧ (State.reset.leafReg k 0x1008).value = 0x0000FFFF#32) ∧
    (State.reset.budReg 0x08).value = 0x000A0A01#32 ∧ (State.reset.budReg 0x10).value = 0x0000000B#32 ∧ (State.reset.budReg 0x28).value = 0x0000005A#32 ∧
    (State.reset.budReg 0x34).value = 0x00006964#32 ∧ (State.reset.trunkReg 0x1000).value = 0x00000001#32)

/-- O7: VIN_APPLIED brings up the rails and reads the SMBus straps; LOSS_OF_12V and RAIL_FAULT leave the flash, the cells and the markers alone. -/
def Obligations.SupplyEvents : Prop :=
  (∀ (straps : BitVec 2) (s : State), s.trunk.boot = .off → s.bud.railFault = false →
    exec (.vinApplied straps) s = .next { s with trunk := { s.trunk with boot := .recovering }, mgmt := { s.mgmt with smbAddr := BitVec.ofNat 7 (0x64 + straps.toNat) } }) ∧
  (∀ (kept : Nat) (s : State), s.trunk.boot ≠ .off → ∃ t u, exec (.lossOf12V kept) s = .next t ∧ exec (.railFault kept) s = .next u ∧
    u = { t with bud := { t.bud with railFault := true } } ∧ t.bud.railFault = false ∧ t.bud.pwrGood = false ∧ t.trunk.boot = .off ∧ t.pcie.linkState = 0 ∧ t.store = s.store.cutOff kept ∧ (∀ a, memGet t.hbm a = 0) ∧
    (∀ k, (t.leaf k).cells = (s.leaf k).cells ∧ (t.leaf k).marker = (s.leaf k).marker ∧ (t.leaf k).derivedOk = false) ∧
    t = { State.reset with store := t.store, leaves := t.leaves, out := s.out, freeCtr := s.freeCtr, pending := s.pending, mgmt := t.mgmt })

/-- O8: Recovery of the store ends: PWR_GOOD is released, the role record applies and the power-on count is written. -/
def Obligations.StoreRecoveryReleasesPower : Prop :=
  ∀ (us : BitVec 16) (s : State), s.trunk.boot = .recovering → ∃ t, exec (.storeRecoveryDone us) s = .next t ∧
    t.trunk = { s.trunk with boot := .waiting } ∧ t.bud.pwrGood = true ∧ t.store.state = .ready ∧ t.store.busy = .idle ∧ t.store.scanTime = us ∧
    t.store.queue = [.ring 0 ((nth {} (s.store.recover us).rings 0).value + 1)] ∧ t.ael.role = ({ s with store := s.store.recover us }).roleRec ∧
    t = { s with trunk := t.trunk, store := t.store, bud := { s.bud with pwrGood := true, grant := t.bud.grant }, ael := { s.ael with role := t.ael.role } }

/-- O9: PERST_N asserted is a cold reset: links down, HBM zero, queued writes discarded; cells, markers and the test port kept. Released with PWR_GOOD, it starts the boot ROM, or holds it while the store works. -/
def Obligations.PerstEdges : Prop :=
  (∀ s : State, s.trunk.boot ≠ .off → s.trunk.boot ≠ .recovering → ∃ t, exec .perstNAssert s = .next t ∧
    t.bud.perst = true ∧ t.trunk.boot = .waiting ∧ t.trunk.time = s.trunk.time ∧ t.pcie.ready = false ∧ t.pcie.linkState = 0 ∧ t.store = { s.store with queue := [] } ∧
    (∀ a, memGet t.hbm a = 0) ∧ (∀ k, (t.leaf k).cells = (s.leaf k).cells ∧ (t.leaf k).marker = (s.leaf k).marker ∧ (t.leaf k).record = (s.leaf k).record) ∧
    t.stands = [] ∧ t.boughs = [] ∧ t.tap = s.tap ∧ t.pending = s.pending) ∧
  (∀ s : State, s.trunk.boot = .off ∨ s.trunk.boot = .recovering → exec .perstNAssert s = .next { s with bud := { s.bud with perst := true } }) ∧
  (∀ (refclk : Bool) (puf : List Byte) (s : State), s.bud.perst = true → s.trunk.boot = .waiting → s.store.busy ≠ .idle →
    exec (.perstNDeassert refclk puf) s = .next { s with bud := { s.bud with perst := false }, trunk := { s.trunk with puf := puf, boot := .held }, pcie := { s.pcie with refclkExt := refclk, refclkIn := refclk } }) ∧
  (∀ (refclk : Bool) (puf : List Byte) (s : State), s.bud.perst = true → s.trunk.boot = .waiting → s.store.busy = .idle →
    ∃ t, exec (.perstNDeassert refclk puf) s = .next t ∧ t.bud.perst = false ∧ t.pcie.refclkExt = refclk ∧ t.trunk.puf = puf ∧ t.trunk.boot = .verifying ∧
      t.trunk.runningSlot = s.bootChoice.1 ∧ t.trunk.otherSlot = s.bootChoice.2.1)

/-- O10: STARTUP_STAGE_DONE in each stage of start-up, in their order (R394, R396, R397, Table 18-1). A slot that verifies starts trunk firmware from that slot; one that fails is noted and the other slot is tried, and when both fail the boot ROM goes on in recovery mode. A slot-state write that is not durable holds the stage. Then HBM is trained and the markers are acted on; leaves without derived configuration are read back; ACTIVE leaves are self-checked, then calibrated; and readiness is signalled with the link's parameters. The later stages are given by the model's shared operations. -/
def Obligations.StartupStages : Prop :=
  ∀ (o : StartObs) (s : State),
    let check := s.fwCheck (s.slotBytes s.trunk.runningSlot)
    let timed : State := { s with trunk := { s.trunk with verifyTime := s.trunk.verifyTime + o.timeUs } }
    let failed : State := { s with trunk := { s.trunk with verifyTime := s.trunk.verifyTime + o.timeUs, fwFails := s.trunk.fwFails ++ [(s.trunk.runningSlot, check)] } }
    (s.trunk.boot = .verifying → s.slotWriteOn = true → exec (.startupStageDone o) s = .next s) ∧
    (s.trunk.boot = .verifying → s.slotWriteOn = false → check ≠ 0 →
      exec (.startupStageDone o) s = .next { failed with trunk := { failed.trunk with boot := .verifyOther, runningSlot := s.trunk.otherSlot, bootResult := if s.trunk.bootResult = 0 then 1 else s.trunk.bootResult } }) ∧
    ((s.trunk.boot = .verifying ∧ s.slotWriteOn = false) ∨ s.trunk.boot = .verifyOther → check = 0 → ∃ t, exec (.startupStageDone o) s = .next t ∧
      t = State.trainPorts ((timed.startFirmware s.trunk.runningSlot false).onTrunk fun x => { x with boot := .training }) ∧ t.trunk.boot = .training ∧ t.trunk.fwRunning = true ∧
      t.trunk.recovery = false ∧ t.trunk.runningSlot = s.trunk.runningSlot ∧ t.trunk.bootResult = s.trunk.bootResult ∧ t.trunk.fwDigest = fwDigest (s.slotBytes s.trunk.runningSlot)) ∧
    (s.trunk.boot = .verifyOther → check ≠ 0 → ∃ t, exec (.startupStageDone o) s = .next t ∧
      t = (failed.startFirmware s.trunk.runningSlot true).onTrunk (fun x => { x with boot := .training }) ∧ t.trunk.boot = .training ∧ t.trunk.fwRunning = true ∧ t.trunk.recovery = true ∧
      t.trunk.runningSlot = 0 ∧ t.trunk.bootResult = 3 ∧ t.trunk.fwDigest = []) ∧
    (s.trunk.boot = .training → ∃ u, u = o.crcFail.foldl (fun (u : State) k => u.onLeaf k fun l => { l with derivedOk := false }) ((s.trainHbm o.untrained).recoverLeaves s.allLeaves) ∧
      exec (.startupStageDone o) s = .next { u with trunk := { u.trunk with boot := if u.needReadback = [] then .selfCheck else .readback } }) ∧
    (s.trunk.boot = .readback → ∃ u, u = s.needReadback.foldl (fun (u : State) k => u.readBackLeaf k (smGet [] o.levels k)) s ∧ exec (.startupStageDone o) s = .next { u with trunk := { u.trunk with boot := .selfCheck } }) ∧
    (s.trunk.boot = .selfCheck → ∃ u, u = s.checkLeaves s.activeLeaves o.refs o.refMon ∧ exec (.startupStageDone o) s = .next { u with trunk := { u.trunk with boot := .calibrating } }) ∧
    (s.trunk.boot = .calibrating → ∃ u, u = s.startCals o.meas ∧ exec (.startupStageDone o) s = .next { u with
      trunk := { u.trunk with boot := .ready, confirmDue := !u.trunk.recovery }, pcie := { u.pcie with ready := true, linkState := 1, rate := o.rate, width := o.width, flit := o.flit, readyTime := o.readyUs }, out := .drs :: u.out })

/-- O11: FW_SLOT_CONFIRM: once after readiness, running firmware queues the write of its slot as the active one (R396); with no confirmation due nothing changes, and with a read-only store nothing is written. XMSS_SUBTREE_BUILD_DONE: the subtree of the next index is ready, and each quote that waited for it is served, in order (R404). -/
def Obligations.FirmwareConfirms : Prop :=
  (∀ s : State, s.trunk.boot = .ready → s.trunk.fwRunning = true → s.trunk.warmBusy = false →
    (s.trunk.confirmDue = true → s.store.state ≠ .readOnly →
      exec .fwSlotConfirm s = .next { s with trunk := { s.trunk with confirmDue := false }, store := { s.store with queue := enqueue s.store.queue (.record { key := 0x06000020, payload := .slotState { active := s.trunk.runningSlot } } .none) } }) ∧
    (s.trunk.confirmDue = true → s.store.state = .readOnly → exec .fwSlotConfirm s = .next { s with trunk := { s.trunk with confirmDue := false } }) ∧
    (s.trunk.confirmDue = false → exec .fwSlotConfirm s = .next s)) ∧
  (∀ s : State, s.trunk.fwRunning = true → s.trunk.warmBusy = false → s.trunk.identityOk = true → s.awake = true →
    let built : State := { s with trunk := { s.trunk with subtree := some (subtreeOf s.trunk.xmssNext) } }
    exec .xmssSubtreeBuildDone s = .next ((s.mgmt.pending.filter fun p => p.after == 6).foldl
      (fun (u : State) p => ({ u with mgmt := { u.mgmt with pending := u.mgmt.pending.filter fun x => !decide (x = p) } } : State).quote p.via p.answer) built) ∧
    ((∀ p ∈ s.mgmt.pending, p.after ≠ 6) → exec .xmssSubtreeBuildDone s = .next built) ∧
    (∀ p, s.mgmt.pending = [p] → p.after = 6 → s.trunk.xmssNext < s.trunk.xmssLimit → s.trunk.xmssNext < 1048575 → ∃ u, exec .xmssSubtreeBuildDone s = .next u ∧ u.mgmt.pending = [] ∧ u.trunk.xmssNext = s.trunk.xmssNext + 1 ∧
      u.out.head? = some (.mgmt p.via 0x10 0 (built.quoteBody s.trunk.xmssNext p.answer ++ sub (Config.xmssSign s.trunk.identityPk s.trunk.xmssNext (shake256 (built.quoteBody s.trunk.xmssNext p.answer))) 0 2820))))

/-- O12: A weight w of width b is stored as w′ = w + w_o, and w′ is the sum of 4^k times its slices (R32); a row's stored values give its bytes back (R90). -/
def Obligations.WeightStorage : Prop :=
  (∀ (w : BitVec 2) (row : List Byte) (j : Nat), w.toNat < 3 → j < logicals w →
    let b := weightBits w
    let x : Int := sext b ((nth 0 row (j * b / 8)).toNat / 2 ^ (j * b % 8) % 2 ^ b)
    ((nth 0 (rowStored w row) j : Nat) : Int) = x + ((weightOffset w : Nat) : Int) ∧ weightOffset w = 2 ^ (b - 1) ∧ [weightOffset 0, weightOffset 1, weightOffset 2] = [128, 8, 2] ∧
      nsum ((List.range (b / 2)).map fun k => 4 ^ k * sliceOf (nth 0 (rowStored w row) j) k) = nth 0 (rowStored w row) j ∧
      ∀ k, sliceOf (nth 0 (rowStored w row) j) k ≤ 3) ∧
  (∀ (w : BitVec 2) (row : List Byte), w.toNat < 3 → row.length = 128 → rowBytes w (rowStored w row) = row)

/-- O13: REF_SELF_CHECK and LEAF_PHASE. The self-check that is due runs on an ACTIVE leaf between vectors (R44): codes within 12 of the factory codes pass it, and fence and flag nothing. A granted phase runs on its leaf, and a waiting XRECV is then tried; a leaf that has left ACTIVE executes none of its phases, sets its flag and drops them (R54). -/
def Obligations.LeafEvents : Prop :=
  (∀ (b l : Nat) (codes : List Nat) (mon : SMap Int) (s : State), s.enabled b = true → l < 18 → (s.leaf (leafNo b l)).refCheckDue = true → (s.leaf (leafNo b l)).role = .active →
    (s.leaf (leafNo b l)).midVector = false →
    exec (.refSelfCheck b l ⟨codes, mon⟩) s = .next (s.selfCheck (leafNo b l) codes mon) ∧
    ((∀ q < 32, (ni (nth (smGet 192 (s.leaf (leafNo b l)).factoryCode q) codes q) - ni (smGet 192 (s.leaf (leafNo b l)).factoryCode q)).natAbs ≤ 12) →
      mismatchBlocks (fun _ => 960) (fun i => smGet 0 mon i) = [] →
      ∃ t, exec (.refSelfCheck b l ⟨codes, mon⟩) s = .next t ∧ (t.leaf (leafNo b l)).refCheckPass = true ∧ (t.leaf (leafNo b l)).refCheckDue = false ∧
        (t.leaf (leafNo b l)).groupFence = (s.leaf (leafNo b l)).groupFence ∧ (t.leaf (leafNo b l)).errStatus = (s.leaf (leafNo b l)).errStatus ∧
        (∀ k, k ≠ leafNo b l → t.leaf k = s.leaf k) ∧ t = { s with leaves := t.leaves, boughs := t.boughs })) ∧
  (∀ (b l : Nat) (o : PhaseObs) (s : State), s.usable b = true → l < 18 → s.awake = true → s.inReset (standOf b) = false →
    exec (.leafPhase b l o) s = .next ((s.runPhase b (leafNo b l) o).tryXrecv b) ∧
    ((s.leaf (leafNo b l)).jobs ≠ [] → (s.leaf (leafNo b l)).role ≠ .active →
      ∃ t, exec (.leafPhase b l o) s = .next t ∧ (t.leaf (leafNo b l)).jobs = [] ∧ (t.leaf (leafNo b l)).errStatus = (s.leaf (leafNo b l)).errStatus ||| 4#5 ∧
        (t.leaf (leafNo b l)).phaseCnt = (s.leaf (leafNo b l)).phaseCnt ∧ (∀ k, k ≠ leafNo b l → t.leaf k = s.leaf k) ∧ t = { s with leaves := t.leaves, boughs := t.boughs }))

/-- O14: GOVERNOR_INTERVAL, where the bud samples. Two samples in a row at which one sensor reads 115 °C or more trip the device and leave the cells and the derived configuration (R373); otherwise, in Full and Shade, the input is judged and the governor forms the grant, the cadence and the remedies (R369 to R372). -/
def Obligations.GovernorInterval : Prop :=
  ∀ (o : GovObs) (s : State), (s.trunk.fwRunning = true ∨ s.trunk.warmBusy = true) → s.trunk.boot ≠ .off → s.trunk.boot ≠ .tripped → s.bud.power ≠ .bare →
    ((∃ n, n ∈ s.bud.hotLast ∧ n ∈ (s.sample o).bud.hotLast) → ∃ t, exec (.governorInterval o) s = .next t ∧ t.trunk.boot = .tripped ∧ t.bud.tripped = true ∧ t.bud.thermN = true ∧
      t.pcie.linkState = 0 ∧ t.boughs = [] ∧ t.stands = [] ∧ (∀ k, (t.leaf k).cells = (s.leaf k).cells ∧ (t.leaf k).derivedOk = (s.leaf k).derivedOk)) ∧
    ((∀ n, n ∈ s.bud.hotLast → n ∉ (s.sample o).bud.hotLast) → s.trunk.fwRunning = true → s.trunk.warmBusy = false → s.awake = true →
      exec (.governorInterval o) s = .next (((s.sample o).vinLow o).govern o)) ∧
    (s.sample o).trunk = { s.trunk with time := s.trunk.time + 1 } ∧ (s.sample o).bud.vinMv = o.vinMv ∧ (s.sample o).bud.inMa = o.inMa

/-- O15: The grant and the cadence (R370): g is cut by 1/16 at the throttle threshold, never exceeds g_max, and c is the smallest integer from 8 to 64 that keeps n × 10⁹ / c at or below g. -/
def Obligations.GrantAndCadence : Prop :=
  (∀ (s : State) (t : Int) (p : Rat), s.nextGrant t p ≤ s.grantMax ∧
    (256 * ni (clampN 85 105 (fld s.bud.thermCtrl 7 0)) ≤ t → s.bud.grant * 15 / 16 ≤ s.grantMax → s.nextGrant t p = s.bud.grant * 15 / 16)) ∧
  (∀ (n : Nat) (g : Rat), 8 ≤ cadenceOf n g ∧ cadenceOf n g ≤ 64 ∧ (∀ c, 8 ≤ c → c < cadenceOf n g → g < nr n * 1000000000 / nr c) ∧
    (nr n * 1000000000 / nr (cadenceOf n g) ≤ g ∨ cadenceOf n g = 64))

/-- O16: REF_DRIFT_BLOCK_END and RECAL_SPACING_END (R78): a drift block of 1,024 phases is judged; when the 10 ms spacing ends, a deferred trigger whose condition still holds measures the leaf, or is only noted with auto_recal_en 0. -/
def Obligations.RecalibrationTriggers : Prop :=
  ∀ (b l : Nat) (s : State), s.leafLive b l = true →
    exec (.refDriftBlockEnd b l) s = .next (s.endDriftBlock (leafNo b l)) ∧
    ((s.leaf (leafNo b l)).spacing = true → (s.leaf (leafNo b l)).deferred.find? (s.triggerHolds (leafNo b l)) = none →
      exec (.recalSpacingEnd b l) s = .next (s.onLeaf (leafNo b l) fun f => { f with spacing := false, deferred := [] })) ∧
    (∀ c, (s.leaf (leafNo b l)).spacing = true → (s.leaf (leafNo b l)).deferred.find? (s.triggerHolds (leafNo b l)) = some c → (s.leaf (leafNo b l)).role = .active →
      bit (s.leaf (leafNo b l)).calCtrl 16 = true → (s.leaf (leafNo b l)).meas = none →
      ∃ t, exec (.recalSpacingEnd b l) s = .next t ∧ (t.leaf (leafNo b l)).spacing = true ∧ (t.leaf (leafNo b l)).deferred = [] ∧
        (t.leaf (leafNo b l)).meas = some { cause := c, gen := (s.leaf (leafNo b l)).generation, auto := some c } ∧ t = { s with leaves := t.leaves, boughs := t.boughs }) ∧
    (∀ c, (s.leaf (leafNo b l)).spacing = true → (s.leaf (leafNo b l)).deferred.find? (s.triggerHolds (leafNo b l)) = some c → (s.leaf (leafNo b l)).role = .active →
      bit (s.leaf (leafNo b l)).calCtrl 16 = false →
      ∃ t, exec (.recalSpacingEnd b l) s = .next t ∧ (t.leaf (leafNo b l)).recalWanted = true ∧ (t.leaf (leafNo b l)).wantedCause = c ∧
        (t.leaf (leafNo b l)).meas = (s.leaf (leafNo b l)).meas ∧ t = { s with leaves := t.leaves })

/-- O17: CAL_MEASUREMENT_DONE and CAL_COMMIT. The measurement of an ACTIVE leaf ends between vectors: its trims are formed at L_now, its 128 phases count, and the groups of columns that cannot be trimmed are fenced (R75, R49). Its commit replaces the slot nearest to its load as a whole, and the trim generation rises by one (R68, R70). -/
def Obligations.CalibrationCommit : Prop :=
  (∀ (b l : Nat) (o : MeasObs) (m : Meas) (s : State), s.leafLive b l = true → (s.leaf (leafNo b l)).meas = some m → m.done = false → m.suspended = false → (s.leaf (leafNo b l)).midVector = false →
    (s.leaf (leafNo b l)).role = .active →
    let r := (s.leaf (leafNo b l)).measure (s.leaf (leafNo b l)).width (s.leaf (leafNo b l)).remap m.cause s.bud.loadPct.toNat o
    exec (.calMeasurementDone b l o) s = .next (((s.onLeaf (leafNo b l) fun f => { f with meas := some { r.1 with gen := m.gen, auto := m.auto, ops := m.ops } }).measPhases (leafNo b l) o).fenceColumns (leafNo b l) r.2 11) ∧
      r.1.done = true ∧ r.1.load = s.bud.loadPct.toNat) ∧
  (∀ (b l : Nat) (m : Meas) (s : State), s.leafLive b l = true → (s.leaf (leafNo b l)).meas = some m → m.done = true → m.suspended = false → (s.leaf (leafNo b l)).role = .active → (s.leaf (leafNo b l)).cal.length = 3 →
    let p := if 10 * m.load < 425 then 0 else if m.load < 80 then 1 else 2
    ∃ t, exec (.calCommit b l) s = .next t ∧ (t.leaf (leafNo b l)).generation = (s.leaf (leafNo b l)).generation + 1 ∧
      nth {} (t.leaf (leafNo b l)).cal p = { valid := true, load := m.load, temp := m.temp, refs := m.refs, trims := m.trims } ∧
      (∀ p', p' ≠ p → nth {} (t.leaf (leafNo b l)).cal p' = nth {} (s.leaf (leafNo b l)).cal p') ∧ (t.leaf (leafNo b l)).meas = none ∧ (∀ k, k ≠ leafNo b l → t.leaf k = s.leaf k) ∧
      (m.ops = [] → t.boughs = s.boughs ∧ t.stands = s.stands ∧ t.store = s.store ∧ t.que = s.que ∧ t.tap = s.tap))

/-- O18: CALIBRATE (R79, R80). A unit code that is malformed or names a disabled bough, or a selection above 3, ends it with its code 1. Otherwise it is accepted with the leaves of its scope, its selection and its timeout clamped to 1 to 1,000 ms, and each leaf whose turn has come is served; of one ACTIVE leaf in the band that nothing measures, a measurement of cause 5 for this operation begins, under the leaf's present trim generation. CALIBRATE_LOAD_TIMEOUT (R79, R80): the operation is timed out and its leaves are served so; one whose only leaf waits outside the band ends with that leaf LOAD_NOT_REACHED, code 3. -/
def Obligations.CalibrateCommand : Prop :=
  (∀ (q : Nat) (t : TaskRec) (s : State), s.ServesHead q 3 2 [(0, 4), (4, 1), (6, 2)] t →
      (∀ ls, (parseUnit (le t.args 0 4)).bind s.scopeLeaves = some ls → le t.args 4 1 ≤ 3 →
        let r := (s.popCommand q).acceptOp q t (s.queue q).sqHead (.calib { leaves := ls, sel := le t.args 4 1, timeoutMs := clampN 1 1000 (le t.args 6 2) })
        exec (.calibrate q) s = .next (r.1.calibTurn r.2) ∧
        (∀ h k, s.freeSlot = some h → ls = [k] → inBand (le t.args 4 1) s.bud.loadPct.toNat = true → (s.leaf k).role = .active → (s.leaf k).meas = none → s.inReset (k / 72) = false →
          ∃ u, exec (.calibrate q) s = .next u ∧ (u.leaf k).meas = some { cause := 5, gen := (s.leaf k).generation, ops := [h] } ∧ (∀ k', k' ≠ k → u.leaf k' = s.leaf k') ∧
            ∃ o, smFind u.trunk.ops h = some o ∧ o.body = .calib { leaves := [k], sel := le t.args 4 1, timeoutMs := clampN 1 1000 (le t.args 6 2) } ∧ o.queue = q ∧ o.userTag = t.userTag)) ∧
      ((parseUnit (le t.args 0 4)).bind s.scopeLeaves = none ∨ 3 < le t.args 4 1 → exec (.calibrate q) s = .next (s.refuseCommand q t 1 0))) ∧
  (∀ (h : Nat) (o : LongOp) (c : CalibOp) (s : State), s.op h = some o → o.body = .calib c → o.suspended = false → c.sel ≠ 0 → s.trunk.fwRunning = true →
      let late := fun (st : SMap Nat) => ({ s with trunk := { s.trunk with ops := smSet s.trunk.ops h { o with body := .calib { c with timedOut := true, status := st } } } } : State)
      exec (.calibrateLoadTimeout h) s = .next ((late c.status).calibTurn h) ∧
      (∀ k, c.leaves = [k] → c.status = [] → inBand c.sel s.bud.loadPct.toNat = false → (s.leaf k).meas = none →
        ∃ u, exec (.calibrateLoadTimeout h) s = .next u ∧ smFind u.trunk.ops h = none ∧ smFind u.trunk.opDone h = some { handle := o.handle h, code := 3, leaves := [(k, 3)] } ∧ ∀ k', u.leaf k' = s.leaf k'))

/-- O19: PROGRAM_LEAF (R99, R106). A target that is not a usable bough, a slot above 15, a release mode above 1, a group size of 0 or above 288, or a conflict with the open group that its identifier names ends it with BAD_TARGET's code 1. Otherwise it is accepted: a member at step 1 joins the end of its bough's order and its group, which is the open group of that identifier, or a new one. -/
def Obligations.ProgramLeafCommand : Prop :=
  ∀ (q : Nat) (t : TaskRec) (s : State), s.ServesHead q 1 2 [(0, 4), (4, 1), (5, 1), (6, 2), (8, 2), (10, 2), (16, 8), (24, 32)] t →
    let slot := le t.args 4 1
    let mode := le t.args 5 1
    let gid := le t.args 8 2
    let size := le t.args 10 2
    let opened := if gid = 0 then none else s.trunk.groups.find? fun (p : Nat × Group) => p.2.gid == gid && !p.2.released
    let conflict := fun (b : Nat) (g : Group) => g.knotMode ≠ decide (mode = 1) ∨ (mode = 1 ∧ g.knot ≠ le t.args 6 2) ∨ g.size ≤ g.members.length ∨ (mode ≠ 1 ∧ ∃ m ∈ g.members, ∃ p, s.prog m = some p ∧ p.bough ≠ b)
    (parseUnit (le t.args 0 4) = none → exec (.programLeaf q) s = .next (s.refuseCommand q t 1 0)) ∧
    (∀ d st bo l, parseUnit (le t.args 0 4) = some (d, st, bo, l) →
      (d ≠ 2 ∨ s.usable (4 * st + bo) = false ∨ 15 < slot ∨ 1 < mode ∨ size = 0 ∨ 288 < size ∨ ∃ k g, opened = some (k, g) ∧ conflict (4 * st + bo) g) → exec (.programLeaf q) s = .next (s.refuseCommand q t 1 0)) ∧
    (∀ st bo l h, parseUnit (le t.args 0 4) = some (2, st, bo, l) → s.usable (4 * st + bo) = true → slot ≤ 15 → mode ≤ 1 → 0 < size → size ≤ 288 → s.freeSlot = some h →
      ∀ k old, (opened = none ∧ k = s.trunk.nextGroup ∧ old = { gid := gid, size := if gid = 0 then 1 else size, knotMode := decide (mode = 1), knot := if mode = 1 then le t.args 6 2 else 0 }) ∨
          (opened = some (k, old) ∧ s.group k = some old ∧ ¬ conflict (4 * st + bo) old) →
        ∃ u, exec (.programLeaf q) s = .next u ∧ (u.bough (4 * st + bo)).progQueue = (s.bough (4 * st + bo)).progQueue ++ [s.trunk.nextProg] ∧ u.trunk.nextProg = s.trunk.nextProg + 1 ∧
          u.group k = some { old with members := old.members ++ [s.trunk.nextProg] } ∧
          (∃ p, u.prog s.trunk.nextProg = some p ∧ p.bough = 4 * st + bo ∧ p.slot = slot ∧ p.group = k ∧ p.expected = sub t.args 24 32 ∧ p.op = some h ∧ p.step = 1 ∧ p.leaf = none) ∧
          (∃ o, u.op h = some o ∧ o.body = .program s.trunk.nextProg ∧ o.queue = q ∧ o.userTag = t.userTag) ∧ u.leaves = s.leaves ∧ u.store = s.store ∧ u.tap = s.tap)

/-- O20: The events of the program sequence (R91 to R97, R102, R107). PROG_STEP_DONE of the member that the charge pump serves ends its present step: step 1 takes an accepted image's spare leaf, step 2 sets the marker before anything is erased, step 3 erases and gives pending columns their spares, step 4 ends a row, step 5 a repair pass, step 6 the calibration; step 8 clears the marker and stages the member. SPARE_LEAF_FREED lets the head operation go on at step 1: a spare leaf whose image is accepted is PROGRAMMING at step 2, with no calibration. LEAF_SWAP applies the committed swaps of a bough without a task, or at a layer boundary. -/
def Obligations.ProgramSteps : Prop :=
  (∀ (pid : Nat) (o : ProgObs) (p : Prog) (s : State), s.trunk.fwRunning = true → s.awake = true → s.prog pid = some p → s.memberHeld p = false → s.inReset (standOf p.bough) = false →
    (s.pumpHead p.bough = some pid →
      (p.step = 1 → s.shut (hbmStand p.imageAddr) = false → exec (.progStepDone pid o) s = .next (s.acceptStep pid)) ∧
      (∀ k, p.leaf = some k → p.step = 2 → ∃ t, exec (.progStepDone pid o) s = .next t ∧ (t.leaf k).marker = true ∧ (t.leaf k).progStep = 3 ∧ (t.leaf k).cells = (s.leaf k).cells ∧
        t.prog pid = some { p with step := 3 } ∧ (∀ k', k' ≠ k → t.leaf k' = s.leaf k') ∧ t = { s with trunk := { s.trunk with progs := t.trunk.progs }, leaves := t.leaves }) ∧
      (∀ k, p.leaf = some k → p.step = 3 → (s.leaf k).record.pendingRemap = [] → ∃ t, exec (.progStepDone pid o) s = .next t ∧ (t.leaf k).cells = [] ∧ (t.leaf k).marker = (s.leaf k).marker ∧ (t.leaf k).progStep = 4 ∧
        (∀ k', k' ≠ k → t.leaf k' = s.leaf k') ∧ t = { s with trunk := { s.trunk with progs := t.trunk.progs }, leaves := t.leaves }) ∧
      (∀ k, p.leaf = some k → p.step = 4 → s.shut (hbmStand p.imageAddr) = false → exec (.progStepDone pid o) s = .next (s.rowStep pid k p o)) ∧
      (∀ k, p.leaf = some k → p.step = 5 → exec (.progStepDone pid o) s = .next (s.repairStep pid k p o))) ∧
    (∀ k, p.leaf = some k → p.step = 6 → exec (.progStepDone pid o) s = .next (s.calibrateStep pid k p o)) ∧
    (∀ k, p.leaf = some k → p.step = 8 → exec (.progStepDone pid o) s = .next ((s.onLeaf k fun l => { l with marker := false }).stageMember pid))) ∧
  (∀ (b pid : Nat) (p : Prog) (s : State), s.trunk.fwRunning = true → s.awake = true → s.inReset (standOf b) = false → s.pumpHead b = some pid → s.prog pid = some p → p.step = 1 → p.bough = b →
    exec (.spareLeafFreed b) s = .next (s.acceptStep pid) ∧
    (∀ k, s.spareFor b = some k → s.leafImageCode p.imageAddr p.expected = 0 → ∃ t, exec (.spareLeafFreed b) s = .next t ∧ (t.leaf k).role = .programming ∧ (t.leaf k).progStep = 2 ∧ (t.leaf k).cal = [{}, {}, {}] ∧
      (t.leaf k).targetDigest = p.expected ∧ t.prog pid = some { p with leaf := some k, step := 2, width := BitVec.ofNat 2 (s.hbmNat (p.imageAddr + 6) 1) } ∧ (∀ k', k' ≠ k → t.leaf k' = s.leaf k'))) ∧
  (∀ (b : Nat) (s : State), s.enabled b = true → s.awake = true → s.inReset (standOf b) = false →
    ((s.bough b).task = none → exec (.leafSwap b) s = .next (s.applySwaps b)) ∧
    (∀ x c w, (s.bough b).task = some x → s.canopyOf b = some c → (nth ({} : Program) c.programs x.trec.program).ops[(s.bough b).ck.pc]? = some w → (opWord w).opcode = 0x0F → exec (.leafSwap b) s = .next (s.applySwaps b)))

/-- O21: SUSPEND, RESUME and CANCEL end at acceptance with one OP_END whose detail is the handle named (R273), with code 1 where no operation is outstanding under it; the named operation is suspended, goes on or is cancelled with the code and the effect that the next statement gives, and its own end follows a CANCEL's. The codes and effects of SUSPEND, RESUME and CANCEL on each kind of operation (R273, R81, R109): 2 for a DUMP's suspension, 3 where nothing changes, else 0. A FIELD_TEST suspended or resumed changes its suspension, a CALIBRATE cancelled ends each waiting leaf with code 5, a FIELD_TEST ends with 4, a program operation whose map write is not issued with 0x0A, and a load or fold whose last map write is not issued with 0x0C or 7. -/
def Obligations.LongOperationCommands : Prop :=
  (∀ (q : Nat) (t : TaskRec) (s : State),
      (s.ServesHead q 0x10 1 [(0, 2)] t →
        (s.opOfHandle t.handle = none → exec (.suspend q) s = .next (s.refuseCommand q t 1 (wordOf t.handle))) ∧
        (∀ h, s.opOfHandle t.handle = some h → exec (.suspend q) s = .next ((s.suspendOp h).2.refuseCommand q t (s.suspendOp h).1 (wordOf t.handle)))) ∧
      (s.ServesHead q 0x11 1 [(0, 2)] t →
        (s.opOfHandle t.handle = none → exec (.resume q) s = .next (s.refuseCommand q t 1 (wordOf t.handle))) ∧
        (∀ h, s.opOfHandle t.handle = some h → exec (.resume q) s = .next ((s.resumeOp h).2.refuseCommand q t (s.resumeOp h).1 (wordOf t.handle)))) ∧
      (s.ServesHead q 0x12 1 [(0, 2)] t →
        (s.opOfHandle t.handle = none → exec (.cancel q) s = .next (s.refuseCommand q t 1 (wordOf t.handle))) ∧
        (∀ h, s.opOfHandle t.handle = some h → exec (.cancel q) s = .next ((s.cancelOp h).2 (s.refuseCommand q t (s.cancelOp h).1 (wordOf t.handle)))))) ∧
  (∀ (h : Nat) (o : LongOp) (s : State), s.op h = some o →
      (o.body = .dump → (s.suspendOp h).1 = 2 ∧ (s.resumeOp h).1 = 2 ∧ (s.suspendOp h).2 = s ∧ (s.resumeOp h).2 = s ∧ (s.cancelOp h).1 = 0) ∧
      (o.body ≠ .dump → (o.suspended = true → s.suspendOp h = (3, s)) ∧ (o.suspended = false → (s.suspendOp h).1 = 0)) ∧
      (o.body ≠ .dump → (o.suspended = false → s.resumeOp h = (3, s)) ∧ (o.suspended = true → (s.resumeOp h).1 = 0)) ∧
      (∀ f, o.body = .ftest f → (o.suspended = false → (s.suspendOp h).2 = { s with trunk := { s.trunk with ops := smSet s.trunk.ops h { o with suspended := true } } }) ∧
        (o.suspended = true → (s.resumeOp h).2 = ({ s with trunk := { s.trunk with ops := smSet s.trunk.ops h { o with suspended := false } } } : State).settleTests) ∧
        (s.cancelOp h).1 = 0 ∧ ∀ u, (s.cancelOp h).2 u = (u.ftestForget f).endOp h 4) ∧
      (∀ c, o.body = .calib c → (s.cancelOp h).1 = 0 ∧ ∀ u, (s.cancelOp h).2 u = (c.leaves.filter c.waits).foldl (fun (v : State) k => (v.leaveMeas h k).calibLeaf h k 5) u) ∧
      (∀ pid p, o.body = .program pid → s.prog pid = some p →
        (p.step < 9 ∨ (p.step = 9 ∧ (s.group p.group).isSome = true ∧ s.mapIssued p.group = false) → (s.cancelOp h).1 = 0 ∧ ∀ u, (s.cancelOp h).2 u = u.failMember pid 0x0A false) ∧
        (10 ≤ p.step ∨ (p.step = 9 ∧ s.mapIssued p.group = true) → (s.cancelOp h).1 = 3 ∧ ∀ u, (s.cancelOp h).2 u = u)) ∧
      (∀ r, ((∃ l, o.body = .load l) ∨ ∃ f, o.body = .fold f) → s.rounds h = some r →
        (r.switchIssued s = false → (s.cancelOp h).1 = 0 ∧ ∀ u, (s.cancelOp h).2 u = (u.failRun h 0x0C 7).1) ∧
        (r.switchIssued s = true → (s.cancelOp h).1 = 3 ∧ ∀ u, (s.cancelOp h).2 u = u)))

/-- O22: An accepted long operation (R272): it takes the lowest-numbered free slot, its handle is the slot and the slot's generation, and its acceptance is a completion of status ACCEPTED on its queue. -/
def Obligations.AcceptedOperation : Prop :=
  ∀ (q h : Nat) (t : TaskRec) (i : Word) (body : OpBody) (s : State), s.freeSlot = some h → (s.queue q).flr = false →
    let r := s.acceptOp q t i body
    r.2 = h ∧ (∀ h' < h, (smFind s.trunk.ops h').isSome) ∧ smFind s.trunk.ops h = none ∧
    (∃ o, smFind r.1.trunk.ops h = some o ∧ o.body = body ∧ o.queue = q ∧ o.sqIndex = i ∧ o.userTag = t.userTag ∧ o.suspended = false ∧
      o.handle h = h + 256 * (smGet 0 s.trunk.opGen h).toNat) ∧
    (∀ h', h' ≠ h → smFind r.1.trunk.ops h' = smFind s.trunk.ops h') ∧ smGet 0 r.1.trunk.opGen h = smGet 0 s.trunk.opGen h + 1 ∧
    (r.1.queue q).owed = (s.queue q).owed + 1 ∧ (r.1.queue q).cqTail = (s.queue q).cqTail + 1 ∧ r.1.store = s.store ∧ r.1.leaves = s.leaves ∧ r.1.boughs = s.boughs ∧ r.1.bud = s.bud

/-- O23: What each operation of the twig, the cambium and the grafts does where its word stands at issue. Every word's issue is settled as its operation answers: issued, waiting or faulted. Under the conditions on the state and the operands named for it, FETCH begins its reads; STORE, the local operations and the grafts hold their lines; DRIVE issues its phases; XSEND holds its transfer against a credit, or sends nothing where it moves nothing; XRECV opens its epoch; LBND counts a layer. -/
def Obligations.OperationsComplete : Prop :=
  ∀ (b : Nat) (s s1 : State) (t : Task) (c : Canopy) (w : OpWord), s.Presents b s1 t c w →
    (∀ p ∈ [(0x00, Instr.nop b, opNop), (0x01, .fetch b, opFetch), (0x02, .store b, opStore), (0x03, .drive b, opDrive), (0x04, .combine3 b, opCombine3), (0x05, .rescale b, opRescale),
        (0x06, .table b, opTable), (0x07, .cvt b, opCvt), (0x09, .cone b, opCone), (0x0A, .xsend b, opXsend), (0x0B, .xrecv b, opXrecv), (0x0C, .ksig b, opKsig), (0x0D, .kwait b, opKwait),
        (0x0E, .loop b, opLoop), (0x0F, .lbnd b, opLbnd), (0x10, .endOp b, opEnd)],
      w.opcode = p.1 → exec p.2.1 s = .next (s1.settleIssue b (p.2.2 b s1 t c w))) ∧
    (∀ p ∈ [(0x00, Instr.add b, opVec), (0x01, .sub b, opVec), (0x02, .mul b, opVec), (0x03, .fma b, opVec), (0x04, .vmin b, opVec), (0x05, .vmax b, opVec), (0x06, .vabs b, opVec),
        (0x07, .select b, opVec), (0x08, .shl b, opVec), (0x09, .shr b, opVec), (0x0A, .cmul b, opVec), (0x0B, .cmulc b, opVec), (0x0C, .vsum b, opVec), (0x0D, .rmax b, opVec),
        (0x0E, .mac b, opVec), (0x80, .graftApply b, opGraftApply), (0x81, .graftGrad b, opGraftGrad), (0x82, .graftStep b, opGraftStep)],
      w.opcode = 0x08 → w.a = p.1 → exec p.2.1 s = .next (s1.settleIssue b (p.2.2 b s1 t c w))) ∧
    -- FETCH, STORE and DRIVE.
    (∀ s0 priv its, w.opcode = 0x01 → s1.iterate b w.a (c.desc w.a) (w.b + 1) = .ok (s0, priv, its) → (∀ i ∈ its, i.inside = true → s0.fetchReady b t (c.desc w.a).lastRun i = true) →
      ∃ u, exec (.fetch b) s = .next u ∧ OnlyBough b { s1 with out := u.out } u ∧ (u.bough b).ck.pc = (s1.bough b).ck.pc + 1 ∧ (u.bough b).held = (s1.bough b).held ∧
        (u.bough b).reads.length = (s1.bough b).reads.length + (its.filter Iter.inside).length) ∧
    (∀ s0 priv its, w.opcode = 0x02 → s1.iterate b w.a (c.desc w.a) (w.b + 1) = .ok (s0, priv, its) →
      (∀ i ∈ its, i.inside = true → s0.storeReady b t (c.desc w.a).lastRun (c.quant (c.desc w.a).outTensor).fmt.elemBytes i = true) → s0.LinesFit b (s0.fills b (s0.storeRun b t c w its)) →
      ∃ u, exec (.store b) s = .next u ∧ Issued b (s0.fills b (s0.storeRun b t c w its)) s1 u) ∧
    (∀ s0 priv its v parts missing, w.opcode = 0x03 → s1.iterate b w.a (c.desc w.a) (c.desc w.a).driveShared = .ok (s0, priv, its) → (s0.atTile b).driveForm b c w priv its = .ok v →
      (s0.atTile b).driveParts b c w.flags v = .ok (parts, missing) → (s0.atTile b).bareLeaves parts = [] → (drivePre parts v.lc).length ≤ 2048 → (drivePre parts v.lc).length ≤ ((s0.atTile b).bough b).freeLines →
      ((s0.atTile b).bough b).canOpen (drivePre parts v.lc).length = true →
      exec (.drive b) s = .next ((((s0.atTile b).driveGo b t parts missing (s1.valueReads b (c.desc w.a) (c.desc w.a).driveShared its) (drivePre parts v.lc).length).advance b).issued b)) ∧
    -- XSEND, XRECV and LBND.
    (∀ r s0 priv its, w.opcode = 0x0A → c.routes[w.a]? = some r → (r.staging b).isSome = true → s1.iterate b (exchDesc w.b).1 (c.desc (exchDesc w.b).1) ((exchDesc w.b).2 + 1) = .ok (s0, priv, its) →
      let moves := its.filter Iter.inside
      let n := (c.desc (exchDesc w.b).1).lastRun
      (moves = [] ∨ n = 0 → ∃ u, exec (.xsend b) s = .next u ∧ Issued b 0 s1 u ∧ (u.bough b).credits = (s1.bough b).credits) ∧
      (∀ data tags poison reads, moves ≠ [] → n ≠ 0 → smGet 0 (s0.bough b).credits w.a < r.depth → s0.sendData b r.halo moves n = .ok (data, tags, poison, reads) →
        64 * ceilDiv data.length 64 + (if r.halo then 0 else tags.length) ≤ r.bufferBytes → s0.LinesFit b (ceilDiv data.length 64) →
        ∃ u, exec (.xsend b) s = .next u ∧ Issued b (ceilDiv data.length 64) s1 u ∧ smGet 0 (u.bough b).credits w.a = smGet 0 (s1.bough b).credits w.a + 1)) ∧
    (∀ r s0 priv its lines, w.opcode = 0x0B → c.routes[w.a]? = some r → r.receiver = b → s1.iterate b (exchDesc w.b).1 (c.desc (exchDesc w.b).1) ((exchDesc w.b).2 + 1) = .ok (s0, priv, its) →
      let moves := its.filter Iter.inside
      let d := c.desc (exchDesc w.b).1
      xrecvLines r moves d.lastRun = .ok lines → lines.eraseDups.length ≤ 2048 → 65 * lines.length ≤ r.bufferBytes → lines.eraseDups.length ≤ (s0.bough b).freeLines → (s0.bough b).canOpen lines.eraseDups.length = true →
      exec (.xrecv b) s = .next (((((s0.xrecvOpen b t (s0.valueReads b d ((exchDesc w.b).2 + 1) its) (if moves.isEmpty || d.lastRun == 0 then none else some (w.a, d.outTensor)) lines).advance b).tryXrecv b).failXrecv b).issued b)) ∧
    (w.opcode = 0x0F → (∀ p ∈ s1.trunk.progs, p.2.bough ≠ b ∨ p.2.step ≠ 10) → ∃ u, exec (.lbnd b) s = .next u ∧ Issued b 0 s1 u ∧ (u.bough b).layer = (s1.bough b).layer + 1 ∧
      (u.bough b).draining = ((s1.bough b).draining || (s1.bough b).wantsYield || (s1.bough b).logicStop || decide (s1.bud.power = .entering))) ∧
    -- The local operations.
    (∀ s0 priv its, s1.iterate b w.localDesc (c.desc w.localDesc) (w.b % 8 + 1) = .ok (s0, priv, its) →
      let n := (c.desc w.localDesc).lastRun
      let goes := fun (cmd : Instr) (ready : Iter → Bool) (body : LocalBody) =>
        (∀ i ∈ its, i.inside = true → ready i = true) → s0.LinesFit b (s0.fills b (s0.localRun b c w its body)) → ∃ u, exec cmd s = .next u ∧ Issued b (s0.fills b (s0.localRun b c w its body)) s1 u
      (w.opcode = 0x04 → goes (.combine3 b) (s0.combineReady b n) (combine3Body b t)) ∧
      (w.opcode = 0x05 → goes (.rescale b) (s0.rescaleReady b c w n) (rescaleBody b t c w)) ∧
      (w.opcode = 0x06 → goes (.table b) ((s0.bough b).tableReady c w n) (tableBody b t c w)) ∧
      (w.opcode = 0x07 → goes (.cvt b) ((s0.bough b).cvtReady c w n) (cvtBody b t c)) ∧
      (∀ p ∈ [(0x00, Instr.add b), (0x01, .sub b), (0x02, .mul b), (0x03, .fma b), (0x04, .vmin b), (0x05, .vmax b), (0x06, .vabs b), (0x07, .select b), (0x08, .shl b), (0x09, .shr b),
          (0x0A, .cmul b), (0x0B, .cmulc b), (0x0C, .vsum b), (0x0D, .rmax b), (0x0E, .mac b)],
        w.opcode = 0x08 → w.a = p.1 → goes p.2 ((s0.bough b).vecReady c w n) (vecBody b t c w)) ∧
      (w.opcode = 0x09 → s0.HbmGood → (∀ y, (s1.bough b).task = some y → y.fault = none) → goes (.cone b) (s0.coneReady b t c w n) (coneBody b t c w))) ∧
    -- The grafts.
    (∀ q, w.opcode = 0x08 → s1.graftCtx b t c w = .ok q → s1.HbmGood →
      let grad := q.gradAt
      (w.a = 0x80 → (s1.bough b).rangesReady (q.k.xRanges q.g.n) = .ok () → (s1.bough b).rangesReady (q.k.dRanges q.g.m) = .ok () → (s1.graftApplyRun b t q).2 = [] →
        s1.LinesFit b (ceilDiv (q.k.vecs * q.g.m * 4) 64) → ∃ u, exec (.graftApply b) s = .next u ∧ OnlyBough b s1 u ∧ (u.bough b).ck.pc = (s1.bough b).ck.pc + 1 ∧ (s1.bough b).held <+: (u.bough b).held) ∧
      (w.a = 0x81 → q.g.trainable = true → q.k.part < q.g.parts → (s1.bough b).rangesReady (q.k.xRanges q.g.n) = .ok () → (s1.bough b).rangesReady (q.k.dRanges q.g.m) = .ok () →
        (s1.graftGradRun b t q).2 = [] → s1.LinesFit b (s1.fills b (.ok (s1.graftGradRun b t q).1)) →
        ∃ u, exec (.graftGrad b) s = .next u ∧ Issued b (s1.fills b (.ok (s1.graftGradRun b t q).1)) s1 u) ∧
      (w.a = 0x82 → q.g.trainable = true → q.k.part < q.g.parts → (s1.bough b).hbmReady [(grad.1 + 32 * grad.2.1, 32 * grad.2.2), (grad.1 + q.g.elems (q.g.partOf q.k.part).1 + grad.2.1, grad.2.2)] = .ok () →
        (q.k.last = true → (s1.bough b).heldRange .hbm q.status 20 ≠ some false ∧ t.stepsWhole q = true) → (s1.graftStepRun b t q).2 = [] → s1.LinesFit b (s1.fills b (.ok (s1.graftStepRun b t q).1)) →
        ∃ u, exec (.graftStep b) s = .next u ∧ Issued b (s1.fills b (.ok (s1.graftStepRun b t q).1)) s1 u))

/-- O24: What the twig's own operations do to their bough: NOP goes on; LOOP steps its level and returns to the body while the bound is not reached (R192); KSIG holds one signal; a wait on knot 0 takes no token; END holds the task's completion and the bough has no task. -/
def Obligations.TwigOwnEffects : Prop :=
  ∀ (b : Nat) (s s1 : State) (t : Task) (c : Canopy) (w : OpWord), s.Presents b s1 t c w →
    (w.opcode = 0x00 → ∃ u, exec (.nop b) s = .next u ∧ OnlyBough b s1 u ∧ (u.bough b).ck = { (s1.bough b).ck with pc := (s1.bough b).ck.pc + 1 } ∧ (u.bough b).held = (s1.bough b).held) ∧
    (w.opcode = 0x0E → ∃ u, exec (.loop b) s = .next u ∧ OnlyBough b s1 u ∧ (u.bough b).held = (s1.bough b).held ∧
      (nth 0 (s1.bough b).ck.counters w.b + 1 < smGet 0 (s1.bough b).ck.bounds w.b → w.b < 6 → (u.bough b).ck.pc = ((c.desc w.a).level w.b).body ∧
        nth 0 (u.bough b).ck.counters w.b = nth 0 (s1.bough b).ck.counters w.b + 1 ∧ (∀ j, w.b < j → nth 0 (u.bough b).ck.counters j = 0) ∧
        ∀ j, w.b < j → j < 6 → smFind (u.bough b).ck.bounds j = none) ∧
      (smGet 0 (s1.bough b).ck.bounds w.b ≤ nth 0 (s1.bough b).ck.counters w.b + 1 → (u.bough b).ck.pc = (s1.bough b).ck.pc + 1 ∧ ∀ j, w.b ≤ j → nth 0 (u.bough b).ck.counters j = 0)) ∧
    (w.opcode = 0x0C → (s1.bough b).epochs ≠ [] → (((s1.bough b).epochs.getLast?.map (·.footprint)).getD 0) < 2048 → 1 ≤ (s1.bough b).freeLines →
      ∃ u h, exec (.ksig b) s = .next u ∧ OnlyBough b s1 u ∧ (u.bough b).held = (s1.bough b).held ++ [h] ∧ h.dest = .knot w.a ∧ h.task = t.id ∧ h.retired = false ∧ (u.bough b).ck.pc = (s1.bough b).ck.pc + 1) ∧
    (w.opcode = 0x0D → w.a = 0 → (s1.bough b).canOpen 0 = true → ∃ u e, exec (.kwait b) s = .next u ∧ OnlyBough b s1 u ∧ (u.bough b).epochs = (s1.bough b).epochs ++ [e] ∧
      e.task = t.id ∧ e.token = none ∧ e.tile = false ∧ (u.bough b).ck.pc = (s1.bough b).ck.pc + 1) ∧
    (w.opcode = 0x10 → (((s1.bough b).epochs.getLast?.map (·.footprint)).getD 0) < 2048 → 1 ≤ (s1.bough b).freeLines → (∀ p ∈ s1.trunk.progs, p.2.bough ≠ b ∨ p.2.step ≠ 10) →
      ∃ u h, exec (.endOp b) s = .next u ∧ OnlyBough b s1 u ∧ (u.bough b).task = none ∧ (u.bough b).ending = (s1.bough b).ending ++ [{ t with issueDone := true }] ∧
        (u.bough b).held = (s1.bough b).held ++ [h] ∧ h.dest = .completion t.id)

/-- O25: The frame of the operations at issue. What a STORE, an accumulator or cambium operation, XSEND, XRECV, KSIG or LOOP writes is held in its own bough (R173); FETCH also sends its host reads; DRIVE also gives phases to leaves. -/
def Obligations.IssueFrame : Prop :=
  ∀ (b : Nat) (s1 s2 : State) (t : Task) (c : Canopy) (w : OpWord),
    (∀ op ∈ [opNop, opStore, opCombine3, opRescale, opTable, opCvt, opVec, opXsend, opXrecv, opKsig, opLoop], op b s1 t c w = .ok s2 → OnlyBough b s1 (s2.issued b)) ∧
    (opFetch b s1 t c w = .ok s2 → OnlyBough b { s1 with out := s2.out } (s2.issued b)) ∧
    (opDrive b s1 t c w = .ok s2 → OnlyBough b { s1 with leaves := s2.leaves } (s2.issued b) ∧ ∀ k, (s2.leaf k).cells = (s1.leaf k).cells ∧ (s2.leaf k).marker = (s1.leaf k).marker ∧ (s2.leaf k).role = (s1.leaf k).role)

/-- O26: The rounded right shift of a signed integer (R129): the floor quotient, one more where the remainder is above half, or is half and the quotient odd; a shift of 64 or more places gives 0 for every p of less than 2⁶³ in magnitude. -/
def Obligations.RoundedShift : Prop :=
  ∀ (p : Int) (t : Nat),
    let q := p / 2 ^ t
    let r := p - q * 2 ^ t
    0 ≤ r ∧ r < 2 ^ t ∧ rshr p t = (if 0 < t ∧ (2 ^ (t - 1) < r ∨ (r = 2 ^ (t - 1) ∧ q % 2 = 1)) then q + 1 else q) ∧ (64 ≤ t → p.natAbs < 2 ^ 63 → rshr p t = 0)

/-- O27: Element results into an integer format (R134, R166, R429 and Table 5-7): the exact result, rounded half to even where it is not whole, saturated to the format, with a clip told where saturation changed it. -/
def Obligations.CambiumElements : Prop :=
  (∀ (f : Fmt) (x y z : Int) (n : Nat), f.int?.isSome = true →
    let out := fun (v : Int) => (toBits f.bits (clampI f.range.1 f.range.2 v), decide (v < f.range.1 ∨ f.range.2 < v), false)
    let r := fun (code : Nat) => f.encode (vecElem code (numOf x) (numOf y) (numOf z) n)
    r 0 = out (x + y) ∧ r 1 = out (x - y) ∧ r 2 = out (x * y) ∧ r 3 = out (x * y + z) ∧ r 14 = out (x * y + z) ∧ r 4 = out (min x y) ∧ r 5 = out (max x y) ∧
      r 6 = out (x.natAbs : Nat) ∧ r 7 = out (max x y) ∧ (n < 64 → r 8 = out (x * 2 ^ n)) ∧ (n < 64 → r 9 = out (rshr x n))) ∧
  (∀ (p : Int) (k : Nat), 2 * (2 ^ k * rshr p k - p).natAbs ≤ 2 ^ k ∧ (2 * (2 ^ k * rshr p k - p).natAbs = 2 ^ k → rshr p k % 2 = 0)) ∧
  (∀ (f : Fmt) (sc : Scale) (a e : Int), f.int?.isSome = true → e ≠ -128 →
    (f.encode (rescaled sc (a, e))).1 = toBits f.bits (clampI f.range.1 f.range.2 (rhe ((a : Rat) * ((sc.mult : Nat) : Rat) * pow2 (e - ((sc.shift : Nat) : Int))))))

/-- O28: An operation word and its fields determine each other (R167): no bit of a word is dropped. -/
def Obligations.OperationWordRoundTrip : Prop :=
  (∀ w : OpWord, w.opcode < 64 → w.flags < 1024 → w.a < 65536 → w.b < 2 ^ 32 → opWord w.bits = w) ∧
  (∀ d : DWord, (opWord d).bits = d)

/-- O29: The events of run-ahead and retirement complete on a bough that works: what waited for a pointer's value or for lines issues again, the oldest epoch is judged, the first retired line is released, a drain, a range window and a transfer end (R146, R177 to R180, R186, R200, R209). -/
def Obligations.RetirementEvents : Prop :=
  ∀ (b : Nat) (s : State), s.boughLive b = true →
    ((s.bough b).wait = .ptr → (∀ a, (((s.onBough b fun x => { x with ptrOk := true, wait := .none }).issueAny b).bough b).wait ≠ .ue a) →
      exec (.pointerValueArrival b) s = .next ((s.onBough b fun x => { x with ptrOk := true, wait := .none }).issueAny b)) ∧
    ((s.bough b).wait = .lines → exec (.holdLinesFreed b) s = .next (s.issueAny b)) ∧
    exec (.epochRetire b) s = .next (s.judgeOldest b).settleQueues ∧
    (∀ acc bad, exec (.heldLineRelease b acc bad) s = .next (s.releaseLine b acc bad).settleQueues) ∧
    exec (.drainEnd b) s = .next (s.endDrain b).settleTests ∧
    (∀ l second, l < 18 → exec (.rangeRestoreWindow b l second) s = .next (s.endRangeWindow b (leafNo b l) second)) ∧
    ∀ route sender, exec (.xferLand b route sender) s = .next (s.landXfer b route sender)

/-- O30: An epoch that has ended with no failed check and no saturation over its limits retires (R178, R180): it leaves the epochs, its held lines become releasable, its pre-images are dropped, and no byte of memory changes. -/
def Obligations.NormalRetirement : Prop :=
  ∀ (b : Nat) (e : Epoch) (rest : List Epoch) (s : State), (s.bough b).epochs = e :: rest → s.canRetire b e = true → e.fails = [] → e.stats = [] → e.consumed = [] →
    ((s.judgeOldest b).bough b).epochs = rest ∧ ((s.judgeOldest b).bough b).retiredEpoch = BitVec.ofNat 16 e.num ∧ ((s.judgeOldest b).bough b).retireCnt = (s.bough b).retireCnt + 1 ∧
      (∀ h ∈ ((s.judgeOldest b).bough b).held, h.epoch = e.num → h.retired = true) ∧
      (∀ h ∈ (s.bough b).held, h.epoch = e.num → h.retired = false → (∀ l, h.dest ≠ .preImage l) → { h with retired := true } ∈ ((s.judgeOldest b).bough b).held) ∧
      (∀ h ∈ (s.bough b).held, h.epoch ≠ e.num → h ∈ ((s.judgeOldest b).bough b).held) ∧
      (e.evals = [] → SameMemory s (s.judgeOldest b)) ∧ (∀ k, ((s.judgeOldest b).leaf k).cells = (s.leaf k).cells)

/-- O31: The release of the first retired line (R180): a line of sapwood changes only its bough; a line of HBM that is accepted writes its bytes at its own 64 bytes and nothing else of memory (the line holds no uncorrectable word, whose report could write a record) where its stand answers and its task has lost none; a line not accepted, and a completion's line, release nothing. -/
def Obligations.LineRelease : Prop :=
  ∀ (b : Nat) (h : HeldLine) (s : State), (s.bough b).frontLine = some h →
    (∀ l acc bad, h.dest = .sap l → (bad = false → OnlyBough b s (s.releaseLine b acc bad)) ∧ ((s.releaseLine b acc bad).bough b).held = (s.bough b).held.erase h ∧
      ((s.releaseLine b acc bad).bough b).sapwood = h.put (s.bough b).sapwood l) ∧
    (∀ l acc, h.dest = .hbm l → (∀ w ∈ s.hbmBad, w < 8 * l ∨ 8 * l + 8 ≤ w) → ∀ a, (a < 64 * l ∨ 64 * l + 64 ≤ a) → memGet (s.releaseLine b acc false).hbm a = memGet s.hbm a) ∧
    (∀ l, h.dest = .hbm l → Memory.wf s.hbm = true → (∀ w ∈ s.hbmBad, w < 8 * l ∨ 8 * l + 8 ≤ w) → s.inReset (hbmStand (64 * l)) = false → (∀ t, (s.bough b).find h.task = some t → t.quarantine = false ∧ t.lost = false) →
      (∀ o < 64, memGet (s.releaseLine b true false).hbm (64 * l + o) = (match h.bytes.reverse.find? fun p => p.1 == o with | some p => p.2 | none => memGet s.hbm (64 * l + o))) ∧
        ((s.releaseLine b true false).bough b).held = (s.bough b).held.erase h) ∧
    (∀ l, h.dest = .hbm l → s.inReset (hbmStand (64 * l)) = false → (∀ t, (s.bough b).find h.task = some t → t.quarantine = false ∧ t.lost = false) →
      SameMemory s (s.releaseLine b false false) ∧ ((s.releaseLine b false false).bough b).held = (s.bough b).held) ∧
    (∀ t acc bad, h.dest = .completion t → s.releaseLine b acc bad = s)

/-- O32: Integrity events (R317, R324, R325): a full bias window is judged, the oldest HBM read completes, a part of a scrub runs where scrub_hours is not 0, and a diagnosis ends on an ACTIVE leaf between the vectors of its twig. A read that completes clean puts the bytes that HBM holds into sapwood (R317, R175): nothing but its bough changes. -/
def Obligations.IntegrityEvents : Prop :=
  ((∀ (b l g : Nat) (s : State), s.enabled b = true → l < 18 → exec (.biasWindowEnd b l g) s = .next (s.endBiasWindow (leafNo b l) g) ∧
      ((smGet {} (s.leaf (leafNo b l)).bias g).n < 4096 → s.endBiasWindow (leafNo b l) g = s)) ∧
    (∀ (b : Nat) (o : ReadObs) (s : State), s.usable b = true → s.awake = true → s.inReset (standOf b) = false → exec (.hbmReadResponse b o) s = .next (s.readDone b o).pumpReads.settleQueues) ∧
    (∀ (ch : Nat) (o : ScrubObs) (s : State), ch < 32 → s.awake = true → s.trunk.fwRunning = true → s.inReset (ch / 8) = false → (s.stand (ch / 8)).hbmFenced = false → fld (s.stand (ch / 8)).hbmCtrl 7 0 ≠ 0 →
      exec (.patrolScrub ch o) s = .next (s.scrubPart ch o) ∧ ∀ a, memGet (s.scrubPart ch { o with ue := [], passDone := false }).hbm a = memGet s.hbm a) ∧
    (∀ (b l : Nat) (o : MeasObs) (s : State), s.enabled b = true → l < 18 → s.awake = true → s.inReset (standOf b) = false → (s.leaf (leafNo b l)).role = .active → (s.leaf (leafNo b l)).draining = false → (s.leaf (leafNo b l)).midVector = false →
      exec (.diagnosisDone b l o) s = .next (s.endDiag (leafNo b l) o))) ∧
  (∀ (b a : Nat) (r : PendRead) (s : State), ((s.bough b).outstanding.find? fun r => (match r.src with | .hbm _ => true | _ => false)) = some r → r.src = .hbm a → s.inReset (hbmStand a) = false → s.firstUe a r.len = none →
      OnlyBough b s (s.readDone b .clean) ∧ ((s.readDone b .clean).bough b).reads = (s.bough b).reads.erase r)

/-- O33: The in-field test events (R330 to R335): a test falls due on an ACTIVE leaf, its parts end, and a logic test waits for its pair. -/
def Obligations.FieldTestEvents : Prop :=
  (∀ (b l : Nat) (s : State), s.leafLive b l = true → s.trunk.sched.leafInterval ≠ 0 → (s.leaf (leafNo b l)).role = .active → (s.leaf (leafNo b l)).draining = false →
    exec (.leafTestDue b l) s = .next (s.onLeaf (leafNo b l) fun f => { f with testDue := true, testRunning := f.meas.isNone && decide (s.bud.power = .full) })) ∧
  (∀ (b l : Nat) (o : LeafPartObs) (s : State), s.leafLive b l = true → (s.testHeld fun f => f.leafParts.contains (leafNo b l) || f.unfenceLeaves.contains (leafNo b l)) = false →
    (s.unfencing (leafNo b l) = true → exec (.leafPartDone b l o) s = .next (s.unfenceLeaf (leafNo b l) o)) ∧
    (s.unfencing (leafNo b l) = false → (s.leaf (leafNo b l)).role = .active → (s.leaf (leafNo b l)).draining = false → (s.leaf (leafNo b l)).testRunning = true → (s.leaf (leafNo b l)).meas = none → (s.leaf (leafNo b l)).midVector = false →
      exec (.leafPartDone b l o) s = .next (s.leafPart (leafNo b l) o))) ∧
  (∀ (b : Nat) (s : State), s.usable b = true → s.trunk.fwRunning = true → s.trunk.sched.logicInterval ≠ 0 → exec (.logicTestDue b) s = .next (s.onBough b fun x => { x with logicDue := true }).settleTests) ∧
  (∀ (b p : Nat) (s : State), s.partnerOf b = some p → (s.bough b).logicDue = true → (s.bough b).logicRunning = false → s.trunk.fwRunning = true → s.bud.power = .full → s.standQuiet (standOf b) = false → s.standQuiet (standOf p) = false →
    exec (.testDeferralLimit b) s = .next ((s.onBough b fun x => { x with logicStop := true }).onBough p fun x => { x with logicStop := true }).settleTests) ∧
  (∀ (b : Nat) (d1 d2 d3 : DWord) (s : State), s.trunk.fwRunning = true → (s.bough b).logicRunning = true → (s.bough b).logicDue = true → (s.bough (s.bough b).logicPartner).logicRunning = true →
    exec (.logicPartDone b d1 d2 d3) s = .next (s.logicPart b d1 d2 d3)) ∧
  (∀ (b l : Nat) (levels : SMap Nat) (s : State), s.leafLive b l = true → (s.leaf (leafNo b l)).verifyRunning = true → exec (.fullVerifyDone b l levels) s = .next (s.fullVerify (leafNo b l) levels))

/-- O34: FIELD_TEST (R334): a bad scope or flags word ends it with code 1; accepted, its parts are those its flags name in its scope; with the schedule flag it only sets the schedule. -/
def Obligations.FieldTestCommand : Prop :=
  ∀ (q : Nat) (t : TaskRec) (s : State), s.ServesHead q 4 2 [(0, 4), (4, 4)] t →
    (s.ftestHead q false = true → s.ftestTarget t = none → exec (.fieldTest q) s = .next (s.refuseCommand q t 1 0)) ∧
    (s.ftestHead q true = true → s.ftestTarget t = none → exec (.fieldTestSchedule q) s = .next (s.refuseCommand q t 1 0)) ∧
    (∀ u fl, s.ftestHead q true = true → s.ftestTarget t = some (u, fl) →
      exec (.fieldTestSchedule q) s = .next ((s.onTrunk fun x => { x with sched :=
        { leafInterval := byteOf (fl / 2 ^ 16), logicInterval := byteOf (fl / 2 ^ 24), slotDefer := byteOf (clampN 5 100 (fl / 256 % 256)) } }).refuseCommand q t 0 0)) ∧
    (∀ u fl, s.ftestHead q false = true → s.ftestTarget t = some (u, fl) → ∃ f, f.flags = wordOf fl ∧
      exec (.fieldTest q) s = .next ((s.popCommand q).acceptOp q t (s.queue q).sqHead (.ftest f)).1.ftestTurn ∧
      (∀ k, (k ∈ f.leafParts ↔ fl.testBit 0 = true ∧ k ∈ (s.scopeLeaves u).getD [] ∧ (s.bough (k / 18)).fenced = false ∧ (s.leaf k).role ≠ .fenced) ∧
        (k ∈ f.verifies ↔ fl.testBit 5 = true ∧ k ∈ (s.scopeLeaves u).getD [] ∧ (s.bough (k / 18)).fenced = false ∧ (s.leaf k).role ≠ .fenced ∧ (s.leaf k).record.state = .programmed) ∧
        (k ∈ f.unfenceLeaves ↔ fl.testBit 2 = true ∧ k ∈ (s.scopeLeaves u).getD [] ∧ (s.leaf k).role = .fenced)))

/-- O35: LOAD_CANOPY (R224): a target that is loaded already ends it BUSY, a bad address or mask ends it with code 1; accepted, it becomes a long operation at step VALIDATE with its timeout clamped to 1 to 1,000 ms, and its stands show LOADING. -/
def Obligations.LoadCanopyCommand : Prop :=
  ∀ (q : Nat) (t : TaskRec) (s : State), s.ServesHead q 2 2 [(0, 8), (8, 8), (16, 1), (17, 1), (18, 2), (32, 32)] t →
    ((bitsSet 4 (le t.args 16 1)).any s.busyStands.contains = true → exec (.loadCanopy q) s = .next (s.refuseCommand q t 0x0A 0)) ∧
    ((bitsSet 4 (le t.args 16 1)).any s.busyStands.contains = false → le t.args 16 1 = 0 ∨ 15 < le t.args 16 1 ∨ (∀ a, decodeAddr (le t.args 0 8) ≠ .hbm a) ∨ (∀ a, decodeAddr (le t.args 8 8) ≠ .hbm a) →
      exec (.loadCanopy q) s = .next (s.refuseCommand q t 1 0)) ∧
    (∀ a lb, (bitsSet 4 (le t.args 16 1)).any s.busyStands.contains = false → decodeAddr (le t.args 0 8) = .hbm a → decodeAddr (le t.args 8 8) = .hbm lb → 0 < le t.args 16 1 → le t.args 16 1 ≤ 15 →
      let r := (s.popCommand q).acceptOp q t (s.queue q).sqHead (.load { addr := a, mask := BitVec.ofNat 4 (le t.args 16 1), leafBase := lb, noProgram := (le t.args 17 1).testBit 0, timeoutMs := clampN 1 1000 (le t.args 18 2), expected := sub t.args 32 32 })
      exec (.loadCanopy q) s = .next (r.1.onRunStands r.2 fun d => { d with cnpState := .loading }))

/-- O36: The events of a load and the commands of a fold (R223, R227, R229, R247, R248): step VALIDATE ends where the image can be read, a quiesce ends or times out with code 9 of a load and 5 of a fold, FOLD_GRAFT is refused or accepted, and an entry of its fold map is read back. -/
def Obligations.LoadAndFoldEvents : Prop :=
  (∀ (h : Nat) (o : LongOp) (l : LoadOp) (s : State), s.op h = some o → o.suspended = false → o.body = .load l → l.step = 1 → s.shut (hbmStand l.addr) = false →
    exec (.canopyValidateDone h) s = .next (s.validated h l)) ∧
  (∀ (h : Nat) (o : LongOp) (s : State), s.op h = some o → o.suspended = false → exec (.canopyQuiesceDone h) s = .next (s.quiesceEnd h)) ∧
  (∀ (h : Nat) (o : LongOp) (r : Rounds) (s : State), s.op h = some o → o.suspended = false → s.rounds h = some r → r.quiescing = true → r.quiesced = false →
    exec (.quiesceTimeout h) s = .next (s.failRun h 9 5).1) ∧
  (∀ (q : Nat) (t : TaskRec) (s : State), s.ServesHead q 5 2 [(0, 4), (4, 2), (6, 2), (8, 8)] t →
    (s.foldTarget (le t.args 0 4) (le t.args 4 2) (decodeAddr (le t.args 8 8)) = none → exec (.foldGraft q) s = .next (s.refuseCommand q t 1 0)) ∧
    (∀ c g a, decodeAddr (le t.args 8 8) = .hbm a → s.foldTarget (le t.args 0 4) (le t.args 4 2) (.hbm a) = some (c, g) →
      (g.stands.any s.busyStands.contains = true → exec (.foldGraft q) s = .next (s.refuseCommand q t 2 0)) ∧
      (g.stands.any s.busyStands.contains = false → exec (.foldGraft q) s = .next ((s.popCommand q).acceptOp q t (s.queue q).sqHead (.fold
        { context := le t.args 0 4, graft := le t.args 4 2, scratch := a, timeoutMs := clampN 1 1000 (le t.args 6 2), bank := (s.hbmNat (s.graftBlock (le t.args 0 4) + 64 + 64 * le t.args 4 2) 1).testBit 1, mask := BitVec.ofNat 4 (nsum (g.stands.map (2 ^ ·))) })).1))) ∧
  (∀ (h : Nat) (levels : SMap Nat) (o : LongOp) (f : FoldOp) (s : State), s.op h = some o → o.suspended = false → o.body = .fold f → exec (.foldEntryReadbackDone h levels) s = .next (s.foldEntry h f levels))

/-- O37: Doorbells (R252, R286): one of another size, alignment or function or to a disabled queue is only counted; one that is acted on sets the tail, or halts its queue with cause BAD_DOORBELL where it is implausible; one that is not acted on yet is kept, the later superseding the earlier; one past the last queue is flagged; a read completes with zeros. What an acted doorbell does to its queue (R252): implausible values halt it with cause BAD_DOORBELL, leave its pointers and are counted; others set sq_tail and cq_head and halt nothing; on a queue that FLUSH empties the flush then goes on (R269). -/
def Obligations.Doorbells : Prop :=
  (∀ (fn off len : Nat) (data : DWord) (s : State), s.live = true → s.pcie.d3hot = false → s.hasFunc fn = true →
      exec (.doorbell fn off len none) s = .next (s.emit (.readData (List.replicate len 0) false)) ∧
      (0x800000 ≤ off → exec (.doorbell fn off len (some data)) s = .next (({ s with que := { s.que with dbErr := satInc s.que.dbErr } } : State).pciError 5 fn off)) ∧
      (off < 0x800000 →
        (len ≠ 8 ∨ off % 8 ≠ 0 ∨ (s.queue (off / 8)).enabled = false ∨ (s.queue (off / 8)).desc.function ≠ fn →
          exec (.doorbell fn off len (some data)) s = .next { s with que := { s.que with dbErr := satInc s.que.dbErr } }) ∧
        (len = 8 → off % 8 = 0 → (s.queue (off / 8)).enabled = true → (s.queue (off / 8)).desc.function = fn → (s.queue (off / 8)).flr = false →
          (s.doorbellsActed (off / 8) = true → exec (.doorbell fn off len (some data)) s = .next (s.actDoorbell (off / 8) (wordOf data.toNat) (wordOf (data.toNat / 2 ^ 32))).settleQueues) ∧
          (s.doorbellsActed (off / 8) = false → exec (.doorbell fn off len (some data)) s = .next ((s.wakeEvent .doorbell).onQueue (off / 8) fun r => { r with pendingDb := some (wordOf data.toNat, wordOf (data.toNat / 2 ^ 32)) }))))) ∧
  (∀ (q : Nat) (tail head : Word) (s : State),
      let r := s.queue q
      let bad : Prop := 2 ^ r.desc.sqLog2 < (tail - r.sqHead).toNat ∨ (r.cqTail - r.cqHead).toNat < (head - r.cqHead).toNat
      let u := s.actDoorbell q tail head
      (bad → (u.queue q).halted = true ∧ (u.queue q).haltCause = 0x10 ∧ (u.queue q).sqTail = r.sqTail ∧ (u.queue q).cqHead = r.cqHead ∧ u.que.dbErr = satInc s.que.dbErr ∧ (u.queue q).pendingDb = none ∧
        u = { s with que := u.que }) ∧
      (¬ bad → r.flushing = false → (u.queue q).sqTail = tail ∧ (u.queue q).cqHead = head ∧ (u.queue q).pendingDb = none ∧ (u.queue q).sqHead = r.sqHead ∧ (u.queue q).halted = r.halted ∧
        u.que.dbErr = s.que.dbErr ∧ u.leaves = s.leaves ∧ u.store = s.store ∧ u.boughs = s.boughs) ∧
      (¬ bad → r.flushing = true → ∃ v : State, (v.queue q).sqTail = tail ∧ (v.queue q).cqHead = head ∧ (v.queue q).pendingDb = none ∧ (v.queue q).sqHead = r.sqHead ∧ v.leaves = s.leaves ∧ v.store = s.store ∧ v.boughs = s.boughs ∧
        (u = v.flushOn q ∨ u = (v.flushOn q).askHead q)))

/-- O38: QUE_CMD and QUE_CTRL (R251, R252, R269): the outcomes of ENABLE, DISABLE, RESUME and FLUSH; a queue that is not enabled answers DISABLED's code 3 to all but ENABLE. -/
def Obligations.QueueCommands : Prop :=
  ∀ (q : Nat) (s : State), s.regLive = true →
    (s.que.cmdBusy = false → q < 2 ^ 20 →
      ((s.queue q).enabled = true → (s.queue q).flr = false → exec (.queEnable q) s = .next (s.queResult 0).settleQueues) ∧
      ((s.queue q).enabled = false → s.flrHolds q = false → s.shut (hbmStand (s.descAddr q)) = false → exec (.queEnable q) s = .next (s.enableQueue q).settleQueues) ∧
      ((s.queue q).enabled = false → s.flrHolds q = true ∨ s.shut (hbmStand (s.descAddr q)) = true →
        exec (.queEnable q) s = .next { s with que := { s.que with cmdBusy := true, cmdOp := 1, cmdQueue := q } }) ∧
      ((s.queue q).enabled = false → exec (.queDisable q) s = .next (s.queResult 3) ∧ exec (.queResume q) s = .next (s.queResult 3) ∧ exec (.queFlush q) s = .next (s.queResult 3)) ∧
      ((s.queue q).enabled = true → (s.queue q).idle = true → ∃ u, exec (.queDisable q) s = .next u ∧ (u.queue q).enabled = false ∧ u.que.cmdBusy = false ∧ u.que.cmdResult = 0 ∧
        (∀ a, (a < s.descAddr q + 32 ∨ s.descAddr q + 64 ≤ a) → memGet u.hbm a = memGet s.hbm a) ∧ u.leaves = s.leaves ∧ u.boughs = s.boughs ∧ u.store = s.store) ∧
      ((s.queue q).enabled = true → (s.queue q).idle = false → ∃ u, exec (.queDisable q) s = .next u ∧ (u.queue q).disabling = true ∧ (u.queue q).enabled = true ∧ u.que.cmdBusy = true ∧ u = { s with que := u.que }) ∧
      ((s.queue q).enabled = true → exec (.queResume q) s = .next ((s.onQueue q fun r => { r with halted := false, haltCause := 0 }).queResult 0).settleQueues) ∧
      ((s.queue q).enabled = true → exec (.queFlush q) s =
        .next (((s.onQueue q fun r => { r with flushing := true, halted := true }).onQue fun x => { x with cmdBusy := true, cmdOp := 4, cmdQueue := q }).flushOn q))) ∧
    (∀ v : Word, (bit v 0 = false → exec (.queCtrlWrite v) s = .next { s with que := { s.que with ctrl := false } }) ∧
      (bit v 0 = true → exec (.queCtrlWrite v) s = .next (State.actPending { s with que := { s.que with ctrl := true } }).settleQueues))

/-- O39: One signal at a knot (R262): the pending count rises, or the knot fires with its fire count and its tokens, saturated at 65,535 with the overflow flag. -/
def Obligations.KnotSignalCounts : Prop :=
  ∀ x : Knot, x.t ≠ 0 → x.l ≠ 0 →
    ((x.p.toNat + 1 ≠ x.t.toNat → x.signal = { x with p := x.p + 1 }) ∧
    (x.p.toNat + 1 = x.t.toNat → x.k.toNat + x.l.toNat ≤ 65535 → x.signal.p = 0 ∧ x.signal.f = x.f + 1 ∧ x.signal.k.toNat = x.k.toNat + x.l.toNat ∧ x.signal.overflow = x.overflow) ∧
    (x.p.toNat + 1 = x.t.toNat → 65535 < x.k.toNat + x.l.toNat → x.signal.p = 0 ∧ x.signal.f = x.f + 1 ∧ x.signal.k.toNat = 65535 ∧ x.signal.overflow = true) ∧
    x.signal.t = x.t ∧ x.signal.l = x.l ∧ x.signal.waiters = x.waiters)

/-- O40: Knot commands (R262, R263, R265): signals from inside and by QUE_KNOT_SIGNAL (behind the accesses of HBM that wait for Full power, R285), the configuration and the tokens written; on the null knot nothing happens. -/
def Obligations.KnotCommands : Prop :=
  (∀ (n : Nat) (s : State), s.trunk.fwRunning = true → n < 65536 → exec (.knotSignal n) s = .next (s.settleQueues.signalKnot n).settleQueues) ∧
  (∀ (v : Word) (s : State), s.regLive = true →
    (bit v 0 = true → s.pcie.heldAcc = [] → exec (.queKnotSignal v) s = .next (s.settleQueues.signalKnot s.que.knotSel.toNat).settleQueues) ∧
    (bit v 0 = true → s.pcie.heldAcc ≠ [] → exec (.queKnotSignal v) s = .next { s with pcie := { s.pcie with heldAcc := s.pcie.heldAcc ++ [.signal s.que.knotSel.toNat] } }) ∧
    (bit v 0 = false → exec (.queKnotSignal v) s = .next s) ∧
    (s.que.knotSel ≠ 0 → ∃ u, exec (.queKnotCfg v) s = .next u ∧ u = { s with que := u.que } ∧ u.knot s.que.knotSel.toNat =
      { s.knot s.que.knotSel.toNat with t := BitVec.ofNat 16 (fld v 15 0), l := BitVec.ofNat 16 (fld v 31 16), p := 0 } ∧ ∀ m, m ≠ s.que.knotSel.toNat → u.knot m = s.knot m) ∧
    (s.que.knotSel ≠ 0 → exec (.queKnotState v) s = .next ((s.settleQueues.onKnot s.que.knotSel.toNat fun x => { x with k := BitVec.ofNat 16 (fld v 15 0) }).serveKnot s.que.knotSel.toNat).settleQueues) ∧
    (s.que.knotSel = 0 → exec (.queKnotCfg v) s = .next s ∧ exec (.queKnotState v) s = .next s ∧ s.signalKnot 0 = s))

/-- O41: SYNC_IN, dispatch, completion and the coalescing timer (R258, R260, R266, R267): an edge is counted and delivered, or kept once and then missed outside Full power; a scheduler takes its turn; the task whose end is next completes; the timer raises the queue's vector, which covers every earlier completion. -/
def Obligations.SyncAndTaskEvents : Prop :=
  (∀ (rising : Bool) (s : State), s.trunk.boot ≠ .off → rising ≠ s.que.falling →
    let s1 := s.onQue fun x => { x with syncCnt := x.syncCnt + 1 }
    (s.que.syncEn = false ∨ s.trunk.warmBusy = true → exec (.syncInEdge rising) s = .next s1) ∧
    (s.que.syncEn = true → s.trunk.warmBusy = false → s.bud.power = .full → exec (.syncInEdge rising) s = .next s1.syncEdge.settleQueues) ∧
    (s.que.syncEn = true → s.trunk.warmBusy = false → s.bud.power ≠ .full → s.bud.syncLatched = false → exec (.syncInEdge rising) s = .next ((s1.onBud fun b => { b with syncLatched := true }).wakeEvent .syncIn))) ∧
  (∀ (b : Nat) (s : State), exec (.taskDispatch b) s = .next (s.actPending.settleQueues.dispatch b).settleQueues) ∧
  (∀ (b : Nat) (t : Task) (s : State), s.enabled b = true → s.awake = true → s.inReset (standOf b) = false → (s.bough b).nextEnd = some t →
    exec (.taskCompletion b) s = .next (s.finishTask b t).settleQueues.settleTests) ∧
  (∀ (q : Nat) (s : State), (s.queue q).enabled = true → (s.queue q).desc.irqAll = true → (s.queue q).desc.coalUs ≠ 0 → 0 < (s.queue q).uncovered →
    ∃ u, exec (.coalTimer q) s = .next u ∧ (u.queue q).uncovered = 0 ∧ (∀ q', q' ≠ q → u.queue q' = s.queue q') ∧ (∀ a, memGet u.hbm a = memGet s.hbm a) ∧ u.leaves = s.leaves ∧ u.boughs = s.boughs)

/-- O42: A completion (R266, R267): one 32-byte entry at the ring's tail, whose phase bit is 1 on the first pass and alternates from then on, and no other byte of memory. -/
def Obligations.CompletionWrite : Prop :=
  ∀ (q : Nat) (c : Compl) (a : Nat) (s : State), (s.queue q).flr = false → (s.queue q).desc.cqBase.add ((32 * ((s.queue q).cqTail.toNat % 2 ^ (s.queue q).desc.cqLog2) : Nat) : Int) = .hbm a →
    (c.bytes (s.queue q)).length = 32 ∧ ((nth 0 (c.bytes (s.queue q)) 22).getLsbD 0 = decide ((s.queue q).cqTail.toNat / 2 ^ (s.queue q).desc.cqLog2 % 2 = 0)) ∧
      ((s.complete q c).queue q).cqTail = (s.queue q).cqTail + 1 ∧ ((s.complete q c).queue q).sqHead = (s.queue q).sqHead ∧
      (Memory.wf s.hbm = true → ∀ o < 32, memGet (s.complete q c).hbm (a + o) = nth 0 (c.bytes (s.queue q)) o) ∧
      (∀ x, x < a ∨ a + 32 ≤ x → memGet (s.complete q c).hbm x = memGet s.hbm x)

/-- O43: Accesses of BAR0 (R10, R12, R281, R282): a well-formed write of 4 bytes acts as its register says, a read answers the register's value and leaves what its clear leaves; a malformed access is flagged, reads as zero and writes nothing; a timed-out read answers all ones. A _LO read latches the _HI half of the same moment (R9): the next read of the _HI register answers it, whatever other registers have done since. -/
def Obligations.RegisterAccesses : Prop :=
  (∀ (acc : Bar0Acc) (v : DWord) (s : State), s.bar0Live acc.fn = true →
      (acc.wellFormed = true → acc.len = 4 → exec (.registerWrite acc v) s = .next ((s.regOf acc.fn acc.off).write (loOf v) s)) ∧
      (acc.wellFormed = true → acc.len = 8 → exec (.registerWrite acc v) s =
        .next ((((s.regOf acc.fn acc.off).write (loOf v) s).regOf acc.fn (acc.off + 4)).write (hiOf v) ((s.regOf acc.fn acc.off).write (loOf v) s))) ∧
      (acc.wellFormed = true → acc.len = 4 → smFind s.latches (latchKey acc.fn acc.off) = none → ∃ u, exec (.registerReadClear acc) s = .next u ∧ u.rdata.toNat = (s.regOf acc.fn acc.off).value.toNat ∧
        ((s.regOf acc.fn acc.off).lo = false → u = { (s.regOf acc.fn acc.off).clear s with rdata := u.rdata, out := u.out })) ∧
      (acc.wellFormed = false → exec (.registerWrite acc v) s = .next (s.pciError 0 acc.fn acc.off) ∧ ∃ u, exec (.registerReadClear acc) s = .next u ∧ u.rdata = 0 ∧ u = { s.pciError 0 acc.fn acc.off with rdata := 0, out := u.out }) ∧
      (acc.wellFormed = true → exec (.bar0AccessTimeout acc true) s = .next (s.pciError 1 acc.fn acc.off) ∧
        ∃ u, exec (.bar0AccessTimeout acc false) s = .next u ∧ u = { s.pciError 1 acc.fn acc.off with rdata := u.rdata, out := u.out } ∧ (acc.len = 4 → u.rdata = 0xFFFFFFFF#64) ∧ (acc.len = 8 → u.rdata = 0xFFFFFFFFFFFFFFFF#64))) ∧
  ((∀ (off : Nat) (s : State), s.bar0Live 0 = true → (s.reg off).lo = true → off % 4 = 0 → smFind s.latches (latchKey 0 off) = none → ∃ u, exec (.loRegisterRead off) s = .next u ∧
      u.rdata.toNat = (s.reg off).value.toNat ∧ smFind u.latches (latchKey 0 (off + 4)) = some (s.reg (off + 4)).value) ∧
    (∀ (fn off : Nat) (v : Word) (s : State), smFind s.latches (latchKey fn off) = some v → (s.readReg fn off).1 = v ∧ smFind (s.readReg fn off).2.latches (latchKey fn off) = none ∧
      ∀ k, k ≠ latchKey fn off → smFind (s.readReg fn off).2.latches k = smFind s.latches k))

/-- O44: Accesses of BAR2 in Full power (R284): a write stores exactly its enabled bytes, a read answers the bytes of memory and changes nothing; an access past HBM is flagged, writes nothing and reads zeros. The 64-byte words that the read touches, and the words that the write touches, hold no uncorrectable error. -/
def Obligations.Bar2Accesses : Prop :=
  ∀ (a : Nat) (s : State), s.live = true → s.pcie.d3hot = false → s.bud.power = .full →
    (∀ bytes : List (Option Byte), bytes ≠ [] → s.bar2Flag a bytes.length = none → (∀ w ∈ s.hbmBad, 8 * w + 8 ≤ a ∨ a + bytes.length ≤ 8 * w) → Memory.wf s.hbm = true →
      ∃ u, exec (.bar2Write a bytes) s = .next u ∧ (∀ k v, bytes[k]? = some (some v) → memGet u.hbm (a + k) = v) ∧ (∀ k, bytes[k]? = some none → memGet u.hbm (a + k) = memGet s.hbm (a + k)) ∧
        (∀ x, x < a ∨ a + bytes.length ≤ x → memGet u.hbm x = memGet s.hbm x) ∧ u = { s with hbm := u.hbm, hbmBad := u.hbmBad }) ∧
    (∀ n, 0 < n → s.bar2Flag a n = none → s.firstUe (a / 64 * 64) ((a + n - 1) / 64 * 64 + 64 - a / 64 * 64) = none → exec (.bar2Read a n) s = .next (s.emit (.readData (s.hbmBytes a n) false))) ∧
    exec (.bar2Read a 0) s = .next (s.emit (.readData [] false)) ∧
    (∀ n, 0 < n → hbmSize < a + n → s.bar2Flag a n = some 2 ∧ exec (.bar2Read a n) s = .next ((s.pciError 2 0 a).emit (.readData (List.replicate n 0) false))) ∧
    (∀ bytes : List (Option Byte), bytes ≠ [] → hbmSize < a + bytes.length → exec (.bar2Write a bytes) s = .next (s.pciError 2 0 a))

/-- O45: Events of the host and of PCIe (R275 to R280, R287, R288): function resets, unmasked vectors, failed and completed device requests, the reference clock, configuration requests before and after readiness. -/
def Obligations.HostEvents : Prop :=
  (∀ (vf : Nat) (s : State), s.live = true → 1 ≤ vf → s.hasFunc vf = true → exec (.vfFlr vf) s = .next (s.resetVf vf) ∧
    bit (s.resetVf vf).pcie.vfFlr vf = true ∧ ∀ q, (s.queue q).enabled = true → (s.queue q).desc.function = vf → ((s.resetVf vf).queue q).flr = true ∧ ((s.resetVf vf).queue q).halted = true) ∧
  (∀ (vf : Nat) (s : State), exec (.vfFlrDone vf) s = .next (s.endVfFlr vf) ∧ (bit s.pcie.vfFlr vf = false → s.endVfFlr vf = s)) ∧
  (∀ s : State, s.live = true → exec .pfFlr s = .next (({ s with pcie := { s.pcie with vfEnable := false, numVfs := 0, funcs := [], vfFlr := 0, d3hot := false, pmeEnable := false, pmeStatus := false, cfg := { payload := s.pcie.cfg.payload, aspmL1 := s.pcie.cfg.aspmL1 } } } : State).beginWarm 2)) ∧
  (∀ (fn : Nat) (s : State), s.live = true → s.hasFunc fn = true →
    exec (.msixUnmask fn .enable) s = .next ((s.onFunc fn fun p => { p with msixEnable := true }).raisePending fn) ∧
    exec (.msixUnmask fn .busMaster) s = .next ((s.onFunc fn fun p => { p with busMaster := true }).raisePending fn) ∧
    ∀ v, exec (.msixUnmask fn (.unmask v)) s = .next ((s.onFunc fn fun p => { p with msix := smUpd {} p.msix v fun e => { e with masked := false } }).raisePending fn)) ∧
  (∀ (q addr : Nat) (s : State), (s.queue q).reading = true → ∃ u : State, exec (.dmaRequestFailed (.ring q) addr) s = .next u.pumpReads.settleQueues ∧ (u.queue q).halted = true ∧ (u.queue q).reading = false ∧
    (u.queue q).haltCause = 3 ∧ u.pcie.dmaErr = satInc s.pcie.dmaErr) ∧
  (∀ (t : DmaTarget) (data : List Byte) (s : State), exec (.hostReadCompletion t data) s = .next (s.completeRequest t data).pumpReads.settleQueues) ∧
  (∀ s : State, (s.pcie.refclkExt = true → exec .refclkLoss s = .next { s with pcie := { s.pcie with refclkIn := false, linkState := 0, rate := 0, width := 0, flit := false } }) ∧
    (s.pcie.refclkExt = false → exec .refclkLoss s = .next { s with pcie := { s.pcie with refclkIn := false } })) ∧
  (∀ (fn : Nat) (act : CfgAct) (s : State), s.pcie.ready = false → s.trunk.boot ≠ .off → s.bud.perst = false → exec (.configurationRequest fn act) s = .next (s.emit .cfgRetry)) ∧
  (∀ (fn : Nat) (s : State), s.pcie.ready = true → s.live = true →
    (s.hasFunc fn = false → ∀ act, exec (.configurationRequest fn act) s = .next (s.emit .cfgUnsupported)) ∧
    (s.hasFunc fn = true → ∀ f, exec (.configurationRequest fn (.read f)) s = .next (s.emit (.cfgData (s.cfgValue fn f)))) ∧
    (fld s.trunk.partId 15 0 ≠ 0 → ∀ num, 0 < num → num ≤ 31 → ∃ u, exec (.configurationRequest 0 (.vfEnable true num)) s = .next u ∧ u.pcie.vfEnable = true ∧ u.pcie.numVfs = num ∧ u = { s.emit .cfgDone with pcie := u.pcie }) ∧
    (fld s.trunk.partId 15 0 = 0 → ∀ num, ∃ u, exec (.configurationRequest 0 (.vfEnable true num)) s = .next u ∧ u.pcie.vfEnable = false ∧ u.pcie.numVfs = 0))

/-- O46: The power-state commands (R358, R360, R361, R363, R365, R367, R372): requests by D3hot, register and wake, the steps of an entry and of a wake, islands, a locked clock and the written cap. -/
def Obligations.PowerEvents : Prop :=
  (∀ s : State, s.live = true → s.pcie.d3hot = false →
    (fld s.bud.pwrCtrl 1 0 = 0 → exec .pfD3hotEntry s = .next { s with pcie := { s.pcie with d3hot := true } }) ∧
    (fld s.bud.pwrCtrl 1 0 ≠ 0 → exec .pfD3hotEntry s = .next ({ s with pcie := { s.pcie with d3hot := true } }.requestDormant (min (fld s.bud.pwrCtrl 1 0) 2)))) ∧
  (∀ s : State, s.live = true → s.pcie.d3hot = true → (s.bud.power = .dormant → exec .pfD0Transition s = .next ({ s with pcie := { s.pcie with d3hot := false } }.beginWake 5)) ∧
    (s.bud.power = .full → exec .pfD0Transition s = .next { s with pcie := { s.pcie with d3hot := false } })) ∧
  (∀ s : State, s.bud.power = .dormant → s.pcie.d3hot = true → 2 ≤ fld s.bud.pwrCtrl 1 0 → ∃ u, exec .pmeTurnOff s = .next u ∧ u.bud.power = .bare ∧ u.bud.bareCnt = satInc s.bud.bareCnt ∧
    u.pcie.linkState = 4 ∧ (∀ a, memGet u.hbm a = 0) ∧ ∀ k, (u.leaf k).cells = (s.leaf k).cells) ∧
  (∀ s : State, s.budLive = true → exec .pwrReqDormant s = .next (s.requestDormant 1) ∧ (s.bud.power = .dormant → exec .pwrReqWake s = .next (s.beginWake 6)) ∧
    ∀ v : Word, exec (.budPwrCap v) s = .next { s with bud := { s.bud with capW := BitVec.ofNat 7 (fld v 6 0) } }) ∧
  (∀ s : State, s.bud.power = .entering → exec .dormantEntryStepDone s = .next s.entryStep ∧
    (s.bud.entryStep = 2 ∨ s.bud.entryStep = 3 → exec .entryTimeout s = .next (s.abortEntry 9 0).actPending.settleTests.settleQueues)) ∧
  (∀ (k : WakeKind) (s : State), exec (.wakeEvent k) s = .next (s.wakeEvent k) ∧ (bit s.bud.wakeEn k.bitNo = false → s.wakeEvent k = s)) ∧
  (∀ (o : StartObs) (s : State), s.bud.power = .waking → exec (.wakeStepDone o) s = .next (s.wakeStage o)) ∧
  (∀ (n : Nat) (s : State), s.bud.power = .full → s.trunk.fwRunning = true → exec (.shadeIdleTimeout n) s = .next (s.stopIsland n) ∧ exec (.islandRestart n) s = .next (s.startIsland n)) ∧
  (∀ (b : Nat) (f : BitVec 11) (s : State), s.enabled b = true → (s.bough b).newFreq = some f → ∃ u, exec (.clockLock b) s = .next u ∧ OnlyBough b s u ∧ (u.bough b) = { s.bough b with freqMhz := f, newFreq := none })

/-- O47: A request for Dormant (R362, Table 16-3): each row of the table in its order refuses it with its reason and the first unit, counts it and leaves the power state; where none holds, entry begins at step 1 and nothing else changes. The steps of an entry into Dormant (R363, Table 16-4): step 2 waits for quiet, step 3 for drained boughs; step 5 writes BUD_PWR_MODE; step 6 leaves every cell and every byte of memory as they were and reaches Dormant, or wakes where an event was latched. -/
def Obligations.DormantRequests : Prop :=
  (∀ (target : Nat) (s : State),
      (s.trunk.ops ≠ [] → s.refusal = some (1, 0)) ∧
      (∀ j < 4, s.trunk.ops = [] → (s.stand j).rstState ≠ .normal → (∀ j' < j, (s.stand j').rstState = .normal) → s.refusal = some (2, unitCode 1 j 0 0)) ∧
      (s.trunk.ops = [] → (∀ j < 4, (s.stand j).rstState = .normal) → s.trunk.warmBusy = true → s.refusal = some (2, 0)) ∧
      (∀ r u, s.refusal = some (r, u) → r ≤ 6 ∧ (s.requestDormant target).bud.power = s.bud.power ∧ (s.requestDormant target).bud.refused = satInc s.bud.refused ∧
        (s.requestDormant target).bud.reason = BitVec.ofNat 4 r ∧ (s.requestDormant target).bud.refuseUnit = u ∧ (s.requestDormant target).bud.reasonAborted = false) ∧
      (s.refusal = none → s.bud.power = .full ∧ s.ael.collEn = false ∧ s.trunk.debugActive = false ∧ s.trunk.ops = [] ∧ (∀ k ∈ s.allLeaves, (s.leaf k).role ≠ .programming ∧ (s.leaf k).draining = false) ∧
        s.requestDormant target = { s with bud := { s.bud with power := .entering, entryStep := 1, entryTarget := target, wakeOther := 0 } })) ∧
  (∀ s : State, s.bud.power = .entering →
      (s.bud.entryStep = 2 → s.quiet = false → exec .dormantEntryStepDone s = .next s) ∧
      (s.bud.entryStep = 2 → s.quiet = true → exec .dormantEntryStepDone s = .next { s with bud := { s.bud with entryStep := 3 } }) ∧
      (s.bud.entryStep = 3 → s.drainedAll = false → exec .dormantEntryStepDone s = .next s) ∧
      (s.bud.entryStep = 5 → exec .dormantEntryStepDone s = .next { s with bud := { s.bud with entryStep := 6, pwrMode := BitVec.ofNat 2 s.bud.entryTarget } }) ∧
      (s.bud.entryStep = 6 → ∃ u, exec .dormantEntryStepDone s = .next u ∧ u.hbm = s.hbm ∧ u.store = s.store ∧ u.bud.dormantCnt = satInc s.bud.dormantCnt ∧
        (∀ k, (u.leaf k).cells = (s.leaf k).cells ∧ (u.leaf k).marker = (s.leaf k).marker ∧ (u.leaf k).role = (s.leaf k).role) ∧ (∀ b, (u.bough b).fenced = (s.bough b).fenced ∧ (u.bough b).task = none) ∧
        (s.bud.wakeLatch = 0 → s.bud.wakeOther = 0 → u.bud.power = .dormant) ∧ (s.bud.wakeLatch ≠ 0 ∨ s.bud.wakeOther ≠ 0 → u.bud.power = .waking ∧ u.bud.wakeLatch = 0)))

/-- O48: Commands of the resets and of their steps (R343, R344, R345, R348, R349, R351, R355): a stand reset by register, its steps, its fallback and escalation, the replay, the warm and the cold reset, and the heartbeat. -/
def Obligations.ResetCommands : Prop :=
  (∀ (j : Nat) (v : Word) (s : State), s.regLive = true → j < 4 → exec (.standReset j v) s = .next (s.writeRstCtrl j v) ∧
    (bit v 31 = false → s.writeRstCtrl j v = s.onStand j fun d => { d with rstCtrl := v &&& 0x7FE0FFFF#32 })) ∧
  (∀ (j : Nat) (o : ResetObs) (s : State), j < 4 → s.trunk.fwRunning = true → s.trunk.warmBusy = false → exec (.standResetStepDone j o) s = .next (s.standStep j o)) ∧
  (∀ (j : Nat) (s : State), j < 4 → s.trunk.warmBusy = false → (s.stand j).rstStep = 4 → exec (.selfRefreshTimeout j) s = .next (s.onStand j fun d => { d with fallback := true, rstStep := 5 })) ∧
  (∀ (j : Nat) (s : State), j < 4 → s.trunk.warmBusy = false → exec (.standResetEscalation j) s = .next (s.escalate j) ∧
    ((s.stand j).rstState = .replaying → exec (.replayAttemptEnd j) s = .next (s.endAttempt j) ∧ exec (.replayBudgetExpiry j) s = .next (s.guilty j))) ∧
  (∀ (v : Word) (s : State), s.budLive = true →
    (bit v 30 = true → exec (.warmReset v) s = .next ({ s with trunk := { s.trunk with warmDump := bit v 0 } }.beginWarm 1)) ∧
    (bit v 30 = false → exec (.warmReset v) s = .next { s with trunk := { s.trunk with warmDump := bit v 0 } }) ∧
    exec .coldReset s = .next s.selfColdReset) ∧
  (∀ (o : ResetObs) (s : State), s.trunk.warmBusy = true → exec (.warmResetStepDone o) s = .next (s.warmStepDone o) ∧
    (s.trunk.warmStep = 1 → exec .warmNoticeTimeout s = .next (s.warmNotice.warmDumpStep false)) ∧
    (s.trunk.warmStep = 2 → exec .warmDumpTimeout s = .next { s with trunk := { s.trunk with warmStep := 3, dumps := s.trunk.dumps.filter fun d => d.kind != 2 } })) ∧
  (∀ (core : Nat) (s : State), (s.bud.power = .dormant → exec (.heartbeatTick core) s = .next { s with trunk := { s.trunk with hb0 := s.trunk.hb0 + 1, hb1 := s.trunk.hb1 + 1 } }) ∧
    (s.bud.power ≠ .dormant → s.trunk.fwRunning = true → core = 0 → exec (.heartbeatTick core) s = .next { s with trunk := { s.trunk with hb0 := s.trunk.hb0 + 1 } }) ∧
    (s.bud.power ≠ .dormant → s.trunk.fwRunning = true → core = 1 → exec (.heartbeatTick core) s = .next { s with trunk := { s.trunk with hb1 := s.trunk.hb1 + 1 } }))

/-- O49: What a stand reset keeps and loses (Table 15-2, R17, R345): step 5 resets the registers of the stand's units and leaves fences, cells, markers and leaf records; HBM is left on the main path and zeroed over exactly the stand's own range on the fallback path; what waited on the stand's range (R347) goes on after each. -/
def Obligations.StandResetKeeps : Prop :=
  (∀ (j : Nat) (o : ResetObs) (s : State), (s.stand j).rstStep = 5 → ∃ u : State, s.standStep j o = u.retryReads ∧ (u.stand j).rstStep = 6 ∧
    (∀ k, (u.leaf k).cells = (s.leaf k).cells ∧ (u.leaf k).marker = (s.leaf k).marker ∧ (u.leaf k).record = (s.leaf k).record) ∧ (∀ b, (u.bough b).fenced = (s.bough b).fenced) ∧ u.store = s.store) ∧
  (∀ (j : Nat) (o : ResetObs) (s : State), (s.stand j).rstStep = 6 → (s.stand j).fallback = false →
    s.standStep j o = ((s.recoverLeaves ((s.boughsOf j).flatMap leavesOf)).onStand j fun d => { d with rstStep := 7, rstState := .restoring }).retryReads) ∧
  (∀ (j a : Nat) (s : State), memGet (s.zeroStand j).hbm a = if a / 0x300000000 = j then 0 else memGet s.hbm a) ∧
  (∀ (j : Nat) (s : State), (s.resetUnits j).hbm = s.hbm ∧ (s.resetUnits j).store = s.store ∧ (s.resetUnits j).trunk = s.trunk ∧
    ((s.resetUnits j).stand j).fenced = (s.stand j).fenced ∧ ((s.resetUnits j).stand j).schCtrl = 0x00010204#32 ∧
    (∀ k, ((s.resetUnits j).leaf k).cells = (s.leaf k).cells ∧ ((s.resetUnits j).leaf k).cal = (s.leaf k).cal ∧ ((s.resetUnits j).leaf k).role = (s.leaf k).role ∧ ((s.resetUnits j).leaf k).groupFence = (s.leaf k).groupFence) ∧
    (∀ k, s.enabled (k / 18) = true → k / 18 / 4 = j → k / 18 < 16 → ((s.resetUnits j).leaf k).errStatus = 0 ∧ ((s.resetUnits j).leaf k).mismatchCnt = 0 ∧ ((s.resetUnits j).leaf k).calCtrl = 0x00010A03#32) ∧
    (∀ k, k / 18 / 4 ≠ j → (s.resetUnits j).leaf k = s.leaf k) ∧
    (∀ j', j' ≠ j → (s.resetUnits j).stand j' = s.stand j') ∧ ∀ b, b / 4 ≠ j → (s.resetUnits j).bough b = s.bough b)

/-- O50: Warm and cold resets (R348, R349, R386): a warm reset is begun once, counted and absorbs nothing twice; its unit reset clears queues, knots, registers of the trunk and images but keeps HBM, the store, the bud and every cell; a cold reset discards queued writes and keeps the cells. -/
def Obligations.WarmAndColdKeep : Prop :=
  (∀ (cause : Nat) (s : State), (s.trunk.warmBusy = true → s.beginWarm cause = s) ∧
    (s.trunk.warmBusy = false → s.trunk.fwRunning = true → (s.beginWarm cause).trunk.warmBusy = true ∧ (s.beginWarm cause).trunk.warmStep = 1 ∧ (s.beginWarm cause).trunk.lastCause = BitVec.ofNat 4 cause ∧
      (s.beginWarm cause).que.ctrl = false ∧ (∀ q, ((s.beginWarm cause).queue q).enabled = false) ∧ ∀ k, ((s.beginWarm cause).leaf k).cells = (s.leaf k).cells)) ∧
  (∀ s : State, s.warmUnits.hbm = s.hbm ∧ s.warmUnits.store.log = s.store.log ∧ s.warmUnits.bud = s.bud ∧ s.warmUnits.tap = s.tap ∧ s.warmUnits.que.queues = [] ∧ s.warmUnits.que.knots = [] ∧
    s.warmUnits.que.syncCnt = s.que.syncCnt ∧ s.warmUnits.ael.armed = [] ∧ (∀ j, (s.warmUnits.stand j).canopy = none ∧ (s.warmUnits.stand j).fenced = (s.stand j).fenced) ∧
    (∀ b, (s.warmUnits.bough b).task = none ∧ (s.warmUnits.bough b).fenced = (s.bough b).fenced) ∧ ∀ k, (s.warmUnits.leaf k).cells = (s.leaf k).cells ∧ (s.warmUnits.leaf k).cal = (s.leaf k).cal) ∧
  (∀ s : State, s.coldReset.store = { s.store with queue := s.coldReset.store.queue, busy := s.coldReset.store.busy } ∧ (∀ a, memGet s.coldReset.hbm a = 0) ∧ s.coldReset.trunk.boot = .waiting ∧
    ∀ k, (s.coldReset.leaf k).cells = (s.leaf k).cells ∧ (s.coldReset.leaf k).marker = (s.leaf k).marker)

/-- O51: DUMP and the dump engine (R352, R353): the codes that end the command, its acceptance with every unit of its stands to read, and the sections of units that answer and that do not; a controller of a stand being reset that does not answer puts it on the fallback path (R345). -/
def Obligations.DumpCommands : Prop :=
  (∀ (q : Nat) (t : TaskRec) (s : State), s.ServesHead q 6 2 [(0, 1), (8, 8), (16, 4)] t →
    (15 < le t.args 0 1 → exec (.dump q) s = .next (s.refuseCommand q t 1 0)) ∧
    (∀ a, decodeAddr (le t.args 8 8) = .hbm a → (a % 64 ≠ 0 ∨ hbmSize < a + le t.args 16 4) → exec (.dump q) s = .next (s.refuseCommand q t 1 0)) ∧
    (∀ a, le t.args 0 1 ≤ 15 → decodeAddr (le t.args 8 8) = .hbm a → a % 64 = 0 → a + le t.args 16 4 ≤ hbmSize →
      (le t.args 16 4 < 64 → exec (.dump q) s = .next (s.refuseCommand q t 3 0)) ∧
      (64 ≤ le t.args 16 4 → s.dumpTakes false (.hbm a) (le t.args 16 4) = false → exec (.dump q) s = .next (s.refuseCommand q t 4 0)) ∧
      (64 ≤ le t.args 16 4 → s.dumpTakes false (.hbm a) (le t.args 16 4) = true → ∃ u d, exec (.dump q) s = .next u ∧ u.trunk.dumps = s.trunk.dumps ++ [d] ∧ d.kind = 0 ∧ d.mask = BitVec.ofNat 4 (le t.args 0 1) ∧
        d.dest = .hbm a ∧ d.size = le t.args 16 4 ∧ d.sections = [] ∧ d.op = some ((s.popCommand q).acceptOp q t (s.queue q).sqHead .dump).2))) ∧
  (∀ (us : Word) (payload : List Byte) (s : State), exec (.dumpUnitRead us payload) s = .next (s.dumpSection 0 us.toNat payload)) ∧
  (∀ s : State, s.trunk.dumps = [] → exec .dumpUnitTimeout s = .next s ∧ ∀ us payload, exec (.dumpUnitRead us payload) s = .next s) ∧
  (∀ (d : DumpRun) (rest : List DumpRun) (s : State), s.trunk.dumps = d :: rest → (d.kind ≠ 1 → exec .dumpUnitTimeout s = .next (s.dumpSection 1 20 [])) ∧
    (∀ i a left, d.kind = 1 → d.op = some i → d.left = .hbm a :: left → exec .dumpUnitTimeout s = .next ((s.onStand i fun x => { x with fallback := true }).dumpSection 1 20 [])))

/-- O52: The Aetholo links (R291 to R298): discovery, flits, retraining and link failures act on wired ports; device numbers; a flit with a bad CRC is discarded and counted, its replay requested, and only the eighth in a row retrains its link; a flit out of sequence is dropped; a message's last flit in sequence delivers it and its credits go back. -/
def Obligations.AetholoLinks : Prop :=
  (∀ (port : Nat) (sideB : Bool) (s : State), s.aelLive = true → s.wired port sideB = true →
    (∀ n, exec (.discoveryMessage port sideB (.discovery n)) s = .next (s.deliver port sideB (.discovery n))) ∧
    (∀ r p sys hops, exec (.discoveryMessage port sideB (.discoveryAnswer r p sys hops)) s = .next (s.deliver port sideB (.discoveryAnswer r p sys hops))) ∧
    (∀ f, exec (.aetholoFlitReceive port sideB f) s = .next (s.takeFlit port sideB f)) ∧
    exec (.linkRetrainDone port sideB) s = .next (s.linkUp port sideB) ∧
    (((s.port port).link sideB).training = true → exec (.linkRetrainTimeout port sideB) s =
      .next (((s.onLink port sideB fun q => { q with training := false, up := false, waiting := [] }).onPort port Port.settle).breakLink (s.linkNo port sideB).1 (s.linkNo port sideB).2))) ∧
  (∀ (ring : Nat) (s : State), s.aelLive = true → exec (.discoveryTimeout ring) s = .next (s.disableRing ring)) ∧
  (∀ (port link : Nat) (s : State), s.isManager = true → port < 4 → link ≤ s.ringLen port → 0 < s.ringLen port → exec (.linkDown port link) s = .next (s.breakLink port link)) ∧
  (∀ (port link : Nat) (s : State), s.isWorker = true → link ≤ 16 → exec (.linkDown port link) s = .next (s.breakLink s.ael.role.ring link)) ∧
  (∀ s : State, s.isWorker = true → s.myDev = 1 + 16 * s.ael.role.ring + s.ael.role.position) ∧ (∀ s : State, s.isWorker = false → s.myDev = 0) ∧
  (∀ (port : Nat) (sideB : Bool) (f : Flit) (s : State), port < s.ael.ports.length → ((s.port port).link sideB).up = true → ((s.port port).link sideB).training = false → f.corrected = false →
    (f.crcOk = false → ((s.takeFlit port sideB f).port port).replay = satInc (s.port port).replay ∧
      (((s.port port).link sideB).replays + 1 < 8 → (((s.takeFlit port sideB f).port port).link sideB).up = true ∧ (((s.takeFlit port sideB f).port port).link sideB).replays = ((s.port port).link sideB).replays + 1 ∧
        ∃ bytes, (s.takeFlit port sideB f).out = .flit port sideB bytes (.replay ((s.port port).link sideB).rxSeq) :: s.out) ∧
      (8 ≤ ((s.port port).link sideB).replays + 1 → (((s.takeFlit port sideB f).port port).link sideB).training = true ∧ ((s.takeFlit port sideB f).port port).retrain = satInc (s.port port).retrain) ∧
      s.takeFlit port sideB f = { s with ael := (s.takeFlit port sideB f).ael, out := (s.takeFlit port sideB f).out }) ∧
    (f.crcOk = true → (∀ n, f.body ≠ .replay n) → f.seq ≠ ((s.port port).link sideB).rxSeq → s.takeFlit port sideB f = s) ∧
    (∀ m k, f.crcOk = true → f.body = .part m k true → f.seq = ((s.port port).link sideB).rxSeq → ∃ u : State, ((u.port port).link sideB).rxSeq = ((s.port port).link sideB).rxSeq + 1 ∧
      ((u.port port).link sideB).replays = 0 ∧ u = { s with ael := u.ael } ∧ s.takeFlit port sideB f = ((u.drainLink port sideB).deliver port sideB m).returnOwed port sideB))

/-- O53: Collective commands and messages (R299 to R310): arming and disarming with their results, transfers, arrivals, releases, the end of a run, remote signals, and the resets and notices of the system. -/
def Obligations.CollectiveEvents : Prop :=
  (∀ (e : Nat) (s : State), s.regLive = true → s.ael.armBusy = false → e < 4096 →
    (s.tableHeld e = true → exec (.collArm e) s = .next { s with ael := { s.ael with armBusy := true, armOp := 1, armEntry := e } }) ∧
    (s.tableHeld e = false → exec (.collArm e) s = .next (s.armEntry e)) ∧
    (s.tableHeld e = false → s.hbmUe (s.ael.collBase.toNat + 64 * e) 64 = false → parseColl (s.hbmBytes (s.ael.collBase.toNat + 64 * e) 64) = none →
      exec (.collArm e) s = .next { s with ael := { s.ael with armBusy := false, armResult := 1 } }) ∧
    (s.armed e = none → exec (.collDisarm e) s = .next { s with ael := { s.ael with armBusy := false, armResult := 0 } }) ∧
    (∀ a, s.armed e = some a → a.inFlight = true → exec (.collDisarm e) s = .next { s with ael := { s.ael with armBusy := false, armResult := 3 } }) ∧
    (∀ a, s.armed e = some a → a.inFlight = false → ∃ u, exec (.collDisarm e) s = .next u ∧ u.armed e = none ∧ u.ael.armResult = 0 ∧ (∀ e', e' ≠ e → u.armed e' = s.armed e') ∧
      (∀ n, (u.knot n).waiters = (s.knot n).waiters.filter (· != .coll e)) ∧ u.hbm = s.hbm)) ∧
  (∀ s : State, s.aelLive = true →
    (∀ port sideB x, s.wired port sideB = true → exec (.collectiveTransfer port sideB x) s = .next (s.takeTransfer port sideB x)) ∧
    (∀ dev e stand sig, exec (.collectiveArrival dev e stand sig) s = .next (s.arrive dev e stand sig)) ∧
    (∀ e dev stand, exec (.collectiveRelease e 0 dev stand) s = .next ((s.relay (.release e)).takeRelease e 0 dev stand)) ∧
    (∀ e status dev stand, status ≠ 0 → exec (.collectiveRelease e status dev stand) s = .next ((s.relay (.endRun e status dev stand)).takeRelease e status dev stand)) ∧
    (∀ e, exec (.collectiveRunEnd e) s = .next (s.settleQueues.endCollRun e)) ∧
    (∀ n, s.hasRole = true → n < 65536 → exec (.aetholoKnotSignal n) s = .next (s.settleQueues.signalKnot n).settleQueues) ∧
    (s.isWorker = true → exec .sysResetNotice s = .next ((s.relay .sysReset).beginWarm 3)) ∧
    (∀ dev stand warm inc, s.isManager = true → exec (.resetNotice dev stand warm inc) s = .next (s.broadcastNotice dev stand (if warm then 2 else 1) inc).mgrAll) ∧
    (∀ dev stand reason inc, s.isWorker = true → exec (.peerNotice dev stand reason inc) s = .next ((s.relay (.peerNotice dev stand reason inc)).applyNotice dev stand reason inc))) ∧
  (∀ (v : Word) (s : State), s.regLive = true → s.isManager = true → bit v 0 = true → exec (.aelSysReset v) s = .next ((s.sendAll .sysReset).beginWarm 3))

/-- O54: The store's events (R382, R383, R389 to R391): a write operation takes records of the queue and starts, its end tells durable or refused, a background step starts and ends, and an hour is counted; a read-only store takes no write. -/
def Obligations.StoreEvents : Prop :=
  (∀ s : State, s.storeUp = true →
    exec .storeWriteOpStart s = .next { s with store := s.store.startWrite } ∧
    (∀ ws, s.store.busy = .idle → s.store.state = .ready → s.store.nextWrites = ws → ws ≠ [] → s.store.startWrite.busy = .write ws ∧ s.store.startWrite.queue.length + ws.length = s.store.queue.length ∧
      (∀ w ∈ ws, w ∈ s.store.queue) ∧ s.store.startWrite.log = s.store.log) ∧
    (s.store.state = .readOnly → s.store.startWrite = s.store ∧ ∀ w, s.storeWrite w = s) ∧
    (∀ fails ws, s.store.busy = .write ws → exec (.storeWriteOpDone fails) s = .next (s.endWrites fails) ∧
      (s.store.state = .readOnly → ∀ p ∈ (s.store.performAll (ws.zipIdx.map fun p => (p.1, nth 0 fails p.2))).2, p.2 = false)) ∧
    (∀ good, s.store.busy = .idle → exec (.storeBackgroundStep good) s = .next { s with store := s.store.startStep }) ∧
    (∀ good k, s.store.busy = .compact k → exec (.storeBackgroundStep good) s = .next (s.endStep good).bootHeld) ∧
    (∀ good k, s.store.busy = .erase k → exec (.storeBackgroundStep good) s = .next (s.endStep good).bootHeld) ∧
    (s.store.state ≠ .readOnly → exec .poweredHourTick s = .next { s with store := { s.store with queue := enqueue s.store.queue (.ring 1 ((nth {} s.store.rings 1).value + 1)) } }))

/-- O55: Messages that the bud serves (R419, R422 to R424): status, telemetry, alerts, resets, the wake and the cap, with BAD_REQUEST for a malformed payload. -/
def Obligations.BudMessages : Prop :=
  ∀ (r : MReq) (s : State), s.BudServes r.via → (∀ p ∈ s.mgmt.pending, p.via ≠ r.via) →
    (r.payload = [] → exec (.getStatus r) s = .next (s.answer r.via 0x02 .success s.statusBytes)) ∧ (r.payload ≠ [] → exec (.getStatus r) s = .next (s.answer r.via 0x02 .badRequest [])) ∧
    (r.payload.length = 8 → le r.payload 0 8 < 2 ^ 40 → exec (.getTelemetry r) s = .next (s.answer r.via 0x03 .success ((bitsSet 40 (le r.payload 0 8)).flatMap fun k => byteOf k :: leBytes 4 (s.sensor k)))) ∧
    (r.payload.length = 4 → exec (.clearAlert r) s = .next (({ s with mgmt := { s.mgmt with alert := s.mgmt.alert &&& ~~~BitVec.ofNat 6 (le r.payload 0 1) } } : State).answer r.via 0x05 .success [])) ∧
    (resetPayload r.payload 2 = true → exec (.mgmtWarmReset r) s = .next ((s.answer r.via 0x06 .success []).beginWarm 4)) ∧
    (resetPayload r.payload 3 = true → exec (.mgmtColdReset r) s = .next ((s.answer r.via 0x06 .success []).selfColdReset)) ∧
    (r.payload = [2] → exec (.mgmtPowerWake r) s = .next ((s.wakeEvent .mgmt).answer r.via 0x07 .success [])) ∧
    (∀ w : Byte, r.payload = [w] → w.toNat ≤ 127 → exec (.setPowerCap r) s = .next (({ s with bud := { s.bud with capW := BitVec.ofNat 7 w.toNat } } : State).answer r.via 0x08 .success [])) ∧
    (∀ cmd c p, s.answer r.via cmd c p = { s with mgmt := (s.answer r.via cmd c p).mgmt, out := .mgmt r.via (byteOf cmd) (byteOf c.code) p :: s.out } ∧ (s.answer r.via cmd c p).mgmt.alert = s.mgmt.alert)

/-- O56: Messages that the trunk serves (R290, R337, R361, R404 to R407, R422): identity, records, a stand reset, Dormant, the role record, quotes and the debug nonce; UNSUPPORTED in recovery mode and while the trunk is in reset, BUSY with another request of the transport outstanding. -/
def Obligations.TrunkMessages : Prop :=
  ∀ (r : MReq) (s : State), s.BudServes r.via →
    ((∃ p ∈ s.mgmt.pending, p.via = r.via) → ∀ (cmd : Nat) (rec : Bool) (go : State → State), s.trunkServe r cmd rec go = s.answer r.via cmd .busy []) ∧
    ((∀ p ∈ s.mgmt.pending, p.via ≠ r.via) →
      (s.trunk.fwRunning = false ∨ s.trunk.warmBusy = true → ∀ (cmd : Nat) (rec : Bool) (go : State → State), s.trunkServe r cmd rec go = s.answer r.via cmd .unsupported []) ∧
      (s.trunk.fwRunning = true → s.trunk.warmBusy = false → r.payload = [] → exec (.getIdentity r) s = .next (s.answer r.via 0x01 .success s.identityBytes)) ∧
      (s.trunk.fwRunning = true → s.trunk.warmBusy = false → s.trunk.recovery = false →
        (r.payload.length = 5 → 1 ≤ le r.payload 4 1 → le r.payload 4 1 ≤ 16 → exec (.readRecords r) s =
          .next (s.answer r.via 0x04 .success (((s.trunk.onDie.filter fun e => decide (le r.payload 0 4 ≤ e.seq.toNat)).take (le r.payload 4 1)).flatMap ERec.bytes))) ∧
        (r.payload.length = 4 → le r.payload 0 1 = 1 → le r.payload 1 1 ≤ 3 → (s.bud.power = .full ∨ s.bud.power = .entering) → exec (.mgmtStandReset r) s =
          .next (((s.answer r.via 0x06 .success []).onStand (le r.payload 1 1) fun d => { d with rstCtrl := (d.rstCtrl &&& 0x0000FFFF#32) ||| (wordOf (at_ (le r.payload 2 2) 16) &&& 0x7FE00000#32) }).requestReset (le r.payload 1 1) 3)) ∧
        (r.payload = [1] → s.refusal = none → exec (.mgmtPowerDormant r) s = .next ((s.requestDormant 1).answer r.via 0x07 .success [])) ∧
        (∀ reason u, r.payload = [1] → s.refusal = some (reason, u) → exec (.mgmtPowerDormant r) s = .next ((s.requestDormant 1).answer r.via 0x07 .powerRefused [byteOf reason])) ∧
        (∀ x, parseRole r.payload = some x → s.store.state ≠ .readOnly → exec (.writeRole r) s = .next ((s.storeRec roleKey (.role x) .mgmt).awaitStore r.via 0x09 1 0 [])) ∧
        (r.payload.length = 32 → exec (.getQuote r) s = .next (s.quote r.via r.payload)) ∧
        (∀ nonce, r.payload = [] → exec (.getDebugNonce r nonce) s = .next ({ s with trunk := { s.trunk with nonce := some (sub nonce 0 32) } }.answer r.via 0x11 .success (sub nonce 0 32)))))

/-- O57: MCTP control commands and the SMBus alert response (R419, R421, R422). The version numbers are free values, and the response bodies' layout is presumed from DSP0236. -/
def Obligations.MctpCommands : Prop :=
  (∀ (via : Transport) (s : State), s.BudServes via →
    (∀ e : Byte, e ≠ 0 → e ≠ 0xFF → ∃ u, exec (.setEndpointId via e) s = .next u ∧ u.mgmt.eid via = e ∧ u.out = .mctp via 1 [0, 0, e, 0] :: s.out ∧ u = { s with mgmt := u.mgmt, out := u.out }) ∧
    exec (.getEndpointId via) s = .next (s.emit (.mctp via 2 [0, s.mgmt.eid via, 0, 0])) ∧
    exec (.getEndpointUuid via) s = .next (s.emit (.mctp via 3 (0 :: s.uuid))) ∧
    (∃ u v, exec (.getMctpVersionSupport via) s = .next u ∧ u.out = .mctp via 4 (0 :: 1 :: v) :: s.out ∧ u = { s with out := u.out, freeCtr := u.freeCtr }) ∧
    exec (.getMessageTypeSupport via) s = .next (s.emit (.mctp via 5 [0, 1, 0x7E])) ∧
    (∃ u v, exec (.getVendorDefinedMsgSupport via) s = .next u ∧ u.out = .mctp via 6 ([0, 0xFF, 0, 0x1F, 0x6B] ++ v) :: s.out ∧ u = { s with out := u.out, freeCtr := u.freeCtr })) ∧
  (∀ s : State, s.trunk.boot ≠ .off → s.alertN = true → exec .smbusAlertResponse s = .next (s.emit (.araResponse s.mgmt.smbAddr))) ∧
  (∀ s : State, s.trunk.identityOk = true → s.idHash.length = 32 → s.uuid.length = 16 ∧ (nth 0 s.uuid 6).toNat / 16 = 8 ∧ (nth 0 s.uuid 8).toNat / 64 = 2)

/-- O58: Security messages (R402, R407, Table 18-4): in the lifecycles of the table, with a good signature and binding, they queue their records and counters and are answered when these are durable; outside them they are DENIED, and with a bad signature, binding or device REFUSED. -/
def Obligations.SecurityMessages : Prop :=
  ∀ (r : SecReq) (s : State), s.BudServes r.via → (∀ p ∈ s.mgmt.pending, p.via ≠ r.via) → s.trunk.fwRunning = true → s.trunk.warmBusy = false → s.trunk.recovery = false →
    (∀ life good go, s.store.counters.lifecycle ∉ life → s.secServe r life good go = s.answer r.via 0x12 .denied []) ∧
    (∀ life good go, s.store.counters.lifecycle ∈ life → (r.idHash ≠ s.idHash ∨ good = false) → s.secServe r life good go = s.answer r.via 0x12 .refused []) ∧
    (r.idHash = s.idHash → s.store.state ≠ .readOnly →
      (s.store.counters.lifecycle = 0 → r.signedBy (some Config.vendorKey) = true → r.bind = 0 → exec (.provision r) s = .next ((s.storeWrite (.counter .lifecycle .mgmt)).awaitStore r.via 0x12 1 0 [])) ∧
      (s.store.counters.lifecycle = 1 → r.bind = 0 → s.store.counters.ownership = 0 → exec (.installOwner r) s =
        .next (((s.storeRec (ownerKeyAt 1) (.ownerKey r.key) .mgmt).storeRec policyKey (.policy {}) .mgmt).awaitStore r.via 0x12 2 1 [])) ∧
      (s.store.counters.lifecycle = 2 → r.signedBy s.ownerPk = true →
        (r.bind = s.store.counters.ownership → s.store.counters.ownership < 8 → exec (.transferOwner r) s =
          .next (((s.storeRec (ownerKeyAt (s.store.counters.ownership + 1)) (.ownerKey r.key) .mgmt).storeRec policyKey (.policy {}) .mgmt).awaitStore r.via 0x12 2 2 [])) ∧
        (r.bind = s.store.counters.ownership → 8 ≤ s.store.counters.ownership → exec (.transferOwner r) s = .next (s.answer r.via 0x12 .exhausted [])) ∧
        (s.policy.seq.toNat < r.bind → exec (.setPolicy r) s = .next ((s.storeRec policyKey (.policy { seq := wordOf r.bind, requireOwnerFw := bit r.flags 0, requireSignedCanopy := bit r.flags 1, allowDebug := bit r.flags 2 }) .mgmt).awaitStore r.via 0x12 1 0 [])) ∧
        (r.bind = s.store.counters.ownership → exec (.release r) s = .next ((s.storeWrite (.counter .lifecycle .mgmt)).awaitStore r.via 0x12 1 0 []))) ∧
      (s.store.counters.lifecycle ≤ 3 → (s.store.counters.lifecycle = 2 → r.signedBy s.ownerPk = true) → r.bind = (s.slotSvn s.trunk.runningSlot).toNat → r.bind ≤ 64 → s.store.counters.svn < r.bind → exec (.svnCommit r) s =
        .next (((List.range (r.bind - s.store.counters.svn)).foldl (fun s _ => s.storeWrite (.counter .svn .mgmt)) s).awaitStore r.via 0x12 (r.bind - s.store.counters.svn) 0 [])) ∧
      (1 ≤ s.store.counters.lifecycle → s.store.counters.lifecycle ≤ 3 → r.signedBy (if s.store.counters.lifecycle = 2 then s.ownerPk else some Config.vendorKey) = true → s.trunk.nonce = some r.nonce → r.bind = s.store.counters.debug →
        s.store.counters.debug < 32 → (s.store.counters.lifecycle = 2 → s.policy.allowDebug = true) →
        exec (.debugGrant r) s = .next (({ s with trunk := { s.trunk with nonce := none } }.storeWrite (.counter .debug .mgmt)).awaitStore r.via 0x12 1 5 [])))

/-- O59: A firmware update (R397, R422): BEGIN erases the slot that is not running, DATA appends in order, END checks the slot and enters it as the trial slot, or answers the first check that failed. -/
def Obligations.FirmwareUpdate : Prop :=
  ∀ (r : MReq) (s : State), s.BudServes r.via → (∀ p ∈ s.mgmt.pending, p.via ≠ r.via) → s.trunk.fwRunning = true → s.trunk.warmBusy = false →
    (r.payload.length = 4 → 0 < le r.payload 0 4 → le r.payload 0 4 ≤ 2 ^ 20 → (s.updateSlot = 1 ∨ s.updateSlot = 2) → ∃ u, exec (.fwBegin r) s = .next u ∧ u.trunk.fwUpdate = some [] ∧ u.slotBytes s.updateSlot = [] ∧
      u.slotBytes (3 - s.updateSlot) = s.slotBytes (3 - s.updateSlot) ∧ u.trunk.runningSlot = s.trunk.runningSlot) ∧
    (∀ got, s.trunk.fwUpdate = some got → 4 < r.payload.length → r.payload.length ≤ 1028 → le r.payload 0 4 = got.length → got.length + (r.payload.length - 4) ≤ 2 ^ 20 →
      ∃ u, exec (.fwData r) s = .next u ∧ u.trunk.fwUpdate = some (got ++ r.payload.drop 4) ∧ u.slotBytes s.updateSlot = s.slotBytes s.updateSlot ++ r.payload.drop 4) ∧
    (∀ got, s.trunk.fwUpdate = some got → le r.payload 0 4 ≠ got.length → exec (.fwData r) s = .next (s.answer r.via 0x21 .badRequest [])) ∧
    (∀ got, s.trunk.fwUpdate = some got → s.fwCheck (s.slotBytes s.updateSlot) ≠ 0 → ∃ u, exec (.fwEnd r) s = .next u ∧ u.trunk.fwUpdate = none ∧ u.store = s.store ∧
      u.out = .mgmt r.via 0x22 0 [byteOf (s.fwCheck (s.slotBytes s.updateSlot))] :: s.out) ∧
    (∀ got, s.trunk.fwUpdate = some got → s.fwCheck (s.slotBytes s.updateSlot) = 0 → s.store.state ≠ .readOnly → ∃ u, exec (.fwEnd r) s = .next u ∧ u.trunk.fwUpdate = none ∧
      u.store.queue = enqueue s.store.queue (.record { key := slotKey, payload := .slotState { s.slotState with trial := s.updateSlot, attempts := 0 } } .mgmt))

/-- O60: The test access port (R425): EXTEST, CLAMP, HIGHZ and the AC tests act only while PERST_N is low and act as BYPASS otherwise; IDCODE, SAMPLE and BYPASS act always; a vendor code under a debug grant, or in Manufacturing, has no described effect and is refused by name. None changes anything but the port. -/
def Obligations.TestPortCommands : Prop :=
  ∀ s : State, s.trunk.boot ≠ .off →
    (s.bud.perst = true → (∀ bits, exec (.extest bits) s = .next { s with tap := { s.tap with instr := .extest, preload := bits, driving := true, highz := false, acTest := 0 } }) ∧
      exec .clamp s = .next { s with tap := { s.tap with instr := .clamp, driving := true, highz := false, acTest := 0 } } ∧
      exec .highz s = .next { s with tap := { s.tap with instr := .highz, driving := false, highz := true, acTest := 0 } } ∧
      exec .extestPulse s = .next { s with tap := { s.tap with instr := .extestPulse, driving := true, highz := false, acTest := 1 } } ∧
      exec .extestTrain s = .next { s with tap := { s.tap with instr := .extestTrain, driving := true, highz := false, acTest := 2 } }) ∧
    (s.bud.perst = false → ∀ bits, ∀ c ∈ [Instr.extest bits, .clamp, .highz, .extestPulse, .extestTrain], exec c s = .next { s with tap := { s.tap with instr := .bypass, driving := false, highz := false, acTest := 0 } }) ∧
    (∃ u, exec .idcode s = .next u ∧ u.tap = { s.tap with instr := .idcode, driving := false, highz := false, acTest := 0 } ∧ u.out = .tdo (idcodeOf s.factoryPart) :: s.out ∧ u = { s with tap := u.tap, out := u.out }) ∧
    (∀ pins bits, exec (.samplePreload pins bits) s = .next { s with tap := { s.tap with instr := .sample, captured := pins, preload := bits, driving := false, highz := false, acTest := 0 } }) ∧
    (∀ code : Byte, (code.toNat < 0x80 ∨ code.toNat = 0xFF ∨ (s.trunk.debugActive = false ∧ s.store.counters.lifecycle ≠ 0)) →
      exec (.bypass code) s = .next { s with tap := { s.tap with instr := .bypass, driving := false, highz := false, acTest := 0 } }) ∧
    (∀ code : Byte, 0x80 ≤ code.toNat → code.toNat ≤ 0xFE → (s.trunk.debugActive = true ∨ s.store.counters.lifecycle = 0) → exec (.bypass code) s = .refused (.vendorInstruction code))
end

