-- ==== Sys2Proof/Laws/Bits.lean ====
section
/-! SUPPORT. Little-endian byte strings: their lengths, and that a number and its bytes determine each other. -/

namespace Sys2Proof.Machine

@[simp] theorem leBytes_length (k n : Nat) : (leBytes k n).length = k := by
  induction k generalizing n with
  | zero => rfl
  | succ k ih => simp [leBytes, ih]

@[simp] theorem leNat_leBytes (k n : Nat) : leNat (leBytes k n) = n % 256 ^ k := by
  induction k generalizing n with
  | zero => simp [leBytes, leNat, Nat.mod_one]
  | succ k ih =>
    simp only [leBytes, leNat, ih, byteOf, BitVec.toNat_ofNat]
    rw [show 256 ^ (k + 1) = 256 * 256 ^ k from Nat.pow_succ', Nat.mod_mul]

@[simp] theorem sub_length (bs : List Byte) (o n : Nat) : (sub bs o n).length = n := by
  simp only [sub, List.length_append, List.length_take, List.length_drop, List.length_replicate]
  omega

/-- A number stored at the end of a byte string reads back there. -/
theorem le_append_leBytes (bs : List Byte) (k n : Nat) : le (bs ++ leBytes k n) bs.length k = n % 256 ^ k := by
  unfold le sub
  simp [List.take_of_length_le]

@[simp] theorem wordOf_toNat (w : Word) : wordOf w.toNat = w := by
  unfold wordOf
  simp

end Sys2Proof.Machine
end

