-- ==== Sys2Proof/Laws/State.lean ====
section
/-! SUPPORT. What each update of the state leaves in each field: one equation per update and field, true by unfolding, so that no proof unfolds a record update. -/

namespace Sys2Proof.Machine

@[simp] theorem State.onBud_bud (s : State) (f : Bud → Bud) : (s.onBud f).bud = f s.bud := rfl
@[simp] theorem State.onBud_trunk (s : State) (f : Bud → Bud) : (s.onBud f).trunk = s.trunk := rfl
@[simp] theorem State.onBud_store (s : State) (f : Bud → Bud) : (s.onBud f).store = s.store := rfl
@[simp] theorem State.onBud_que (s : State) (f : Bud → Bud) : (s.onBud f).que = s.que := rfl
@[simp] theorem State.onBud_pcie (s : State) (f : Bud → Bud) : (s.onBud f).pcie = s.pcie := rfl
@[simp] theorem State.onBud_ael (s : State) (f : Bud → Bud) : (s.onBud f).ael = s.ael := rfl
@[simp] theorem State.onBud_mgmt (s : State) (f : Bud → Bud) : (s.onBud f).mgmt = s.mgmt := rfl
@[simp] theorem State.onBud_tap (s : State) (f : Bud → Bud) : (s.onBud f).tap = s.tap := rfl
@[simp] theorem State.onBud_stands (s : State) (f : Bud → Bud) : (s.onBud f).stands = s.stands := rfl
@[simp] theorem State.onBud_boughs (s : State) (f : Bud → Bud) : (s.onBud f).boughs = s.boughs := rfl
@[simp] theorem State.onBud_leaves (s : State) (f : Bud → Bud) : (s.onBud f).leaves = s.leaves := rfl
@[simp] theorem State.onBud_hbm (s : State) (f : Bud → Bud) : (s.onBud f).hbm = s.hbm := rfl
@[simp] theorem State.onBud_hbmBad (s : State) (f : Bud → Bud) : (s.onBud f).hbmBad = s.hbmBad := rfl
@[simp] theorem State.onBud_latches (s : State) (f : Bud → Bud) : (s.onBud f).latches = s.latches := rfl
@[simp] theorem State.onBud_rdata (s : State) (f : Bud → Bud) : (s.onBud f).rdata = s.rdata := rfl
@[simp] theorem State.onBud_out (s : State) (f : Bud → Bud) : (s.onBud f).out = s.out := rfl
@[simp] theorem State.onBud_freeCtr (s : State) (f : Bud → Bud) : (s.onBud f).freeCtr = s.freeCtr := rfl
@[simp] theorem State.onBud_pending (s : State) (f : Bud → Bud) : (s.onBud f).pending = s.pending := rfl

@[simp] theorem State.onTrunk_bud (s : State) (f : Trunk → Trunk) : (s.onTrunk f).bud = s.bud := rfl
@[simp] theorem State.onTrunk_trunk (s : State) (f : Trunk → Trunk) : (s.onTrunk f).trunk = f s.trunk := rfl
@[simp] theorem State.onTrunk_store (s : State) (f : Trunk → Trunk) : (s.onTrunk f).store = s.store := rfl
@[simp] theorem State.onTrunk_que (s : State) (f : Trunk → Trunk) : (s.onTrunk f).que = s.que := rfl
@[simp] theorem State.onTrunk_pcie (s : State) (f : Trunk → Trunk) : (s.onTrunk f).pcie = s.pcie := rfl
@[simp] theorem State.onTrunk_ael (s : State) (f : Trunk → Trunk) : (s.onTrunk f).ael = s.ael := rfl
@[simp] theorem State.onTrunk_mgmt (s : State) (f : Trunk → Trunk) : (s.onTrunk f).mgmt = s.mgmt := rfl
@[simp] theorem State.onTrunk_tap (s : State) (f : Trunk → Trunk) : (s.onTrunk f).tap = s.tap := rfl
@[simp] theorem State.onTrunk_stands (s : State) (f : Trunk → Trunk) : (s.onTrunk f).stands = s.stands := rfl
@[simp] theorem State.onTrunk_boughs (s : State) (f : Trunk → Trunk) : (s.onTrunk f).boughs = s.boughs := rfl
@[simp] theorem State.onTrunk_leaves (s : State) (f : Trunk → Trunk) : (s.onTrunk f).leaves = s.leaves := rfl
@[simp] theorem State.onTrunk_hbm (s : State) (f : Trunk → Trunk) : (s.onTrunk f).hbm = s.hbm := rfl
@[simp] theorem State.onTrunk_hbmBad (s : State) (f : Trunk → Trunk) : (s.onTrunk f).hbmBad = s.hbmBad := rfl
@[simp] theorem State.onTrunk_latches (s : State) (f : Trunk → Trunk) : (s.onTrunk f).latches = s.latches := rfl
@[simp] theorem State.onTrunk_rdata (s : State) (f : Trunk → Trunk) : (s.onTrunk f).rdata = s.rdata := rfl
@[simp] theorem State.onTrunk_out (s : State) (f : Trunk → Trunk) : (s.onTrunk f).out = s.out := rfl
@[simp] theorem State.onTrunk_freeCtr (s : State) (f : Trunk → Trunk) : (s.onTrunk f).freeCtr = s.freeCtr := rfl
@[simp] theorem State.onTrunk_pending (s : State) (f : Trunk → Trunk) : (s.onTrunk f).pending = s.pending := rfl

@[simp] theorem State.onStore_bud (s : State) (f : Store → Store) : (s.onStore f).bud = s.bud := rfl
@[simp] theorem State.onStore_trunk (s : State) (f : Store → Store) : (s.onStore f).trunk = s.trunk := rfl
@[simp] theorem State.onStore_store (s : State) (f : Store → Store) : (s.onStore f).store = f s.store := rfl
@[simp] theorem State.onStore_que (s : State) (f : Store → Store) : (s.onStore f).que = s.que := rfl
@[simp] theorem State.onStore_pcie (s : State) (f : Store → Store) : (s.onStore f).pcie = s.pcie := rfl
@[simp] theorem State.onStore_ael (s : State) (f : Store → Store) : (s.onStore f).ael = s.ael := rfl
@[simp] theorem State.onStore_mgmt (s : State) (f : Store → Store) : (s.onStore f).mgmt = s.mgmt := rfl
@[simp] theorem State.onStore_tap (s : State) (f : Store → Store) : (s.onStore f).tap = s.tap := rfl
@[simp] theorem State.onStore_stands (s : State) (f : Store → Store) : (s.onStore f).stands = s.stands := rfl
@[simp] theorem State.onStore_boughs (s : State) (f : Store → Store) : (s.onStore f).boughs = s.boughs := rfl
@[simp] theorem State.onStore_leaves (s : State) (f : Store → Store) : (s.onStore f).leaves = s.leaves := rfl
@[simp] theorem State.onStore_hbm (s : State) (f : Store → Store) : (s.onStore f).hbm = s.hbm := rfl
@[simp] theorem State.onStore_hbmBad (s : State) (f : Store → Store) : (s.onStore f).hbmBad = s.hbmBad := rfl
@[simp] theorem State.onStore_latches (s : State) (f : Store → Store) : (s.onStore f).latches = s.latches := rfl
@[simp] theorem State.onStore_rdata (s : State) (f : Store → Store) : (s.onStore f).rdata = s.rdata := rfl
@[simp] theorem State.onStore_out (s : State) (f : Store → Store) : (s.onStore f).out = s.out := rfl
@[simp] theorem State.onStore_freeCtr (s : State) (f : Store → Store) : (s.onStore f).freeCtr = s.freeCtr := rfl
@[simp] theorem State.onStore_pending (s : State) (f : Store → Store) : (s.onStore f).pending = s.pending := rfl

@[simp] theorem State.onQue_bud (s : State) (f : Que → Que) : (s.onQue f).bud = s.bud := rfl
@[simp] theorem State.onQue_trunk (s : State) (f : Que → Que) : (s.onQue f).trunk = s.trunk := rfl
@[simp] theorem State.onQue_store (s : State) (f : Que → Que) : (s.onQue f).store = s.store := rfl
@[simp] theorem State.onQue_que (s : State) (f : Que → Que) : (s.onQue f).que = f s.que := rfl
@[simp] theorem State.onQue_pcie (s : State) (f : Que → Que) : (s.onQue f).pcie = s.pcie := rfl
@[simp] theorem State.onQue_ael (s : State) (f : Que → Que) : (s.onQue f).ael = s.ael := rfl
@[simp] theorem State.onQue_mgmt (s : State) (f : Que → Que) : (s.onQue f).mgmt = s.mgmt := rfl
@[simp] theorem State.onQue_tap (s : State) (f : Que → Que) : (s.onQue f).tap = s.tap := rfl
@[simp] theorem State.onQue_stands (s : State) (f : Que → Que) : (s.onQue f).stands = s.stands := rfl
@[simp] theorem State.onQue_boughs (s : State) (f : Que → Que) : (s.onQue f).boughs = s.boughs := rfl
@[simp] theorem State.onQue_leaves (s : State) (f : Que → Que) : (s.onQue f).leaves = s.leaves := rfl
@[simp] theorem State.onQue_hbm (s : State) (f : Que → Que) : (s.onQue f).hbm = s.hbm := rfl
@[simp] theorem State.onQue_hbmBad (s : State) (f : Que → Que) : (s.onQue f).hbmBad = s.hbmBad := rfl
@[simp] theorem State.onQue_latches (s : State) (f : Que → Que) : (s.onQue f).latches = s.latches := rfl
@[simp] theorem State.onQue_rdata (s : State) (f : Que → Que) : (s.onQue f).rdata = s.rdata := rfl
@[simp] theorem State.onQue_out (s : State) (f : Que → Que) : (s.onQue f).out = s.out := rfl
@[simp] theorem State.onQue_freeCtr (s : State) (f : Que → Que) : (s.onQue f).freeCtr = s.freeCtr := rfl
@[simp] theorem State.onQue_pending (s : State) (f : Que → Que) : (s.onQue f).pending = s.pending := rfl

@[simp] theorem State.onPcie_bud (s : State) (f : Pcie → Pcie) : (s.onPcie f).bud = s.bud := rfl
@[simp] theorem State.onPcie_trunk (s : State) (f : Pcie → Pcie) : (s.onPcie f).trunk = s.trunk := rfl
@[simp] theorem State.onPcie_store (s : State) (f : Pcie → Pcie) : (s.onPcie f).store = s.store := rfl
@[simp] theorem State.onPcie_que (s : State) (f : Pcie → Pcie) : (s.onPcie f).que = s.que := rfl
@[simp] theorem State.onPcie_pcie (s : State) (f : Pcie → Pcie) : (s.onPcie f).pcie = f s.pcie := rfl
@[simp] theorem State.onPcie_ael (s : State) (f : Pcie → Pcie) : (s.onPcie f).ael = s.ael := rfl
@[simp] theorem State.onPcie_mgmt (s : State) (f : Pcie → Pcie) : (s.onPcie f).mgmt = s.mgmt := rfl
@[simp] theorem State.onPcie_tap (s : State) (f : Pcie → Pcie) : (s.onPcie f).tap = s.tap := rfl
@[simp] theorem State.onPcie_stands (s : State) (f : Pcie → Pcie) : (s.onPcie f).stands = s.stands := rfl
@[simp] theorem State.onPcie_boughs (s : State) (f : Pcie → Pcie) : (s.onPcie f).boughs = s.boughs := rfl
@[simp] theorem State.onPcie_leaves (s : State) (f : Pcie → Pcie) : (s.onPcie f).leaves = s.leaves := rfl
@[simp] theorem State.onPcie_hbm (s : State) (f : Pcie → Pcie) : (s.onPcie f).hbm = s.hbm := rfl
@[simp] theorem State.onPcie_hbmBad (s : State) (f : Pcie → Pcie) : (s.onPcie f).hbmBad = s.hbmBad := rfl
@[simp] theorem State.onPcie_latches (s : State) (f : Pcie → Pcie) : (s.onPcie f).latches = s.latches := rfl
@[simp] theorem State.onPcie_rdata (s : State) (f : Pcie → Pcie) : (s.onPcie f).rdata = s.rdata := rfl
@[simp] theorem State.onPcie_out (s : State) (f : Pcie → Pcie) : (s.onPcie f).out = s.out := rfl
@[simp] theorem State.onPcie_freeCtr (s : State) (f : Pcie → Pcie) : (s.onPcie f).freeCtr = s.freeCtr := rfl
@[simp] theorem State.onPcie_pending (s : State) (f : Pcie → Pcie) : (s.onPcie f).pending = s.pending := rfl

@[simp] theorem State.onAel_bud (s : State) (f : Ael → Ael) : (s.onAel f).bud = s.bud := rfl
@[simp] theorem State.onAel_trunk (s : State) (f : Ael → Ael) : (s.onAel f).trunk = s.trunk := rfl
@[simp] theorem State.onAel_store (s : State) (f : Ael → Ael) : (s.onAel f).store = s.store := rfl
@[simp] theorem State.onAel_que (s : State) (f : Ael → Ael) : (s.onAel f).que = s.que := rfl
@[simp] theorem State.onAel_pcie (s : State) (f : Ael → Ael) : (s.onAel f).pcie = s.pcie := rfl
@[simp] theorem State.onAel_ael (s : State) (f : Ael → Ael) : (s.onAel f).ael = f s.ael := rfl
@[simp] theorem State.onAel_mgmt (s : State) (f : Ael → Ael) : (s.onAel f).mgmt = s.mgmt := rfl
@[simp] theorem State.onAel_tap (s : State) (f : Ael → Ael) : (s.onAel f).tap = s.tap := rfl
@[simp] theorem State.onAel_stands (s : State) (f : Ael → Ael) : (s.onAel f).stands = s.stands := rfl
@[simp] theorem State.onAel_boughs (s : State) (f : Ael → Ael) : (s.onAel f).boughs = s.boughs := rfl
@[simp] theorem State.onAel_leaves (s : State) (f : Ael → Ael) : (s.onAel f).leaves = s.leaves := rfl
@[simp] theorem State.onAel_hbm (s : State) (f : Ael → Ael) : (s.onAel f).hbm = s.hbm := rfl
@[simp] theorem State.onAel_hbmBad (s : State) (f : Ael → Ael) : (s.onAel f).hbmBad = s.hbmBad := rfl
@[simp] theorem State.onAel_latches (s : State) (f : Ael → Ael) : (s.onAel f).latches = s.latches := rfl
@[simp] theorem State.onAel_rdata (s : State) (f : Ael → Ael) : (s.onAel f).rdata = s.rdata := rfl
@[simp] theorem State.onAel_out (s : State) (f : Ael → Ael) : (s.onAel f).out = s.out := rfl
@[simp] theorem State.onAel_freeCtr (s : State) (f : Ael → Ael) : (s.onAel f).freeCtr = s.freeCtr := rfl
@[simp] theorem State.onAel_pending (s : State) (f : Ael → Ael) : (s.onAel f).pending = s.pending := rfl

@[simp] theorem State.onMgmt_bud (s : State) (f : Mgmt → Mgmt) : (s.onMgmt f).bud = s.bud := rfl
@[simp] theorem State.onMgmt_trunk (s : State) (f : Mgmt → Mgmt) : (s.onMgmt f).trunk = s.trunk := rfl
@[simp] theorem State.onMgmt_store (s : State) (f : Mgmt → Mgmt) : (s.onMgmt f).store = s.store := rfl
@[simp] theorem State.onMgmt_que (s : State) (f : Mgmt → Mgmt) : (s.onMgmt f).que = s.que := rfl
@[simp] theorem State.onMgmt_pcie (s : State) (f : Mgmt → Mgmt) : (s.onMgmt f).pcie = s.pcie := rfl
@[simp] theorem State.onMgmt_ael (s : State) (f : Mgmt → Mgmt) : (s.onMgmt f).ael = s.ael := rfl
@[simp] theorem State.onMgmt_mgmt (s : State) (f : Mgmt → Mgmt) : (s.onMgmt f).mgmt = f s.mgmt := rfl
@[simp] theorem State.onMgmt_tap (s : State) (f : Mgmt → Mgmt) : (s.onMgmt f).tap = s.tap := rfl
@[simp] theorem State.onMgmt_stands (s : State) (f : Mgmt → Mgmt) : (s.onMgmt f).stands = s.stands := rfl
@[simp] theorem State.onMgmt_boughs (s : State) (f : Mgmt → Mgmt) : (s.onMgmt f).boughs = s.boughs := rfl
@[simp] theorem State.onMgmt_leaves (s : State) (f : Mgmt → Mgmt) : (s.onMgmt f).leaves = s.leaves := rfl
@[simp] theorem State.onMgmt_hbm (s : State) (f : Mgmt → Mgmt) : (s.onMgmt f).hbm = s.hbm := rfl
@[simp] theorem State.onMgmt_hbmBad (s : State) (f : Mgmt → Mgmt) : (s.onMgmt f).hbmBad = s.hbmBad := rfl
@[simp] theorem State.onMgmt_latches (s : State) (f : Mgmt → Mgmt) : (s.onMgmt f).latches = s.latches := rfl
@[simp] theorem State.onMgmt_rdata (s : State) (f : Mgmt → Mgmt) : (s.onMgmt f).rdata = s.rdata := rfl
@[simp] theorem State.onMgmt_out (s : State) (f : Mgmt → Mgmt) : (s.onMgmt f).out = s.out := rfl
@[simp] theorem State.onMgmt_freeCtr (s : State) (f : Mgmt → Mgmt) : (s.onMgmt f).freeCtr = s.freeCtr := rfl
@[simp] theorem State.onMgmt_pending (s : State) (f : Mgmt → Mgmt) : (s.onMgmt f).pending = s.pending := rfl

@[simp] theorem State.onTap_bud (s : State) (f : Tap → Tap) : (s.onTap f).bud = s.bud := rfl
@[simp] theorem State.onTap_trunk (s : State) (f : Tap → Tap) : (s.onTap f).trunk = s.trunk := rfl
@[simp] theorem State.onTap_store (s : State) (f : Tap → Tap) : (s.onTap f).store = s.store := rfl
@[simp] theorem State.onTap_que (s : State) (f : Tap → Tap) : (s.onTap f).que = s.que := rfl
@[simp] theorem State.onTap_pcie (s : State) (f : Tap → Tap) : (s.onTap f).pcie = s.pcie := rfl
@[simp] theorem State.onTap_ael (s : State) (f : Tap → Tap) : (s.onTap f).ael = s.ael := rfl
@[simp] theorem State.onTap_mgmt (s : State) (f : Tap → Tap) : (s.onTap f).mgmt = s.mgmt := rfl
@[simp] theorem State.onTap_tap (s : State) (f : Tap → Tap) : (s.onTap f).tap = f s.tap := rfl
@[simp] theorem State.onTap_stands (s : State) (f : Tap → Tap) : (s.onTap f).stands = s.stands := rfl
@[simp] theorem State.onTap_boughs (s : State) (f : Tap → Tap) : (s.onTap f).boughs = s.boughs := rfl
@[simp] theorem State.onTap_leaves (s : State) (f : Tap → Tap) : (s.onTap f).leaves = s.leaves := rfl
@[simp] theorem State.onTap_hbm (s : State) (f : Tap → Tap) : (s.onTap f).hbm = s.hbm := rfl
@[simp] theorem State.onTap_hbmBad (s : State) (f : Tap → Tap) : (s.onTap f).hbmBad = s.hbmBad := rfl
@[simp] theorem State.onTap_latches (s : State) (f : Tap → Tap) : (s.onTap f).latches = s.latches := rfl
@[simp] theorem State.onTap_rdata (s : State) (f : Tap → Tap) : (s.onTap f).rdata = s.rdata := rfl
@[simp] theorem State.onTap_out (s : State) (f : Tap → Tap) : (s.onTap f).out = s.out := rfl
@[simp] theorem State.onTap_freeCtr (s : State) (f : Tap → Tap) : (s.onTap f).freeCtr = s.freeCtr := rfl
@[simp] theorem State.onTap_pending (s : State) (f : Tap → Tap) : (s.onTap f).pending = s.pending := rfl

@[simp] theorem State.onStand_bud (s : State) (i : Nat) (f : Stand → Stand) : (s.onStand i f).bud = s.bud := rfl
@[simp] theorem State.onStand_trunk (s : State) (i : Nat) (f : Stand → Stand) : (s.onStand i f).trunk = s.trunk := rfl
@[simp] theorem State.onStand_store (s : State) (i : Nat) (f : Stand → Stand) : (s.onStand i f).store = s.store := rfl
@[simp] theorem State.onStand_que (s : State) (i : Nat) (f : Stand → Stand) : (s.onStand i f).que = s.que := rfl
@[simp] theorem State.onStand_pcie (s : State) (i : Nat) (f : Stand → Stand) : (s.onStand i f).pcie = s.pcie := rfl
@[simp] theorem State.onStand_ael (s : State) (i : Nat) (f : Stand → Stand) : (s.onStand i f).ael = s.ael := rfl
@[simp] theorem State.onStand_mgmt (s : State) (i : Nat) (f : Stand → Stand) : (s.onStand i f).mgmt = s.mgmt := rfl
@[simp] theorem State.onStand_tap (s : State) (i : Nat) (f : Stand → Stand) : (s.onStand i f).tap = s.tap := rfl
@[simp] theorem State.onStand_stands (s : State) (i : Nat) (f : Stand → Stand) : (s.onStand i f).stands = smUpd {} s.stands i f := rfl
@[simp] theorem State.onStand_boughs (s : State) (i : Nat) (f : Stand → Stand) : (s.onStand i f).boughs = s.boughs := rfl
@[simp] theorem State.onStand_leaves (s : State) (i : Nat) (f : Stand → Stand) : (s.onStand i f).leaves = s.leaves := rfl
@[simp] theorem State.onStand_hbm (s : State) (i : Nat) (f : Stand → Stand) : (s.onStand i f).hbm = s.hbm := rfl
@[simp] theorem State.onStand_hbmBad (s : State) (i : Nat) (f : Stand → Stand) : (s.onStand i f).hbmBad = s.hbmBad := rfl
@[simp] theorem State.onStand_latches (s : State) (i : Nat) (f : Stand → Stand) : (s.onStand i f).latches = s.latches := rfl
@[simp] theorem State.onStand_rdata (s : State) (i : Nat) (f : Stand → Stand) : (s.onStand i f).rdata = s.rdata := rfl
@[simp] theorem State.onStand_out (s : State) (i : Nat) (f : Stand → Stand) : (s.onStand i f).out = s.out := rfl
@[simp] theorem State.onStand_freeCtr (s : State) (i : Nat) (f : Stand → Stand) : (s.onStand i f).freeCtr = s.freeCtr := rfl
@[simp] theorem State.onStand_pending (s : State) (i : Nat) (f : Stand → Stand) : (s.onStand i f).pending = s.pending := rfl

@[simp] theorem State.onBough_bud (s : State) (i : Nat) (f : Bough → Bough) : (s.onBough i f).bud = s.bud := rfl
@[simp] theorem State.onBough_trunk (s : State) (i : Nat) (f : Bough → Bough) : (s.onBough i f).trunk = s.trunk := rfl
@[simp] theorem State.onBough_store (s : State) (i : Nat) (f : Bough → Bough) : (s.onBough i f).store = s.store := rfl
@[simp] theorem State.onBough_que (s : State) (i : Nat) (f : Bough → Bough) : (s.onBough i f).que = s.que := rfl
@[simp] theorem State.onBough_pcie (s : State) (i : Nat) (f : Bough → Bough) : (s.onBough i f).pcie = s.pcie := rfl
@[simp] theorem State.onBough_ael (s : State) (i : Nat) (f : Bough → Bough) : (s.onBough i f).ael = s.ael := rfl
@[simp] theorem State.onBough_mgmt (s : State) (i : Nat) (f : Bough → Bough) : (s.onBough i f).mgmt = s.mgmt := rfl
@[simp] theorem State.onBough_tap (s : State) (i : Nat) (f : Bough → Bough) : (s.onBough i f).tap = s.tap := rfl
@[simp] theorem State.onBough_stands (s : State) (i : Nat) (f : Bough → Bough) : (s.onBough i f).stands = s.stands := rfl
@[simp] theorem State.onBough_boughs (s : State) (i : Nat) (f : Bough → Bough) : (s.onBough i f).boughs = smUpd {} s.boughs i f := rfl
@[simp] theorem State.onBough_leaves (s : State) (i : Nat) (f : Bough → Bough) : (s.onBough i f).leaves = s.leaves := rfl
@[simp] theorem State.onBough_hbm (s : State) (i : Nat) (f : Bough → Bough) : (s.onBough i f).hbm = s.hbm := rfl
@[simp] theorem State.onBough_hbmBad (s : State) (i : Nat) (f : Bough → Bough) : (s.onBough i f).hbmBad = s.hbmBad := rfl
@[simp] theorem State.onBough_latches (s : State) (i : Nat) (f : Bough → Bough) : (s.onBough i f).latches = s.latches := rfl
@[simp] theorem State.onBough_rdata (s : State) (i : Nat) (f : Bough → Bough) : (s.onBough i f).rdata = s.rdata := rfl
@[simp] theorem State.onBough_out (s : State) (i : Nat) (f : Bough → Bough) : (s.onBough i f).out = s.out := rfl
@[simp] theorem State.onBough_freeCtr (s : State) (i : Nat) (f : Bough → Bough) : (s.onBough i f).freeCtr = s.freeCtr := rfl
@[simp] theorem State.onBough_pending (s : State) (i : Nat) (f : Bough → Bough) : (s.onBough i f).pending = s.pending := rfl

@[simp] theorem State.onLeaf_bud (s : State) (i : Nat) (f : Leaf → Leaf) : (s.onLeaf i f).bud = s.bud := rfl
@[simp] theorem State.onLeaf_trunk (s : State) (i : Nat) (f : Leaf → Leaf) : (s.onLeaf i f).trunk = s.trunk := rfl
@[simp] theorem State.onLeaf_store (s : State) (i : Nat) (f : Leaf → Leaf) : (s.onLeaf i f).store = s.store := rfl
@[simp] theorem State.onLeaf_que (s : State) (i : Nat) (f : Leaf → Leaf) : (s.onLeaf i f).que = s.que := rfl
@[simp] theorem State.onLeaf_pcie (s : State) (i : Nat) (f : Leaf → Leaf) : (s.onLeaf i f).pcie = s.pcie := rfl
@[simp] theorem State.onLeaf_ael (s : State) (i : Nat) (f : Leaf → Leaf) : (s.onLeaf i f).ael = s.ael := rfl
@[simp] theorem State.onLeaf_mgmt (s : State) (i : Nat) (f : Leaf → Leaf) : (s.onLeaf i f).mgmt = s.mgmt := rfl
@[simp] theorem State.onLeaf_tap (s : State) (i : Nat) (f : Leaf → Leaf) : (s.onLeaf i f).tap = s.tap := rfl
@[simp] theorem State.onLeaf_stands (s : State) (i : Nat) (f : Leaf → Leaf) : (s.onLeaf i f).stands = s.stands := rfl
@[simp] theorem State.onLeaf_boughs (s : State) (i : Nat) (f : Leaf → Leaf) : (s.onLeaf i f).boughs = s.boughs := rfl
@[simp] theorem State.onLeaf_leaves (s : State) (i : Nat) (f : Leaf → Leaf) : (s.onLeaf i f).leaves = smUpd {} s.leaves i f := rfl
@[simp] theorem State.onLeaf_hbm (s : State) (i : Nat) (f : Leaf → Leaf) : (s.onLeaf i f).hbm = s.hbm := rfl
@[simp] theorem State.onLeaf_hbmBad (s : State) (i : Nat) (f : Leaf → Leaf) : (s.onLeaf i f).hbmBad = s.hbmBad := rfl
@[simp] theorem State.onLeaf_latches (s : State) (i : Nat) (f : Leaf → Leaf) : (s.onLeaf i f).latches = s.latches := rfl
@[simp] theorem State.onLeaf_rdata (s : State) (i : Nat) (f : Leaf → Leaf) : (s.onLeaf i f).rdata = s.rdata := rfl
@[simp] theorem State.onLeaf_out (s : State) (i : Nat) (f : Leaf → Leaf) : (s.onLeaf i f).out = s.out := rfl
@[simp] theorem State.onLeaf_freeCtr (s : State) (i : Nat) (f : Leaf → Leaf) : (s.onLeaf i f).freeCtr = s.freeCtr := rfl
@[simp] theorem State.onLeaf_pending (s : State) (i : Nat) (f : Leaf → Leaf) : (s.onLeaf i f).pending = s.pending := rfl

@[simp] theorem State.emit_bud (s : State) (e : OutEv) : (s.emit e).bud = s.bud := rfl
@[simp] theorem State.emit_trunk (s : State) (e : OutEv) : (s.emit e).trunk = s.trunk := rfl
@[simp] theorem State.emit_store (s : State) (e : OutEv) : (s.emit e).store = s.store := rfl
@[simp] theorem State.emit_que (s : State) (e : OutEv) : (s.emit e).que = s.que := rfl
@[simp] theorem State.emit_pcie (s : State) (e : OutEv) : (s.emit e).pcie = s.pcie := rfl
@[simp] theorem State.emit_ael (s : State) (e : OutEv) : (s.emit e).ael = s.ael := rfl
@[simp] theorem State.emit_mgmt (s : State) (e : OutEv) : (s.emit e).mgmt = s.mgmt := rfl
@[simp] theorem State.emit_tap (s : State) (e : OutEv) : (s.emit e).tap = s.tap := rfl
@[simp] theorem State.emit_stands (s : State) (e : OutEv) : (s.emit e).stands = s.stands := rfl
@[simp] theorem State.emit_boughs (s : State) (e : OutEv) : (s.emit e).boughs = s.boughs := rfl
@[simp] theorem State.emit_leaves (s : State) (e : OutEv) : (s.emit e).leaves = s.leaves := rfl
@[simp] theorem State.emit_hbm (s : State) (e : OutEv) : (s.emit e).hbm = s.hbm := rfl
@[simp] theorem State.emit_hbmBad (s : State) (e : OutEv) : (s.emit e).hbmBad = s.hbmBad := rfl
@[simp] theorem State.emit_latches (s : State) (e : OutEv) : (s.emit e).latches = s.latches := rfl
@[simp] theorem State.emit_rdata (s : State) (e : OutEv) : (s.emit e).rdata = s.rdata := rfl
@[simp] theorem State.emit_out (s : State) (e : OutEv) : (s.emit e).out = e :: s.out := rfl
@[simp] theorem State.emit_freeCtr (s : State) (e : OutEv) : (s.emit e).freeCtr = s.freeCtr := rfl
@[simp] theorem State.emit_pending (s : State) (e : OutEv) : (s.emit e).pending = s.pending := rfl

@[simp] theorem State.free_bud (s : State) : (s.free.2).bud = s.bud := rfl
@[simp] theorem State.free_trunk (s : State) : (s.free.2).trunk = s.trunk := rfl
@[simp] theorem State.free_store (s : State) : (s.free.2).store = s.store := rfl
@[simp] theorem State.free_que (s : State) : (s.free.2).que = s.que := rfl
@[simp] theorem State.free_pcie (s : State) : (s.free.2).pcie = s.pcie := rfl
@[simp] theorem State.free_ael (s : State) : (s.free.2).ael = s.ael := rfl
@[simp] theorem State.free_mgmt (s : State) : (s.free.2).mgmt = s.mgmt := rfl
@[simp] theorem State.free_tap (s : State) : (s.free.2).tap = s.tap := rfl
@[simp] theorem State.free_stands (s : State) : (s.free.2).stands = s.stands := rfl
@[simp] theorem State.free_boughs (s : State) : (s.free.2).boughs = s.boughs := rfl
@[simp] theorem State.free_leaves (s : State) : (s.free.2).leaves = s.leaves := rfl
@[simp] theorem State.free_hbm (s : State) : (s.free.2).hbm = s.hbm := rfl
@[simp] theorem State.free_hbmBad (s : State) : (s.free.2).hbmBad = s.hbmBad := rfl
@[simp] theorem State.free_latches (s : State) : (s.free.2).latches = s.latches := rfl
@[simp] theorem State.free_rdata (s : State) : (s.free.2).rdata = s.rdata := rfl
@[simp] theorem State.free_out (s : State) : (s.free.2).out = s.out := rfl
@[simp] theorem State.free_freeCtr (s : State) : (s.free.2).freeCtr = s.freeCtr + 1 := rfl
@[simp] theorem State.free_pending (s : State) : (s.free.2).pending = s.pending := rfl

@[simp] theorem State.poke_bud (s : State) (a : Nat) (bs : List Byte) : (s.poke a bs).bud = s.bud := rfl
@[simp] theorem State.poke_trunk (s : State) (a : Nat) (bs : List Byte) : (s.poke a bs).trunk = s.trunk := rfl
@[simp] theorem State.poke_store (s : State) (a : Nat) (bs : List Byte) : (s.poke a bs).store = s.store := rfl
@[simp] theorem State.poke_que (s : State) (a : Nat) (bs : List Byte) : (s.poke a bs).que = s.que := rfl
@[simp] theorem State.poke_pcie (s : State) (a : Nat) (bs : List Byte) : (s.poke a bs).pcie = s.pcie := rfl
@[simp] theorem State.poke_ael (s : State) (a : Nat) (bs : List Byte) : (s.poke a bs).ael = s.ael := rfl
@[simp] theorem State.poke_mgmt (s : State) (a : Nat) (bs : List Byte) : (s.poke a bs).mgmt = s.mgmt := rfl
@[simp] theorem State.poke_tap (s : State) (a : Nat) (bs : List Byte) : (s.poke a bs).tap = s.tap := rfl
@[simp] theorem State.poke_stands (s : State) (a : Nat) (bs : List Byte) : (s.poke a bs).stands = s.stands := rfl
@[simp] theorem State.poke_boughs (s : State) (a : Nat) (bs : List Byte) : (s.poke a bs).boughs = s.boughs := rfl
@[simp] theorem State.poke_leaves (s : State) (a : Nat) (bs : List Byte) : (s.poke a bs).leaves = s.leaves := rfl
@[simp] theorem State.poke_hbm (s : State) (a : Nat) (bs : List Byte) : (s.poke a bs).hbm = memPutAll s.hbm a bs := rfl
@[simp] theorem State.poke_latches (s : State) (a : Nat) (bs : List Byte) : (s.poke a bs).latches = s.latches := rfl
@[simp] theorem State.poke_rdata (s : State) (a : Nat) (bs : List Byte) : (s.poke a bs).rdata = s.rdata := rfl
@[simp] theorem State.poke_out (s : State) (a : Nat) (bs : List Byte) : (s.poke a bs).out = s.out := rfl
@[simp] theorem State.poke_freeCtr (s : State) (a : Nat) (bs : List Byte) : (s.poke a bs).freeCtr = s.freeCtr := rfl
@[simp] theorem State.poke_pending (s : State) (a : Nat) (bs : List Byte) : (s.poke a bs).pending = s.pending := rfl

@[simp] theorem State.poisonWords_bud (s : State) (ws : List Nat) : (s.poisonWords ws).bud = s.bud := rfl
@[simp] theorem State.poisonWords_trunk (s : State) (ws : List Nat) : (s.poisonWords ws).trunk = s.trunk := rfl
@[simp] theorem State.poisonWords_store (s : State) (ws : List Nat) : (s.poisonWords ws).store = s.store := rfl
@[simp] theorem State.poisonWords_que (s : State) (ws : List Nat) : (s.poisonWords ws).que = s.que := rfl
@[simp] theorem State.poisonWords_pcie (s : State) (ws : List Nat) : (s.poisonWords ws).pcie = s.pcie := rfl
@[simp] theorem State.poisonWords_ael (s : State) (ws : List Nat) : (s.poisonWords ws).ael = s.ael := rfl
@[simp] theorem State.poisonWords_mgmt (s : State) (ws : List Nat) : (s.poisonWords ws).mgmt = s.mgmt := rfl
@[simp] theorem State.poisonWords_tap (s : State) (ws : List Nat) : (s.poisonWords ws).tap = s.tap := rfl
@[simp] theorem State.poisonWords_stands (s : State) (ws : List Nat) : (s.poisonWords ws).stands = s.stands := rfl
@[simp] theorem State.poisonWords_boughs (s : State) (ws : List Nat) : (s.poisonWords ws).boughs = s.boughs := rfl
@[simp] theorem State.poisonWords_leaves (s : State) (ws : List Nat) : (s.poisonWords ws).leaves = s.leaves := rfl
@[simp] theorem State.poisonWords_hbm (s : State) (ws : List Nat) : (s.poisonWords ws).hbm = s.hbm := rfl
@[simp] theorem State.poisonWords_hbmBad (s : State) (ws : List Nat) : (s.poisonWords ws).hbmBad = ws.foldl insertN s.hbmBad := rfl
@[simp] theorem State.poisonWords_latches (s : State) (ws : List Nat) : (s.poisonWords ws).latches = s.latches := rfl
@[simp] theorem State.poisonWords_rdata (s : State) (ws : List Nat) : (s.poisonWords ws).rdata = s.rdata := rfl
@[simp] theorem State.poisonWords_out (s : State) (ws : List Nat) : (s.poisonWords ws).out = s.out := rfl
@[simp] theorem State.poisonWords_freeCtr (s : State) (ws : List Nat) : (s.poisonWords ws).freeCtr = s.freeCtr := rfl
@[simp] theorem State.poisonWords_pending (s : State) (ws : List Nat) : (s.poisonWords ws).pending = s.pending := rfl

@[simp] theorem State.pciError_bud (s : State) (bitNo fn addr : Nat) : (s.pciError bitNo fn addr).bud = s.bud := rfl
@[simp] theorem State.pciError_trunk (s : State) (bitNo fn addr : Nat) : (s.pciError bitNo fn addr).trunk = s.trunk := rfl
@[simp] theorem State.pciError_store (s : State) (bitNo fn addr : Nat) : (s.pciError bitNo fn addr).store = s.store := rfl
@[simp] theorem State.pciError_que (s : State) (bitNo fn addr : Nat) : (s.pciError bitNo fn addr).que = s.que := rfl
@[simp] theorem State.pciError_ael (s : State) (bitNo fn addr : Nat) : (s.pciError bitNo fn addr).ael = s.ael := rfl
@[simp] theorem State.pciError_mgmt (s : State) (bitNo fn addr : Nat) : (s.pciError bitNo fn addr).mgmt = s.mgmt := rfl
@[simp] theorem State.pciError_tap (s : State) (bitNo fn addr : Nat) : (s.pciError bitNo fn addr).tap = s.tap := rfl
@[simp] theorem State.pciError_stands (s : State) (bitNo fn addr : Nat) : (s.pciError bitNo fn addr).stands = s.stands := rfl
@[simp] theorem State.pciError_boughs (s : State) (bitNo fn addr : Nat) : (s.pciError bitNo fn addr).boughs = s.boughs := rfl
@[simp] theorem State.pciError_leaves (s : State) (bitNo fn addr : Nat) : (s.pciError bitNo fn addr).leaves = s.leaves := rfl
@[simp] theorem State.pciError_hbm (s : State) (bitNo fn addr : Nat) : (s.pciError bitNo fn addr).hbm = s.hbm := rfl
@[simp] theorem State.pciError_hbmBad (s : State) (bitNo fn addr : Nat) : (s.pciError bitNo fn addr).hbmBad = s.hbmBad := rfl
@[simp] theorem State.pciError_latches (s : State) (bitNo fn addr : Nat) : (s.pciError bitNo fn addr).latches = s.latches := rfl
@[simp] theorem State.pciError_rdata (s : State) (bitNo fn addr : Nat) : (s.pciError bitNo fn addr).rdata = s.rdata := rfl
@[simp] theorem State.pciError_out (s : State) (bitNo fn addr : Nat) : (s.pciError bitNo fn addr).out = s.out := rfl
@[simp] theorem State.pciError_freeCtr (s : State) (bitNo fn addr : Nat) : (s.pciError bitNo fn addr).freeCtr = s.freeCtr := rfl
@[simp] theorem State.pciError_pending (s : State) (bitNo fn addr : Nat) : (s.pciError bitNo fn addr).pending = s.pending := rfl

@[simp] theorem State.alert_bud (s : State) (m : Nat) : (s.alert m).bud = s.bud := rfl
@[simp] theorem State.alert_trunk (s : State) (m : Nat) : (s.alert m).trunk = s.trunk := rfl
@[simp] theorem State.alert_store (s : State) (m : Nat) : (s.alert m).store = s.store := rfl
@[simp] theorem State.alert_que (s : State) (m : Nat) : (s.alert m).que = s.que := rfl
@[simp] theorem State.alert_pcie (s : State) (m : Nat) : (s.alert m).pcie = s.pcie := rfl
@[simp] theorem State.alert_ael (s : State) (m : Nat) : (s.alert m).ael = s.ael := rfl
@[simp] theorem State.alert_mgmt (s : State) (m : Nat) : (s.alert m).mgmt = { s.mgmt with alert := s.mgmt.alert ||| BitVec.ofNat 6 m } := rfl
@[simp] theorem State.alert_tap (s : State) (m : Nat) : (s.alert m).tap = s.tap := rfl
@[simp] theorem State.alert_stands (s : State) (m : Nat) : (s.alert m).stands = s.stands := rfl
@[simp] theorem State.alert_boughs (s : State) (m : Nat) : (s.alert m).boughs = s.boughs := rfl
@[simp] theorem State.alert_leaves (s : State) (m : Nat) : (s.alert m).leaves = s.leaves := rfl
@[simp] theorem State.alert_hbm (s : State) (m : Nat) : (s.alert m).hbm = s.hbm := rfl
@[simp] theorem State.alert_hbmBad (s : State) (m : Nat) : (s.alert m).hbmBad = s.hbmBad := rfl
@[simp] theorem State.alert_latches (s : State) (m : Nat) : (s.alert m).latches = s.latches := rfl
@[simp] theorem State.alert_rdata (s : State) (m : Nat) : (s.alert m).rdata = s.rdata := rfl
@[simp] theorem State.alert_out (s : State) (m : Nat) : (s.alert m).out = s.out := rfl
@[simp] theorem State.alert_freeCtr (s : State) (m : Nat) : (s.alert m).freeCtr = s.freeCtr := rfl
@[simp] theorem State.alert_pending (s : State) (m : Nat) : (s.alert m).pending = s.pending := rfl

@[simp] theorem State.onFunc_bud (s : State) (n : Nat) (g : PFunc → PFunc) : (s.onFunc n g).bud = s.bud := rfl
@[simp] theorem State.onFunc_trunk (s : State) (n : Nat) (g : PFunc → PFunc) : (s.onFunc n g).trunk = s.trunk := rfl
@[simp] theorem State.onFunc_store (s : State) (n : Nat) (g : PFunc → PFunc) : (s.onFunc n g).store = s.store := rfl
@[simp] theorem State.onFunc_que (s : State) (n : Nat) (g : PFunc → PFunc) : (s.onFunc n g).que = s.que := rfl
@[simp] theorem State.onFunc_pcie (s : State) (n : Nat) (g : PFunc → PFunc) : (s.onFunc n g).pcie = { s.pcie with funcs := smUpd {} s.pcie.funcs n g } := rfl
@[simp] theorem State.onFunc_ael (s : State) (n : Nat) (g : PFunc → PFunc) : (s.onFunc n g).ael = s.ael := rfl
@[simp] theorem State.onFunc_mgmt (s : State) (n : Nat) (g : PFunc → PFunc) : (s.onFunc n g).mgmt = s.mgmt := rfl
@[simp] theorem State.onFunc_tap (s : State) (n : Nat) (g : PFunc → PFunc) : (s.onFunc n g).tap = s.tap := rfl
@[simp] theorem State.onFunc_stands (s : State) (n : Nat) (g : PFunc → PFunc) : (s.onFunc n g).stands = s.stands := rfl
@[simp] theorem State.onFunc_boughs (s : State) (n : Nat) (g : PFunc → PFunc) : (s.onFunc n g).boughs = s.boughs := rfl
@[simp] theorem State.onFunc_leaves (s : State) (n : Nat) (g : PFunc → PFunc) : (s.onFunc n g).leaves = s.leaves := rfl
@[simp] theorem State.onFunc_hbm (s : State) (n : Nat) (g : PFunc → PFunc) : (s.onFunc n g).hbm = s.hbm := rfl
@[simp] theorem State.onFunc_hbmBad (s : State) (n : Nat) (g : PFunc → PFunc) : (s.onFunc n g).hbmBad = s.hbmBad := rfl
@[simp] theorem State.onFunc_latches (s : State) (n : Nat) (g : PFunc → PFunc) : (s.onFunc n g).latches = s.latches := rfl
@[simp] theorem State.onFunc_rdata (s : State) (n : Nat) (g : PFunc → PFunc) : (s.onFunc n g).rdata = s.rdata := rfl
@[simp] theorem State.onFunc_out (s : State) (n : Nat) (g : PFunc → PFunc) : (s.onFunc n g).out = s.out := rfl
@[simp] theorem State.onFunc_freeCtr (s : State) (n : Nat) (g : PFunc → PFunc) : (s.onFunc n g).freeCtr = s.freeCtr := rfl
@[simp] theorem State.onFunc_pending (s : State) (n : Nat) (g : PFunc → PFunc) : (s.onFunc n g).pending = s.pending := rfl

@[simp] theorem State.onQueue_bud (s : State) (q : Nat) (f : QRun → QRun) : (s.onQueue q f).bud = s.bud := rfl
@[simp] theorem State.onQueue_trunk (s : State) (q : Nat) (f : QRun → QRun) : (s.onQueue q f).trunk = s.trunk := rfl
@[simp] theorem State.onQueue_store (s : State) (q : Nat) (f : QRun → QRun) : (s.onQueue q f).store = s.store := rfl
@[simp] theorem State.onQueue_que (s : State) (q : Nat) (f : QRun → QRun) : (s.onQueue q f).que = { s.que with queues := smUpd {} s.que.queues q f } := rfl
@[simp] theorem State.onQueue_pcie (s : State) (q : Nat) (f : QRun → QRun) : (s.onQueue q f).pcie = s.pcie := rfl
@[simp] theorem State.onQueue_ael (s : State) (q : Nat) (f : QRun → QRun) : (s.onQueue q f).ael = s.ael := rfl
@[simp] theorem State.onQueue_mgmt (s : State) (q : Nat) (f : QRun → QRun) : (s.onQueue q f).mgmt = s.mgmt := rfl
@[simp] theorem State.onQueue_tap (s : State) (q : Nat) (f : QRun → QRun) : (s.onQueue q f).tap = s.tap := rfl
@[simp] theorem State.onQueue_stands (s : State) (q : Nat) (f : QRun → QRun) : (s.onQueue q f).stands = s.stands := rfl
@[simp] theorem State.onQueue_boughs (s : State) (q : Nat) (f : QRun → QRun) : (s.onQueue q f).boughs = s.boughs := rfl
@[simp] theorem State.onQueue_leaves (s : State) (q : Nat) (f : QRun → QRun) : (s.onQueue q f).leaves = s.leaves := rfl
@[simp] theorem State.onQueue_hbm (s : State) (q : Nat) (f : QRun → QRun) : (s.onQueue q f).hbm = s.hbm := rfl
@[simp] theorem State.onQueue_hbmBad (s : State) (q : Nat) (f : QRun → QRun) : (s.onQueue q f).hbmBad = s.hbmBad := rfl
@[simp] theorem State.onQueue_latches (s : State) (q : Nat) (f : QRun → QRun) : (s.onQueue q f).latches = s.latches := rfl
@[simp] theorem State.onQueue_rdata (s : State) (q : Nat) (f : QRun → QRun) : (s.onQueue q f).rdata = s.rdata := rfl
@[simp] theorem State.onQueue_out (s : State) (q : Nat) (f : QRun → QRun) : (s.onQueue q f).out = s.out := rfl
@[simp] theorem State.onQueue_freeCtr (s : State) (q : Nat) (f : QRun → QRun) : (s.onQueue q f).freeCtr = s.freeCtr := rfl
@[simp] theorem State.onQueue_pending (s : State) (q : Nat) (f : QRun → QRun) : (s.onQueue q f).pending = s.pending := rfl

end Sys2Proof.Machine
end

