-- ==== Sys2Proof/Laws/Memory.lean ====
section
/-! SUPPORT. Byte memories: every write keeps the canonical form, a read gives the last value written, and other bytes keep theirs. -/

namespace Sys2Proof.Machine

theorem Memory.wfFrom_lower {lo lo' : Nat} {m : List Host.Cell} (h : Memory.wfFrom lo m = true) (hl : lo' ≤ lo) : Memory.wfFrom lo' m = true := by
  cases m with
  | nil => rfl
  | cons p r =>
    obtain ⟨i, v⟩ := p
    simp only [Memory.wfFrom, Bool.and_eq_true, decide_eq_true_eq] at h ⊢
    exact ⟨⟨by omega, h.1.2⟩, h.2⟩

theorem Memory.wfFrom_put (m : List Host.Cell) (lo a : Nat) (v : Byte) (h : Memory.wfFrom lo m = true) (hl : lo ≤ a) :
    Memory.wfFrom lo (memPut m a v) = true := by
  induction m generalizing lo with
  | nil => unfold memPut; split <;> simp_all [Memory.wfFrom]
  | cons p r ih =>
    obtain ⟨i, w⟩ := p
    have h' := h
    simp only [Memory.wfFrom, Bool.and_eq_true, decide_eq_true_eq] at h'
    unfold memPut
    split
    · split
      · exact h
      · rename_i h1 h2
        simp only [Memory.wfFrom, Bool.and_eq_true, decide_eq_true_eq, bne_iff_ne, ne_eq]
        exact ⟨⟨hl, h2⟩, ⟨by omega, by simpa using h'.1.2⟩, h'.2⟩
    · split
      · split
        · exact Memory.wfFrom_lower h'.2 (by omega)
        · rename_i h1 h2 h3
          subst h2
          simp only [Memory.wfFrom, Bool.and_eq_true, decide_eq_true_eq, bne_iff_ne, ne_eq]
          exact ⟨⟨hl, h3⟩, h'.2⟩
      · rename_i h1 h2
        simp only [Memory.wfFrom, Bool.and_eq_true, decide_eq_true_eq]
        exact ⟨h'.1, ih (i + 1) h'.2 (by omega)⟩

/-- One byte written keeps the form. -/
theorem Memory.wf_put (m : List Host.Cell) (a : Nat) (v : Byte) (h : Memory.wf m = true) : Memory.wf (memPut m a v) = true :=
  Memory.wfFrom_put m 0 a v h (Nat.zero_le a)

/-- A byte string written keeps the form. -/
theorem Memory.wf_putAll (m : List Host.Cell) (a : Nat) (bs : List Byte) (h : Memory.wf m = true) : Memory.wf (memPutAll m a bs) = true := by
  induction bs generalizing m a with
  | nil => exact h
  | cons b r ih => exact ih _ _ (Memory.wf_put m a b h)

/-- The enabled bytes of a string written keep the form. -/
theorem Memory.wf_putSome (m : List Host.Cell) (a : Nat) (bs : List (Option Byte)) (h : Memory.wf m = true) : Memory.wf (memPutSome m a bs) = true := by
  induction bs generalizing m a with
  | nil => exact h
  | cons b r ih =>
    cases b with
    | none => exact ih _ _ h
    | some v => exact ih _ _ (Memory.wf_put m a v h)

theorem Memory.wfFrom_filter (m : List Host.Cell) (lo : Nat) (p : Host.Cell → Bool) (h : Memory.wfFrom lo m = true) : Memory.wfFrom lo (m.filter p) = true := by
  induction m generalizing lo with
  | nil => rfl
  | cons q r ih =>
    obtain ⟨i, v⟩ := q
    simp only [Memory.wfFrom, Bool.and_eq_true, decide_eq_true_eq] at h
    simp only [List.filter_cons]
    split
    · simp only [Memory.wfFrom, Bool.and_eq_true, decide_eq_true_eq]
      exact ⟨h.1, ih _ h.2⟩
    · exact Memory.wfFrom_lower (ih _ h.2) (by omega)

/-- Bytes dropped from a memory keep the form. -/
theorem Memory.wf_filter (m : List Host.Cell) (p : Host.Cell → Bool) (h : Memory.wf m = true) : Memory.wf (m.filter p) = true :=
  Memory.wfFrom_filter m 0 p h

theorem memGet_below (m : List Host.Cell) (lo a : Nat) (h : Memory.wfFrom lo m = true) (ha : a < lo) : memGet m a = memDefault := by
  induction m generalizing lo with
  | nil => rfl
  | cons p r ih =>
    obtain ⟨i, v⟩ := p
    simp only [Memory.wfFrom, Bool.and_eq_true, decide_eq_true_eq] at h
    unfold memGet
    have hne : i ≠ a := by omega
    simp only [hne, if_false]
    exact ih (i + 1) h.2 (by omega)

theorem memGet_putFrom (m : List Host.Cell) (lo a : Nat) (v : Byte) (h : Memory.wfFrom lo m = true) : memGet (memPut m a v) a = v := by
  induction m generalizing lo with
  | nil => unfold memPut; split <;> simp_all [memGet]
  | cons p r ih =>
    obtain ⟨i, w⟩ := p
    have h' := h
    simp only [Memory.wfFrom, Bool.and_eq_true, decide_eq_true_eq] at h'
    unfold memPut
    split
    · split
      · rename_i h1 h2
        rw [memGet_below ((i, w) :: r) i a (by simp only [Memory.wfFrom, Bool.and_eq_true, decide_eq_true_eq]; exact ⟨⟨Nat.le_refl i, h'.1.2⟩, h'.2⟩) h1, h2]
      · simp [memGet]
    · split
      · split
        · rename_i h1 h2 h3
          rw [memGet_below r (i + 1) a h'.2 (by omega), h3]
        · simp [memGet]
      · rename_i h1 h2
        unfold memGet
        simp only [h2, if_false]
        exact ih (i + 1) h'.2

/-- A byte read after it is written. -/
theorem memGet_put_same (m : List Host.Cell) (a : Nat) (v : Byte) (h : Memory.wf m = true) : memGet (memPut m a v) a = v :=
  memGet_putFrom m 0 a v h

/-- Another byte keeps its value. -/
theorem memGet_put_other (m : List Host.Cell) (a x : Nat) (v : Byte) (hx : x ≠ a) : memGet (memPut m a v) x = memGet m x := by
  induction m with
  | nil => unfold memPut; split <;> simp [memGet, Ne.symm hx]
  | cons p r ih =>
    obtain ⟨i, w⟩ := p
    unfold memPut
    split
    · split
      · rfl
      · simp [memGet, Ne.symm hx]
    · split
      · rename_i h1 h2
        subst h2
        split <;> simp [memGet, Ne.symm hx]
      · simp [memGet, ih]

/-- Bytes outside a string that is written keep their values. -/
theorem memGet_putAll_other (m : List Host.Cell) (a x : Nat) (bs : List Byte) (hx : x < a ∨ a + bs.length ≤ x) : memGet (memPutAll m a bs) x = memGet m x := by
  induction bs generalizing m a with
  | nil => rfl
  | cons b r ih =>
    simp only [List.length_cons] at hx
    unfold memPutAll
    rw [ih (memPut m a b) (a + 1) (by omega), memGet_put_other m a x b (by omega)]

/-- Bytes outside a string whose enabled bytes are written keep their values. -/
theorem memGet_putSome_other (m : List Host.Cell) (a x : Nat) (bs : List (Option Byte)) (hx : x < a ∨ a + bs.length ≤ x) : memGet (memPutSome m a bs) x = memGet m x := by
  induction bs generalizing m a with
  | nil => rfl
  | cons b r ih =>
    simp only [List.length_cons] at hx
    cases b with
    | none => exact ih m (a + 1) (by omega)
    | some v =>
      unfold memPutSome
      rw [ih (memPut m a v) (a + 1) (by omega), memGet_put_other m a x v (by omega)]

/-- Every byte of a string that was written reads back. -/
theorem memGet_putAll_same (m : List Host.Cell) (a i : Nat) (bs : List Byte) (h : Memory.wf m = true) (hi : i < bs.length) :
    memGet (memPutAll m a bs) (a + i) = bs[i] := by
  induction bs generalizing m a i with
  | nil => simp at hi
  | cons b r ih =>
    unfold memPutAll
    cases i with
    | zero =>
      rw [memGet_putAll_other _ _ _ _ (Or.inl (by omega)), Nat.add_zero, memGet_put_same m a b h]
      rfl
    | succ j =>
      have := ih (memPut m a b) (a + 1) j (Memory.wf_put m a b h) (by simpa using hi)
      simpa [Nat.add_assoc, Nat.add_comm 1 j] using this

/-- HBM keeps its canonical form under a write. -/
theorem State.poke_wf (s : State) (a : Nat) (bs : List Byte) (h : Memory.wf s.hbm = true) : Memory.wf (s.poke a bs).hbm = true :=
  Memory.wf_putAll s.hbm a bs h

/-- HBM keeps its canonical form when a stand's range is zeroed (R345). -/
theorem State.zeroStand_wf (s : State) (i : Nat) (h : Memory.wf s.hbm = true) : Memory.wf (s.zeroStand i).hbm = true :=
  Memory.wf_filter s.hbm _ h

end Sys2Proof.Machine
end

