-- ==== Sys2Proof/Laws/Kept.lean ====
section
/-! SUPPORT. What every operation of the block keeps: the canonical form of memory, and the commands that wait. Combinators for its proofs. -/

namespace Sys2Proof.Machine

/-- Memory canonical and the waiting commands `pq`: what every operation of the block keeps. -/
def State.Kept (pq : List Instr) (s : State) : Prop := Memory.wf s.hbm = true ∧ s.pending = pq

/-- The state in a pair or in an option is kept. -/
def KeptFst (pq : List Instr) {α : Type} (x : State × α) : Prop := State.Kept pq x.1
def KeptSnd (pq : List Instr) {α : Type} (x : α × State) : Prop := State.Kept pq x.2
def KeptOpt (pq : List Instr) {α : Type} (x : Option (α × State)) : Prop := ∀ y, x = some y → State.Kept pq y.2

/-- An issue that goes on answers only values with property `P`. -/
structure IssueGives {α : Type} (P : α → Prop) (r : Issue α) : Prop where
  all : ∀ a, r = .ok a → P a

variable {pq : List Instr}

theorem kept_ite {c : Prop} [Decidable c] {a b : State} (ha : c → State.Kept pq a) (hb : ¬c → State.Kept pq b) : State.Kept pq (if c then a else b) := by
  split <;> simp_all

theorem kept_foldl {α : Type} (l : List α) (f : State → α → State) (s : State) (h : State.Kept pq s)
    (hf : ∀ s a, State.Kept pq s → State.Kept pq (f s a)) : State.Kept pq (l.foldl f s) := by
  induction l generalizing s with
  | nil => exact h
  | cons a r ih => exact ih _ (hf s a h)

/-- A record update that leaves memory and queue alone. -/
theorem kept_upd {s : State} {a b c d e f g h i j k l m n o p} (x : State.Kept pq s) :
    State.Kept pq ⟨a, b, c, d, e, f, g, h, i, j, k, s.hbm, l, m, n, o, p, s.pending⟩ := x

theorem kept_nil {s : State} {a b c d e f g h i j k l m n o p} (x : State.Kept pq s) :
    State.Kept pq ⟨a, b, c, d, e, f, g, h, i, j, k, [], l, m, n, o, p, s.pending⟩ := ⟨rfl, x.2⟩

theorem kept_putSome {a b c d e f g h i j k l m n o p} {s : State} (bs : List (Option Byte)) (ad : Nat) (x : State.Kept pq s) :
    State.Kept pq ⟨a, b, c, d, e, f, g, h, i, j, k, memPutSome s.hbm ad bs, l, m, n, o, p, s.pending⟩ := ⟨Memory.wf_putSome _ _ _ x.1, x.2⟩

theorem keptFst_mk {α : Type} {s : State} {a : α} (h : State.Kept pq s) : KeptFst pq (s, a) := h
theorem keptSnd_mk {α : Type} {s : State} {a : α} (h : State.Kept pq s) : KeptSnd pq (a, s) := h

theorem keptFst_ite {α : Type} {c : Prop} [Decidable c] {a b : State × α} (ha : c → KeptFst pq a) (hb : ¬c → KeptFst pq b) :
    KeptFst pq (if c then a else b) := by split <;> simp_all

theorem keptSnd_ite {α : Type} {c : Prop} [Decidable c] {a b : α × State} (ha : c → KeptSnd pq a) (hb : ¬c → KeptSnd pq b) :
    KeptSnd pq (if c then a else b) := by split <;> simp_all

theorem kept_fst {α : Type} {x : State × α} (h : KeptFst pq x) : State.Kept pq x.1 := h
theorem kept_snd {α : Type} {x : α × State} (h : KeptSnd pq x) : State.Kept pq x.2 := h
theorem kept_pair {α : Type} {x : State × α} {s : State} {a : α} (e : x = (s, a)) (h : KeptFst pq x) : State.Kept pq s := by rw [e] at h; exact h
theorem kept_pair2 {α : Type} {x : α × State} {s : State} {a : α} (e : x = (a, s)) (h : KeptSnd pq x) : State.Kept pq s := by rw [e] at h; exact h
theorem keptOpt_none {α : Type} : KeptOpt pq (none : Option (α × State)) := by intro _ h; cases h
theorem keptOpt_some {α : Type} {a : α} {s : State} (h : State.Kept pq s) : KeptOpt pq (some (a, s)) := by intro _ e; cases e; exact h
theorem kept_opt {α : Type} {x : Option (α × State)} {s : State} {a : α} (e : x = some (a, s)) (h : KeptOpt pq x) : State.Kept pq s := h _ e

theorem issues_ok {α : Type} {P : α → Prop} {a : α} (h : P a) : IssueGives P (.ok a) := ⟨by intro b e; cases e; exact h⟩
theorem issues_pure {α : Type} {P : α → Prop} {a : α} (h : P a) : IssueGives P (pure a) := ⟨by intro b e; cases e; exact h⟩
theorem issues_error {α : Type} {P : α → Prop} {e : Stall} : IssueGives P (.error e) := ⟨by intro b h; cases h⟩
theorem issues_throw {α : Type} {P : α → Prop} {e : Stall} : IssueGives P (throw e) := ⟨by intro b h; cases h⟩
theorem issues_any {α : Type} {r : Issue α} : IssueGives (fun _ => True) r := ⟨fun _ _ => trivial⟩
theorem issues_shape {α : Type} {P : α → Prop} : IssueGives P shape := issues_error

theorem issues_bind {α β : Type} {Q : α → Prop} {P : β → Prop} {x : Issue α} {f : α → Issue β} (hx : IssueGives Q x)
    (hf : ∀ a, Q a → IssueGives P (f a)) : IssueGives P (x >>= f) := by
  constructor
  intro b e
  cases hxe : x with
  | error e' => simp [hxe, bind, Except.bind] at e
  | ok a => rw [hxe] at e; exact (hf a (hx.all a hxe)).all b e

theorem issues_ite {α : Type} {P : α → Prop} {c : Prop} [Decidable c] {a b : Issue α} (ha : c → IssueGives P a) (hb : ¬c → IssueGives P b) :
    IssueGives P (if c then a else b) := by split <;> simp_all

theorem issues_map {α β : Type} {P : β → Prop} {x : Issue α} {f : α → β} (hf : ∀ a, P (f a)) : IssueGives P (Except.map f x) := by
  constructor
  intro b e
  cases x with
  | error _ => cases e
  | ok a => cases e; exact hf a

theorem issues_foldlM {α : Type} {P : State → Prop} (l : List α) (f : State → α → Issue State) (s : State) (h : P s)
    (hf : ∀ s a, P s → IssueGives P (f s a)) : IssueGives P (l.foldlM f s) := by
  induction l generalizing s with
  | nil => exact issues_pure h
  | cons a r ih => exact issues_bind (hf s a h) (fun t ht => ih t ht)
theorem kept_of_fst {α : Type} {s : State} {a : α} (h : KeptFst pq (s, a)) : State.Kept pq s := h
theorem kept_of_snd {α : Type} {s : State} {a : α} (h : KeptSnd pq (a, s)) : State.Kept pq s := h

/-- A local operation's iteration that keeps memory and queue. -/
def LocalBody.Kept (pq : List Instr) (body : LocalBody) : Prop := ∀ s i d n m it, State.Kept pq s → IssueGives (State.Kept pq) (body s i d n m it)

/-- A register whose read and write keep memory and queue. -/
def Reg.Kept (pq : List Instr) (r : Reg) : Prop :=
  (∀ s, State.Kept pq s → State.Kept pq (r.clear s)) ∧ (∀ v s, State.Kept pq s → State.Kept pq (r.write v s))

theorem reg_mk {a b c d} (h1 : ∀ s : State, State.Kept pq s → State.Kept pq (b s)) (h2 : ∀ v (s : State), State.Kept pq s → State.Kept pq (c v s)) :
    Reg.Kept pq ⟨a, b, c, d⟩ := ⟨h1, h2⟩

theorem reg_ite {c : Prop} [Decidable c] {a b : Reg} (ha : c → Reg.Kept pq a) (hb : ¬c → Reg.Kept pq b) : Reg.Kept pq (if c then a else b) := by split <;> simp_all

theorem reg_clear {r : Reg} {s : State} (h : Reg.Kept pq r) (hs : State.Kept pq s) : State.Kept pq (r.clear s) := h.1 s hs
theorem reg_write {r : Reg} {s : State} {v : Word} (h : Reg.Kept pq r) (hs : State.Kept pq s) : State.Kept pq (r.write v s) := h.2 v s hs

theorem reg_ro {v : Word} {l : Bool} : Reg.Kept pq { value := v, lo := l } := ⟨fun _ h => h, fun _ _ h => h⟩

theorem res_state {r : Res} {s : State} (hs : State.Kept pq s) (h : ∀ t, r = .next t → State.Kept pq t) : State.Kept pq (r.state s) := by
  cases r <;> first | exact h _ rfl | exact hs

end Sys2Proof.Machine
end

