-- ==== Sys2Proof/Laws/Kept1.lean ====
section
/-! SUPPORT. Memory and the waiting commands are kept by the operations of State, Flags, Ops, StoreOps, AelOps, QueueOps, DumpOps, CollOps, SecOps, LeafOps, CalOps. -/

namespace Sys2Proof.Machine

variable {pq : List Instr}

theorem State.reset_kept : State.Kept [] State.reset := by exact ⟨rfl, rfl⟩

theorem State.pciError_kept (s : State) (bitNo fn : Nat) (addr : Nat) (hs : State.Kept pq s) : State.Kept pq (State.pciError s bitNo fn addr) := hs

theorem State.alert_kept (s : State) (m : Nat) (hs : State.Kept pq s) : State.Kept pq (State.alert s m) := hs

theorem State.onStand_kept (s : State) (i : Nat) (f : Stand → Stand) (hs : State.Kept pq s) : State.Kept pq (State.onStand s i f) := hs

theorem State.onBough_kept (s : State) (b : Nat) (f : Bough → Bough) (hs : State.Kept pq s) : State.Kept pq (State.onBough s b f) := hs

theorem State.onLeaf_kept (s : State) (k : Nat) (f : Leaf → Leaf) (hs : State.Kept pq s) : State.Kept pq (State.onLeaf s k f) := hs

theorem State.onBud_kept (s : State) (f : Bud → Bud) (hs : State.Kept pq s) : State.Kept pq (State.onBud s f) := hs

theorem State.onTrunk_kept (s : State) (f : Trunk → Trunk) (hs : State.Kept pq s) : State.Kept pq (State.onTrunk s f) := hs

theorem State.onStore_kept (s : State) (f : Store → Store) (hs : State.Kept pq s) : State.Kept pq (State.onStore s f) := hs

theorem State.onQue_kept (s : State) (f : Que → Que) (hs : State.Kept pq s) : State.Kept pq (State.onQue s f) := hs

theorem State.onPcie_kept (s : State) (f : Pcie → Pcie) (hs : State.Kept pq s) : State.Kept pq (State.onPcie s f) := hs

theorem State.onAel_kept (s : State) (f : Ael → Ael) (hs : State.Kept pq s) : State.Kept pq (State.onAel s f) := hs

theorem State.onMgmt_kept (s : State) (f : Mgmt → Mgmt) (hs : State.Kept pq s) : State.Kept pq (State.onMgmt s f) := hs

theorem State.onTap_kept (s : State) (f : Tap → Tap) (hs : State.Kept pq s) : State.Kept pq (State.onTap s f) := hs

theorem State.free_kept (s : State) (hs : State.Kept pq s) : KeptSnd pq (State.free s) := by
  unfold State.free
  repeat' with_reducible first | assumption | apply kept_putSome | fail_if_no_progress (apply kept_upd) | apply keptFst_mk | apply keptSnd_mk

theorem State.emit_kept (s : State) (e : OutEv) (hs : State.Kept pq s) : State.Kept pq (State.emit s e) := hs

theorem State.poke_kept (s : State) (a : Nat) (bs : List Byte) (hs : State.Kept pq s) : State.Kept pq (State.poke s a bs) := by exact ⟨State.poke_wf s a bs hs.1, hs.2⟩

theorem State.pokeNat_kept (s : State) (a n v : Nat) (hs : State.Kept pq s) : State.Kept pq (State.pokeNat s a n v) := by
  unfold State.pokeNat
  repeat' with_reducible first | assumption | apply State.poke_kept

theorem State.poisonWords_kept (s : State) (ws : List Nat) (hs : State.Kept pq s) : State.Kept pq (State.poisonWords s ws) := hs

theorem State.onFunc_kept (s : State) (f : Nat) (g : PFunc → PFunc) (hs : State.Kept pq s) : State.Kept pq (State.onFunc s f g) := by
  unfold State.onFunc
  repeat' with_reducible first | assumption | apply State.onPcie_kept

theorem State.raise_kept (s : State) (f vec : Nat) (hs : State.Kept pq s) : State.Kept pq (State.raise s f vec) := by
  unfold State.raise
  repeat' with_reducible first | assumption | apply State.emit_kept | apply State.onFunc_kept | apply kept_ite | apply keptOpt_some | intro _

theorem State.raisePending_kept (s : State) (f : Nat) (hs : State.Kept pq s) : State.Kept pq (State.raisePending s f) := by
  unfold State.raisePending
  repeat' with_reducible first | assumption | apply State.raise_kept | apply kept_foldl | apply keptOpt_some | intro _

theorem State.hostPost_kept (s : State) (f a : Nat) (bs : List Byte) (poisoned store : Bool) (hs : State.Kept pq s) : State.Kept pq (State.hostPost s f a bs poisoned store) := by
  unfold State.hostPost
  repeat' with_reducible first | assumption | apply State.emit_kept | apply kept_foldl | apply kept_ite | apply keptOpt_some | intro _

theorem State.hostAsk_kept (s : State) (f a n : Nat) (fetch : Bool) (hs : State.Kept pq s) : State.Kept pq (State.hostAsk s f a n fetch) := by
  unfold State.hostAsk
  repeat' with_reducible first | assumption | apply State.emit_kept | apply kept_foldl | apply keptOpt_some | intro _

theorem State.writeAddr_kept (s : State) (f : Nat) (a : Addr) (bs : List Byte) (hs : State.Kept pq s) : State.Kept pq (State.writeAddr s f a bs) := by
  unfold State.writeAddr
  repeat' with_reducible first | assumption | apply State.poke_kept | apply State.hostPost_kept | apply keptOpt_some | intro _ | split | dsimp only

theorem State.ringEntry_kept (s : State) (ring : Addr) (bs : List Byte) (hs : State.Kept pq s) : State.Kept pq (State.ringEntry s ring bs) := by
  unfold State.ringEntry
  repeat' with_reducible first | assumption | apply State.onTrunk_kept | apply State.writeAddr_kept

theorem State.deliverRecord_kept (s : State) (need : Nat) (bs : List Byte) (hs : State.Kept pq s) : State.Kept pq (State.deliverRecord s need bs) := by
  unfold State.deliverRecord
  repeat' with_reducible first | assumption | apply State.onTrunk_kept | apply State.raise_kept | apply State.ringEntry_kept | apply kept_foldl | apply kept_ite | apply keptOpt_some | intro _ | split

theorem State.recordAlert_kept (s : State) (k : RKind) (sev : Nat) (hs : State.Kept pq s) : State.Kept pq (State.recordAlert s k sev) := by
  unfold State.recordAlert
  repeat' with_reducible first | assumption | apply State.alert_kept | intro _ | split

theorem State.recordGo_kept (s : State) (k : RKind) (unit : Word) (i : RecInfo) (reps : BitVec 16) (rest : List Spacing) (hs : State.Kept pq s) : State.Kept pq (State.record.go s k unit i reps rest) := by
  unfold State.record.go
  repeat' (first | with_reducible assumption | with_reducible apply State.onTrunk_kept | with_reducible apply State.deliverRecord_kept | with_reducible apply State.recordAlert_kept | with_reducible apply kept_foldl | with_reducible apply kept_ite | fail_if_no_progress (with_reducible apply kept_upd) | intro _ | split | dsimp only)

theorem State.record_kept (s : State) (k : RKind) (unit : Word) (i : RecInfo) (hs : State.Kept pq s) : State.Kept pq (State.record s k unit i) := by
  unfold State.record
  repeat' (first | with_reducible assumption | with_reducible apply State.recordGo_kept | with_reducible apply State.onTrunk_kept | with_reducible apply kept_ite | split | intro _ | dsimp only)

theorem State.reportUe_kept (s : State) (a : Nat) (hs : State.Kept pq s) : State.Kept pq (State.reportUe s a) := by
  unfold State.reportUe
  repeat' with_reducible first | assumption | apply State.onStand_kept | apply State.record_kept

theorem State.hbmWrite_kept (s : State) (a : Nat) (bs : List Byte) (hs : State.Kept pq s) : State.Kept pq (State.hbmWrite s a bs) := by
  unfold State.hbmWrite
  repeat' with_reducible first | assumption | apply State.poke_kept | apply State.reportUe_kept | apply kept_foldl | apply keptOpt_some | intro _

theorem State.storeWrite_kept (s : State) (w : WriteReq) (hs : State.Kept pq s) : State.Kept pq (State.storeWrite s w) := by
  unfold State.storeWrite
  repeat' with_reducible first | assumption | apply State.onStore_kept | apply kept_ite | apply keptOpt_some | intro _

theorem State.storeRec_kept (s : State) (key : Nat) (p : Payload) (who : Requester) (hs : State.Kept pq s) : State.Kept pq (State.storeRec s key p who) := by
  unfold State.storeRec
  repeat' with_reducible first | assumption | apply State.record_kept | apply State.storeWrite_kept

theorem State.onPort_kept (s : State) (p : Nat) (f : Port → Port) (hs : State.Kept pq s) : State.Kept pq (State.onPort s p f) := by
  unfold State.onPort
  repeat' with_reducible first | assumption | apply State.onAel_kept

theorem State.onLink_kept (s : State) (p : Nat) (sideB : Bool) (f : Link → Link) (hs : State.Kept pq s) : State.Kept pq (State.onLink s p sideB f) := by
  unfold State.onLink
  repeat' with_reducible first | assumption | apply State.onPort_kept

theorem State.emitFlit_kept (s : State) (p : Nat) (sideB : Bool) (f : SentFlit) (hs : State.Kept pq s) : State.Kept pq (State.emitFlit s p sideB f) := by
  unfold State.emitFlit
  repeat' with_reducible first | assumption | apply State.emit_kept | apply keptOpt_some | intro _

theorem State.sendSeq_kept (s : State) (p : Nat) (sideB : Bool) (body : FlitBody) (hs : State.Kept pq s) : State.Kept pq (State.sendSeq s p sideB body) := by
  unfold State.sendSeq
  repeat' with_reducible first | assumption | apply State.onLink_kept | apply State.emitFlit_kept | apply keptOpt_some | intro _ | split | dsimp only

theorem State.flitSend_kept (s : State) (p : Nat) (sideB : Bool) (x : Nat × FlitBody) (hs : State.Kept pq s) : State.Kept pq (State.flitSend s p sideB x) := by
  unfold State.flitSend
  repeat' with_reducible first | assumption | apply State.onLink_kept | apply State.sendSeq_kept | apply kept_ite | apply keptOpt_some | intro _

theorem State.drainLink_kept (s : State) (p : Nat) (sideB : Bool) (hs : State.Kept pq s) : State.Kept pq (State.drainLink s p sideB) := by
  unfold State.drainLink
  repeat' with_reducible first | assumption | apply State.onLink_kept | apply State.flitSend_kept | apply kept_foldl | apply kept_ite | apply keptOpt_some | intro _

theorem State.portSend_kept (s : State) (p : Nat) (sideB : Bool) (m : AelMsg) (hs : State.Kept pq s) : State.Kept pq (State.portSend s p sideB m) := by
  unfold State.portSend
  repeat' with_reducible first | assumption | apply State.onLink_kept | apply State.drainLink_kept | apply kept_ite | apply keptOpt_some | intro _

theorem State.returnOwed_kept (s : State) (p : Nat) (sideB : Bool) (hs : State.Kept pq s) : State.Kept pq (State.returnOwed s p sideB) := by
  unfold State.returnOwed
  repeat' with_reducible first | assumption | apply State.sendSeq_kept | apply kept_foldl | apply kept_ite | apply keptOpt_some | intro _

theorem State.sendUp_kept (s : State) (m : AelMsg) (hs : State.Kept pq s) : State.Kept pq (State.sendUp s m) := by
  unfold State.sendUp
  repeat' with_reducible first | assumption | apply State.portSend_kept | apply keptOpt_some | intro _ | split | dsimp only

theorem State.sendTo_kept (s : State) (dev : Nat) (m : AelMsg) (hs : State.Kept pq s) : State.Kept pq (State.sendTo s dev m) := by
  unfold State.sendTo
  repeat' with_reducible first | assumption | apply State.portSend_kept | apply kept_ite | apply keptOpt_some | intro _ | split | dsimp only

theorem State.sendAll_kept (s : State) (m : AelMsg) (hs : State.Kept pq s) : State.Kept pq (State.sendAll s m) := by
  unfold State.sendAll
  repeat' with_reducible first | assumption | apply State.portSend_kept | apply kept_foldl | apply keptOpt_some | intro _

theorem State.onArmed_kept (s : State) (e : Nat) (f : Armed → Armed) (hs : State.Kept pq s) : State.Kept pq (State.onArmed s e f) := by
  unfold State.onArmed
  repeat' with_reducible first | assumption | apply State.onAel_kept | intro _ | split

theorem State.onRun_kept (s : State) (e : Nat) (f : CollRun → CollRun) (hs : State.Kept pq s) : State.Kept pq (State.onRun s e f) := by
  unfold State.onRun
  repeat' with_reducible first | assumption | apply State.onArmed_kept

theorem State.sendHalves_kept (s : State) (idx : Nat) (e : CollEnt) (d : List Byte) (hs : State.Kept pq s) : State.Kept pq (State.sendHalves s idx e d) := by
  unfold State.sendHalves
  repeat' with_reducible first | assumption | apply State.portSend_kept | apply kept_foldl | apply kept_ite | apply keptOpt_some | intro _

theorem State.failRunHere_kept (s : State) (idx : Nat) (status : Byte) (dev stand : Nat) (hs : State.Kept pq s) : State.Kept pq (State.failRunHere s idx status dev stand) := by
  unfold State.failRunHere
  repeat' with_reducible first | assumption | apply State.onAel_kept | apply State.onArmed_kept | apply kept_ite | apply keptOpt_some | intro _ | split | dsimp only

theorem State.endEverywhere_kept (s : State) (idx : Nat) (status : Byte) (dev stand : Nat) (hs : State.Kept pq s) : State.Kept pq (State.endEverywhere s idx status dev stand) := by
  unfold State.endEverywhere
  repeat' with_reducible first | assumption | apply State.sendAll_kept | apply State.failRunHere_kept

theorem State.applyNotice_kept (s : State) (dev stand reason : Nat) (inc : BitVec 16) (hs : State.Kept pq s) : State.Kept pq (State.applyNotice s dev stand reason inc) := by
  unfold State.applyNotice
  repeat' with_reducible first | assumption | apply State.reset_kept | apply State.onAel_kept | apply State.failRunHere_kept | apply State.endEverywhere_kept | apply kept_foldl | apply kept_ite | apply keptOpt_some | intro _

theorem State.broadcastNotice_kept (s : State) (dev stand reason : Nat) (inc : BitVec 16) (hs : State.Kept pq s) : State.Kept pq (State.broadcastNotice s dev stand reason inc) := by
  unfold State.broadcastNotice
  repeat' with_reducible first | assumption | apply State.sendAll_kept | apply State.applyNotice_kept

theorem State.resetPoint_kept (s : State) (stand : Nat) (warm : Bool) (hs : State.Kept pq s) : State.Kept pq (State.resetPoint s stand warm) := by
  unfold State.resetPoint
  repeat' with_reducible first | assumption | apply State.onAel_kept | apply State.sendUp_kept | apply State.failRunHere_kept | apply State.broadcastNotice_kept | apply kept_foldl | apply kept_ite | apply keptOpt_some | intro _

theorem State.onQueue_kept (s : State) (q : Nat) (f : QRun → QRun) (hs : State.Kept pq s) : State.Kept pq (State.onQueue s q f) := by
  unfold State.onQueue
  repeat' with_reducible first | assumption | apply State.onQue_kept

theorem State.writeBack_kept (s : State) (q : Nat) (hs : State.Kept pq s) : State.Kept pq (State.writeBack s q) := by
  unfold State.writeBack
  repeat' with_reducible first | assumption | apply State.poke_kept

theorem State.haltQueue_kept (s : State) (q : Nat) (cause : Nat) (hs : State.Kept pq s) : State.Kept pq (State.haltQueue s q cause) := by
  unfold State.haltQueue
  repeat' with_reducible first | assumption | apply State.onQueue_kept

theorem State.queueIrq_kept (s : State) (q : Nat) (hs : State.Kept pq s) : State.Kept pq (State.queueIrq s q) := by
  unfold State.queueIrq
  repeat' with_reducible first | assumption | apply State.raise_kept | apply State.onQueue_kept

theorem State.complete_kept (s : State) (q : Nat) (c : Compl) (hs : State.Kept pq s) : State.Kept pq (State.complete s q c) := by
  unfold State.complete
  repeat' with_reducible first | assumption | apply State.onStand_kept | apply State.writeAddr_kept | apply State.onQueue_kept | apply State.queueIrq_kept | apply kept_ite | apply keptOpt_some | intro _

theorem State.evictOne_kept (s : State) (i : Nat) (hs : State.Kept pq s) : State.Kept pq (State.evictOne s i) := by
  unfold State.evictOne
  repeat' with_reducible first | assumption | apply State.free_kept | apply State.onQueue_kept | apply State.writeBack_kept | intro _ | split | dsimp only

theorem State.touchQueue_kept (s : State) (q : Nat) (hs : State.Kept pq s) : State.Kept pq (State.touchQueue s q) := by
  unfold State.touchQueue
  repeat' with_reducible first | assumption | apply State.onStand_kept | apply State.onQue_kept | apply State.onQueue_kept | apply State.evictOne_kept | apply kept_ite | apply keptOpt_some | intro _

theorem State.dropMgmt_kept (s : State) (hs : State.Kept pq s) : State.Kept pq (State.dropMgmt s) := by
  unfold State.dropMgmt
  repeat' with_reducible first | assumption | apply State.onStore_kept | apply State.onMgmt_kept

theorem State.onSyncQueues_kept (s : State) (f : QRun → QRun) (hs : State.Kept pq s) : State.Kept pq (State.onSyncQueues s f) := by
  unfold State.onSyncQueues
  repeat' with_reducible first | assumption | apply State.onQue_kept

theorem State.syncEdge_kept (s : State) (hs : State.Kept pq s) : State.Kept pq (State.syncEdge s) := by
  unfold State.syncEdge
  repeat' with_reducible first | assumption | apply State.onSyncQueues_kept

theorem State.deliverEdge_kept (s : State) (hs : State.Kept pq s) : State.Kept pq (State.deliverEdge s) := by
  unfold State.deliverEdge
  repeat' with_reducible first | assumption | apply State.onBud_kept | apply State.syncEdge_kept | apply kept_ite | apply keptOpt_some | intro _

theorem State.beginWake_kept (s : State) (code : Nat) (hs : State.Kept pq s) : State.Kept pq (State.beginWake s code) := by
  unfold State.beginWake
  repeat' with_reducible first | assumption | apply State.onBud_kept

theorem State.signalPme_kept (s : State) (e : OutEv) (hs : State.Kept pq s) : State.Kept pq (State.signalPme s e) := by
  unfold State.signalPme
  repeat' with_reducible first | assumption | apply State.onPcie_kept | apply State.emit_kept | apply kept_ite | apply keptOpt_some | intro _

theorem State.wakeEvent_kept (s : State) (k : WakeKind) (hs : State.Kept pq s) : State.Kept pq (State.wakeEvent s k) := by
  unfold State.wakeEvent
  repeat' with_reducible first | assumption | apply State.onBud_kept | apply State.beginWake_kept | apply State.signalPme_kept | apply kept_ite | apply keptOpt_some | intro _ | split

theorem State.abortEntry_kept (s : State) (reason : Nat) (unit : Word) (hs : State.Kept pq s) : State.Kept pq (State.abortEntry s reason unit) := by
  unfold State.abortEntry
  repeat' with_reducible first | assumption | apply State.onBud_kept | apply State.record_kept | apply State.deliverEdge_kept | apply kept_ite | apply kept_putSome | fail_if_no_progress (apply kept_upd) | apply keptOpt_some | intro _

theorem State.askHead_kept (s : State) (q : Nat) (hs : State.Kept pq s) : State.Kept pq (State.askHead s q) := by
  unfold State.askHead
  repeat' with_reducible first | assumption | apply State.hostAsk_kept | apply State.onQueue_kept | apply kept_ite | apply keptOpt_some | intro _ | split | dsimp only

theorem State.askHeads_kept (s : State) (hs : State.Kept pq s) : State.Kept pq (State.askHeads s) := by
  unfold State.askHeads
  repeat' with_reducible first | assumption | apply State.askHead_kept | apply kept_foldl | apply kept_ite | apply keptOpt_some | intro _

theorem addAt_kept (s : State) (a n : Nat) (hs : State.Kept pq s) : State.Kept pq (addAt s a n) := by
  unfold addAt
  repeat' with_reducible first | assumption | apply State.pokeNat_kept

theorem State.addCounts_kept (s : State) (ctx : Nat) (c : Compl) (phases : Nat) (hs : State.Kept pq s) : State.Kept pq (State.addCounts s ctx c phases) := by
  unfold State.addCounts
  repeat' with_reducible first | assumption | apply State.pokeNat_kept | apply State.reportUe_kept | apply addAt_kept | apply kept_ite | apply keptOpt_some | intro _

theorem State.holdFault_kept (s : State) (q ctx cause bough op : Nat) (tag : DWord) (markCtx : Bool) (hs : State.Kept pq s) : State.Kept pq (State.holdFault s q ctx cause bough op tag markCtx) := by
  unfold State.holdFault
  repeat' with_reducible first | assumption | apply State.onQue_kept | apply State.poke_kept | apply State.pokeNat_kept | apply State.record_kept | apply State.haltQueue_kept | apply kept_ite | apply keptOpt_some | intro _

theorem State.completeFault_kept (s : State) (q : Nat) (hold : Bool) (c : Compl) (phases : Nat) (countable : Bool) (hs : State.Kept pq s) : State.Kept pq (State.completeFault s q hold c phases countable) := by
  unfold State.completeFault
  repeat' with_reducible first | assumption | apply State.onStand_kept | apply State.onQueue_kept | apply State.complete_kept | apply State.addCounts_kept | apply State.holdFault_kept | apply kept_ite | apply keptOpt_some | intro _

theorem State.onOp_kept (s : State) (h : Nat) (f : LongOp → LongOp) (hs : State.Kept pq s) : State.Kept pq (State.onOp s h f) := by
  unfold State.onOp
  repeat' with_reducible first | assumption | apply State.onTrunk_kept | intro _ | split

theorem State.acceptOp_kept (s : State) (q : Nat) (t : TaskRec) (sqIndex : Word) (body : OpBody) (hs : State.Kept pq s) : KeptFst pq (State.acceptOp s q t sqIndex body) := by
  unfold State.acceptOp
  repeat' with_reducible first | assumption | apply State.onTrunk_kept | apply State.onQueue_kept | apply State.complete_kept | fail_if_no_progress (apply kept_upd) | apply keptFst_mk | intro _ | split

theorem State.finishDisable_kept (s : State) (q : Nat) (hs : State.Kept pq s) : State.Kept pq (State.finishDisable s q) := by
  unfold State.finishDisable
  repeat' with_reducible first | assumption | apply State.onQue_kept | apply State.onQueue_kept | apply State.writeBack_kept

theorem State.endDisable_kept (s : State) (q : Nat) (hs : State.Kept pq s) : State.Kept pq (State.endDisable s q) := by
  unfold State.endDisable
  repeat' with_reducible first | assumption | apply State.finishDisable_kept | apply kept_ite | apply keptOpt_some | intro _

theorem State.endOp_kept (s : State) (h : Nat) (code : Nat) (hs : State.Kept pq s) : State.Kept pq (State.endOp s h code) := by
  unfold State.endOp
  repeat' with_reducible first | assumption | apply State.onTrunk_kept | apply State.onQueue_kept | apply State.complete_kept | apply State.endDisable_kept | apply keptOpt_some | intro _ | split | dsimp only

theorem State.popCommand_kept (s : State) (q : Nat) (hs : State.Kept pq s) : State.Kept pq (State.popCommand s q) := by
  unfold State.popCommand
  repeat' with_reducible first | assumption | apply State.onQue_kept | apply State.onQueue_kept

theorem State.badCommand_kept (s : State) (q : Nat) (t : TaskRec) (hs : State.Kept pq s) : State.Kept pq (State.badCommand s q t) := by
  unfold State.badCommand
  repeat' with_reducible first | assumption | apply State.complete_kept | apply State.popCommand_kept

theorem State.refuseCommand_kept (s : State) (q : Nat) (t : TaskRec) (code : Nat) (detail : Word) (hs : State.Kept pq s) : State.Kept pq (State.refuseCommand s q t code detail) := by
  unfold State.refuseCommand
  repeat' with_reducible first | assumption | apply State.complete_kept | apply State.popCommand_kept

theorem State.serveCommand_kept (s : State) (q opc n : Nat) (used : List (Nat × Nat)) (go : TaskRec → State → State) (hs : State.Kept pq s) (hgo : ∀ x0 s1, State.Kept pq s1 → State.Kept pq (go x0 s1)) : State.Kept pq (State.serveCommand s q opc n used go) := by
  unfold State.serveCommand
  repeat' with_reducible first | assumption | apply State.reportUe_kept | apply State.haltQueue_kept | apply State.askHead_kept | apply State.badCommand_kept | apply hgo | apply keptOpt_some | intro _ | split

theorem State.endDump_kept (s : State) (hs : State.Kept pq s) : State.Kept pq (State.endDump s) := by
  unfold State.endDump
  repeat' with_reducible first | assumption | apply State.onTrunk_kept | apply State.writeAddr_kept | apply State.record_kept | apply State.endOp_kept | apply kept_putSome | fail_if_no_progress (apply kept_upd) | intro _ | split

theorem State.dumpSection_kept (s : State) (status us : Nat) (payload : List Byte) (hs : State.Kept pq s) : State.Kept pq (State.dumpSection s status us payload) := by
  unfold State.dumpSection
  repeat' with_reducible first | assumption | apply State.reset_kept | apply State.onTrunk_kept | apply State.writeAddr_kept | apply State.endDump_kept | apply keptOpt_some | intro _ | split

theorem State.beginReset_kept (s : State) (i : Nat) (trigger : ResetTrigger) (hs : State.Kept pq s) : State.Kept pq (State.beginReset s i trigger) := by
  unfold State.beginReset
  repeat' with_reducible first | assumption | apply State.onStand_kept | apply State.onTrunk_kept | apply State.resetPoint_kept | apply State.dropMgmt_kept | apply State.abortEntry_kept | apply kept_ite | apply keptOpt_some | intro _

theorem State.requestReset_kept (s : State) (i : Nat) (trigger : ResetTrigger) (hs : State.Kept pq s) : State.Kept pq (State.requestReset s i trigger) := by
  unfold State.requestReset
  repeat' with_reducible first | assumption | apply State.onStand_kept | apply State.beginReset_kept | apply kept_ite | apply keptOpt_some | intro _

theorem State.ueReset_kept (s : State) (i : Nat) (hs : State.Kept pq s) : State.Kept pq (State.ueReset s i) := by
  unfold State.ueReset
  repeat' with_reducible first | assumption | apply State.onStand_kept | apply State.requestReset_kept | apply kept_ite | apply keptOpt_some | intro _

theorem State.mgrDigest_kept (s : State) (idx dev : Nat) (hs : State.Kept pq s) : State.Kept pq (State.mgrDigest s idx dev) := by
  unfold State.mgrDigest
  repeat' with_reducible first | assumption | apply State.sendAll_kept | apply State.onRun_kept | apply State.endEverywhere_kept | apply keptOpt_some | intro _ | split

theorem State.srcUe_kept (s : State) (idx : Nat) (e : CollEnt) (hs : State.Kept pq s) : State.Kept pq (State.srcUe s idx e) := by
  unfold State.srcUe
  repeat' with_reducible first | assumption | apply State.reportUe_kept | apply State.sendUp_kept | apply State.ueReset_kept | apply State.mgrDigest_kept | apply kept_ite | apply keptOpt_some | intro _

theorem State.mgrStep_kept (s : State) (idx : Nat) (hs : State.Kept pq s) : State.Kept pq (State.mgrStep s idx) := by
  unfold State.mgrStep
  repeat' with_reducible first | assumption | apply State.onAel_kept | apply State.sendTo_kept | apply State.onRun_kept | apply State.sendHalves_kept | apply State.srcUe_kept | apply kept_foldl | apply kept_ite | apply keptOpt_some | intro _ | split | dsimp only

theorem State.mgrProgress_kept (s : State) (idx : Nat) (hs : State.Kept pq s) : State.Kept pq (State.mgrProgress s idx) := by
  unfold State.mgrProgress
  repeat' with_reducible first | assumption | apply State.mgrStep_kept

theorem State.mgrAll_kept (s : State) (hs : State.Kept pq s) : State.Kept pq (State.mgrAll s) := by
  unfold State.mgrAll
  repeat' with_reducible first | assumption | apply State.mgrProgress_kept | apply kept_foldl | apply kept_ite | apply keptOpt_some | intro _

theorem State.workerSend_kept (s : State) (idx : Nat) (e : CollEnt) (hs : State.Kept pq s) : State.Kept pq (State.workerSend s idx e) := by
  unfold State.workerSend
  repeat' with_reducible first | assumption | apply State.sendUp_kept | apply State.srcUe_kept | apply kept_ite | apply keptOpt_some | intro _ | split | dsimp only

theorem State.workerWhole_kept (s : State) (idx : Nat) (hs : State.Kept pq s) : State.Kept pq (State.workerWhole s idx) := by
  unfold State.workerWhole
  repeat' with_reducible first | assumption | apply State.sendUp_kept | apply State.onRun_kept | apply kept_ite | apply keptOpt_some | intro _ | split | dsimp only

theorem State.startRun_kept (s : State) (idx : Nat) (hs : State.Kept pq s) : State.Kept pq (State.startRun s idx) := by
  unfold State.startRun
  repeat' with_reducible first | assumption | apply State.onAel_kept | apply State.pokeNat_kept | apply State.reportUe_kept | apply State.sendUp_kept | apply State.sendTo_kept | apply State.onRun_kept | apply State.failRunHere_kept | apply State.ueReset_kept | apply State.mgrProgress_kept | apply State.workerSend_kept | apply State.workerWhole_kept | apply kept_ite | apply keptOpt_some | intro _ | split | dsimp only

theorem State.onSlot_kept (s : State) (i : Nat) (f : FwSlot → FwSlot) (hs : State.Kept pq s) : State.Kept pq (State.onSlot s i f) := by
  unfold State.onSlot
  repeat' with_reducible first | assumption | apply State.onStore_kept

theorem State.answer_kept (s : State) (via : Transport) (cmd : Nat) (c : MCode) (payload : List Byte) (hs : State.Kept pq s) : State.Kept pq (State.answer s via cmd c payload) := by
  unfold State.answer
  repeat' with_reducible first | assumption | apply State.onMgmt_kept | apply State.emit_kept

theorem State.mgmtServe_kept (s : State) (r : MReq) (cmd : Nat) (go : State → State) (hs : State.Kept pq s) (hgo : ∀ s0, State.Kept pq s0 → State.Kept pq (go s0)) : State.Kept pq (State.mgmtServe s r cmd go) := by
  unfold State.mgmtServe
  repeat' with_reducible first | assumption | apply State.answer_kept | apply hgo | apply kept_ite | apply keptOpt_some | intro _

theorem State.trunkServe_kept (s : State) (r : MReq) (cmd : Nat) (inRecovery : Bool) (go : State → State) (hs : State.Kept pq s) (hgo : ∀ s0, State.Kept pq s0 → State.Kept pq (go s0)) : State.Kept pq (State.trunkServe s r cmd inRecovery go) := by
  unfold State.trunkServe
  repeat' with_reducible first | assumption | apply State.answer_kept | apply State.mgmtServe_kept | apply hgo | apply kept_ite | apply keptOpt_some | intro _

theorem State.awaitStore_kept (s : State) (via : Transport) (cmd n after : Nat) (payload : List Byte) (hs : State.Kept pq s) : State.Kept pq (State.awaitStore s via cmd n after payload) := by
  unfold State.awaitStore
  repeat' with_reducible first | assumption | apply State.onMgmt_kept | apply State.answer_kept | apply keptOpt_some | intro _

theorem State.signQuote_kept (s : State) (via : Transport) (nonce : List Byte) (hs : State.Kept pq s) : State.Kept pq (State.signQuote s via nonce) := by
  unfold State.signQuote
  repeat' with_reducible first | assumption | apply State.onTrunk_kept | apply State.record_kept | apply State.answer_kept | apply kept_ite | apply keptOpt_some | intro _

theorem State.quote_kept (s : State) (via : Transport) (nonce : List Byte) (hs : State.Kept pq s) : State.Kept pq (State.quote s via nonce) := by
  unfold State.quote
  repeat' with_reducible first | assumption | apply State.storeRec_kept | apply State.answer_kept | apply State.awaitStore_kept | apply State.signQuote_kept | apply kept_ite | apply keptOpt_some | intro _

theorem State.mgmtNext_kept (s : State) (r : MgmtReq) (hs : State.Kept pq s) : State.Kept pq (State.mgmtNext s r) := by
  unfold State.mgmtNext
  repeat' with_reducible first | assumption | apply State.onTrunk_kept | apply State.record_kept | apply State.storeWrite_kept | apply State.answer_kept | apply State.awaitStore_kept | apply State.quote_kept | intro _ | split

theorem State.mgmtTold_kept (s : State) (hs : State.Kept pq s) : State.Kept pq (State.mgmtTold s) := by
  unfold State.mgmtTold
  repeat' with_reducible first | assumption | apply State.onMgmt_kept | apply State.mgmtNext_kept | apply keptOpt_some | intro _ | split

theorem State.mgmtRefused_kept (s : State) (hs : State.Kept pq s) : State.Kept pq (State.mgmtRefused s) := by
  unfold State.mgmtRefused
  repeat' with_reducible first | assumption | apply State.onMgmt_kept | apply State.answer_kept | intro _ | split

theorem State.writeLeafRec_kept (s : State) (k : Nat) (who : Requester) (hs : State.Kept pq s) : State.Kept pq (State.writeLeafRec s k who) := by
  unfold State.writeLeafRec
  repeat' with_reducible first | assumption | apply State.record_kept | apply State.storeRec_kept

theorem State.spendCycle_kept (s : State) (k : Nat) (hs : State.Kept pq s) : State.Kept pq (State.spendCycle s k) := by
  unfold State.spendCycle
  repeat' with_reducible first | assumption | apply State.onLeaf_kept | apply State.record_kept | apply kept_ite | apply keptOpt_some | intro _

theorem State.countCycle_kept (s : State) (k : Nat) (hs : State.Kept pq s) : State.Kept pq (State.countCycle s k) := by
  unfold State.countCycle
  repeat' with_reducible first | assumption | apply State.record_kept | apply State.spendCycle_kept | apply kept_ite | apply keptOpt_some | intro _

theorem State.eraseLeaf_kept (s : State) (k : Nat) (who : Requester) (hs : State.Kept pq s) : State.Kept pq (State.eraseLeaf s k who) := by
  unfold State.eraseLeaf
  repeat' with_reducible first | assumption | apply State.onLeaf_kept | apply State.record_kept | apply State.writeLeafRec_kept | apply State.countCycle_kept | apply keptOpt_some | intro _

theorem State.commitMeas_kept (s : State) (k : Nat) (m : Meas) (slot : Nat) (hs : State.Kept pq s) : State.Kept pq (State.commitMeas s k m slot) := by
  unfold State.commitMeas
  repeat' with_reducible first | assumption | apply State.onLeaf_kept | apply State.record_kept | apply kept_ite | apply keptOpt_some | intro _

theorem State.startMeas_kept (s : State) (k : Nat) (cause : Nat) (hs : State.Kept pq s) : State.Kept pq (State.startMeas s k cause) := by
  unfold State.startMeas
  repeat' with_reducible first | assumption | apply State.onBough_kept | apply State.onLeaf_kept

theorem State.startCalib_kept (s : State) (h k : Nat) (hs : State.Kept pq s) : State.Kept pq (State.startCalib s h k) := by
  unfold State.startCalib
  repeat' with_reducible first | assumption | apply State.onBough_kept | apply State.onLeaf_kept | apply kept_ite | apply keptOpt_some | intro _ | split | dsimp only

theorem State.trigger_kept (s : State) (k cause : Nat) (hs : State.Kept pq s) : State.Kept pq (State.trigger s k cause) := by
  unfold State.trigger
  repeat' with_reducible first | assumption | apply State.onLeaf_kept | apply State.startMeas_kept | apply kept_ite | apply keptOpt_some | intro _

theorem State.endDriftBlock_kept (s : State) (k : Nat) (hs : State.Kept pq s) : State.Kept pq (State.endDriftBlock s k) := by
  unfold State.endDriftBlock
  repeat' with_reducible first | assumption | apply State.onLeaf_kept | apply State.trigger_kept | apply kept_ite | apply keptOpt_some | intro _

theorem State.trunkPhases_kept (s : State) (k : Nat) (codes : List (List Nat)) (hs : State.Kept pq s) : State.Kept pq (State.trunkPhases s k codes) := by
  unfold State.trunkPhases
  repeat' with_reducible first | assumption | apply State.onLeaf_kept | apply State.endDriftBlock_kept | apply kept_foldl | apply keptOpt_some | intro _

theorem State.calibLeaf_kept (s : State) (h k code : Nat) (hs : State.Kept pq s) : State.Kept pq (State.calibLeaf s h k code) := by
  unfold State.calibLeaf
  repeat' with_reducible first | assumption | apply State.onOp_kept | apply State.endOp_kept | apply kept_ite | apply keptOpt_some | intro _ | split

theorem State.calibEnd_kept (s : State) (k code : Nat) (hs : State.Kept pq s) : State.Kept pq (State.calibEnd s k code) := by
  unfold State.calibEnd
  repeat' with_reducible first | assumption | apply State.calibLeaf_kept | apply kept_foldl | apply keptOpt_some | intro _

theorem State.dropMeas_kept (s : State) (k code : Nat) (hs : State.Kept pq s) : State.Kept pq (State.dropMeas s k code) := by
  unfold State.dropMeas
  repeat' with_reducible first | assumption | apply State.onLeaf_kept | apply State.calibEnd_kept | apply kept_ite | apply keptOpt_some | intro _

theorem State.leaveMeas_kept (s : State) (h k : Nat) (hs : State.Kept pq s) : State.Kept pq (State.leaveMeas s h k) := by
  unfold State.leaveMeas
  repeat' with_reducible first | assumption | apply State.onLeaf_kept | apply kept_ite | apply keptOpt_some | intro _ | split | dsimp only

theorem State.calibTurn_kept (s : State) (h : Nat) (hs : State.Kept pq s) : State.Kept pq (State.calibTurn s h) := by
  unfold State.calibTurn
  repeat' with_reducible first | assumption | apply State.startCalib_kept | apply State.calibLeaf_kept | apply State.leaveMeas_kept | apply kept_foldl | apply kept_ite | apply keptOpt_some | intro _ | split | dsimp only

theorem State.suspendCalib_kept (s : State) (h k : Nat) (hs : State.Kept pq s) : State.Kept pq (State.suspendCalib s h k) := by
  unfold State.suspendCalib
  repeat' with_reducible first | assumption | apply State.onLeaf_kept | apply State.leaveMeas_kept | apply kept_ite | apply keptOpt_some | intro _ | split | dsimp only

theorem State.resumeCalib_kept (s : State) (h sel k : Nat) (hs : State.Kept pq s) : State.Kept pq (State.resumeCalib s h sel k) := by
  unfold State.resumeCalib
  repeat' with_reducible first | assumption | apply State.onLeaf_kept | apply State.leaveMeas_kept | apply kept_ite | apply keptOpt_some | intro _ | split | dsimp only

theorem State.calibAll_kept (s : State) (hs : State.Kept pq s) : State.Kept pq (State.calibAll s) := by
  unfold State.calibAll
  repeat' with_reducible first | assumption | apply State.calibTurn_kept | apply kept_foldl | apply keptOpt_some | intro _

end Sys2Proof.Machine
end

