-- ==== Sys2Proof/Laws/Kept2.lean ====
section
/-! SUPPORT. Memory and the waiting commands are kept by the operations of ProgOps, KnotOps, BoughOps, CheckOps, TwigOps, TwigRun, CambiumOps. -/

namespace Sys2Proof.Machine

variable {pq : List Instr}

theorem State.onProg_kept (s : State) (pid : Nat) (f : Prog → Prog) (hs : State.Kept pq s) : State.Kept pq (State.onProg s pid f) := by
  unfold State.onProg
  repeat' with_reducible first | assumption | apply State.onTrunk_kept | intro _ | split

theorem State.onGroup_kept (s : State) (g : Nat) (f : Group → Group) (hs : State.Kept pq s) : State.Kept pq (State.onGroup s g f) := by
  unfold State.onGroup
  repeat' with_reducible first | assumption | apply State.onTrunk_kept | intro _ | split

theorem State.onRounds_kept (s : State) (h : Nat) (f : Rounds → Rounds) (hs : State.Kept pq s) : State.Kept pq (State.onRounds s h f) := by
  unfold State.onRounds
  repeat' with_reducible first | assumption | apply State.onOp_kept

theorem State.onRunStands_kept (s : State) (h : Nat) (f : Stand → Stand) (hs : State.Kept pq s) : State.Kept pq (State.onRunStands s h f) := by
  unfold State.onRunStands
  repeat' with_reducible first | assumption | apply State.onStand_kept | apply kept_foldl | apply keptOpt_some | intro _

theorem State.endRun_kept (s : State) (h loadCode foldCode : Nat) (hs : State.Kept pq s) : State.Kept pq (State.endRun s h loadCode foldCode) := by
  unfold State.endRun
  repeat' with_reducible first | assumption | apply State.endOp_kept | apply State.onRunStands_kept

theorem State.endMember_kept (s : State) (pid code : Nat) (hs : State.Kept pq s) : State.Kept pq (State.endMember s pid code) := by
  unfold State.endMember
  repeat' with_reducible first | assumption | apply State.onBough_kept | apply State.onLeaf_kept | apply State.onTrunk_kept | apply State.endOp_kept | intro _ | split

theorem State.dropLeaf_kept (s : State) (p : Prog) (hs : State.Kept pq s) : State.Kept pq (State.dropLeaf s p) := by
  unfold State.dropLeaf
  repeat' with_reducible first | assumption | apply State.onLeaf_kept | apply State.record_kept | apply State.eraseLeaf_kept | apply keptOpt_some | intro _ | split

theorem State.dropPartners_kept (s : State) (g : Nat) (hs : State.Kept pq s) : State.Kept pq (State.dropPartners s g) := by
  unfold State.dropPartners
  repeat' with_reducible first | assumption | apply State.onTrunk_kept | apply State.endMember_kept | apply State.dropLeaf_kept | apply kept_foldl | apply keptOpt_some | intro _ | split

theorem State.failMember_kept (s : State) (pid code : Nat) (keep : Bool) (hs : State.Kept pq s) : State.Kept pq (State.failMember s pid code keep) := by
  unfold State.failMember
  repeat' with_reducible first | assumption | apply State.endRun_kept | apply State.endMember_kept | apply State.dropLeaf_kept | apply State.dropPartners_kept | intro _ | split

theorem State.failRun_kept (s : State) (h loadCode foldCode : Nat) (hs : State.Kept pq s) : KeptFst pq (State.failRun s h loadCode foldCode) := by
  unfold State.failRun
  repeat' with_reducible first | assumption | apply State.onProg_kept | apply State.onGroup_kept | apply State.onRounds_kept | apply State.endRun_kept | apply State.dropPartners_kept | apply kept_foldl | fail_if_no_progress (apply kept_upd) | apply keptFst_mk | apply keptOpt_some | intro _ | split

theorem State.issueMap_kept (s : State) (hs : State.Kept pq s) : State.Kept pq (State.issueMap s) := by
  unfold State.issueMap
  repeat' with_reducible first | assumption | apply State.storeRec_kept | apply State.failMember_kept | apply kept_foldl | apply kept_ite | apply keptOpt_some | intro _ | split

theorem State.releaseGroup_kept (s : State) (g : Nat) (hs : State.Kept pq s) : State.Kept pq (State.releaseGroup s g) := by
  unfold State.releaseGroup
  repeat' with_reducible first | assumption | apply State.onGroup_kept | apply State.issueMap_kept

theorem State.applySwap_kept (s : State) (pid : Nat) (hs : State.Kept pq s) : State.Kept pq (State.applySwap s pid) := by
  unfold State.applySwap
  repeat' with_reducible first | assumption | apply State.onLeaf_kept | apply State.endMember_kept | apply keptOpt_some | intro _ | split

theorem State.applySwaps_kept (s : State) (b : Nat) (hs : State.Kept pq s) : State.Kept pq (State.applySwaps s b) := by
  unfold State.applySwaps
  repeat' with_reducible first | assumption | apply State.applySwap_kept | apply kept_foldl | apply keptOpt_some | intro _

theorem State.endDrains_kept (s : State) (b : Nat) (hs : State.Kept pq s) : State.Kept pq (State.endDrains s b) := by
  unfold State.endDrains
  repeat' with_reducible first | assumption | apply State.onLeaf_kept | apply kept_foldl | apply kept_ite | apply keptOpt_some | intro _

theorem State.installImage_kept (s : State) (i : Nat) (c : Canopy) (addr : Nat) (hs : State.Kept pq s) : State.Kept pq (State.installImage s i c addr) := by
  unfold State.installImage
  repeat' with_reducible first | assumption | apply State.onStand_kept | apply State.onBough_kept | apply State.onLeaf_kept | apply kept_foldl | apply keptOpt_some | intro _ | split

theorem State.switchDone_kept (s : State) (h : Nat) (hs : State.Kept pq s) : State.Kept pq (State.switchDone s h) := by
  unfold State.switchDone
  repeat' with_reducible first | assumption | apply State.onStand_kept | apply State.pokeNat_kept | apply State.endOp_kept | apply State.onRunStands_kept | apply State.installImage_kept | apply kept_foldl | apply keptOpt_some | intro _ | split

theorem State.newProg_kept (s : State) (p : Prog) (hs : State.Kept pq s) : KeptFst pq (State.newProg s p) := by
  unfold State.newProg
  repeat' with_reducible first | assumption | apply State.onTrunk_kept | fail_if_no_progress (apply kept_upd) | apply keptFst_mk

theorem State.startRound_kept (s : State) (h : Nat) (hs : State.Kept pq s) : State.Kept pq (State.startRound s h) := by
  unfold State.startRound
  repeat' with_reducible first | assumption | apply State.onBough_kept | apply State.onLeaf_kept | apply State.onTrunk_kept | apply State.record_kept | apply State.onGroup_kept | apply State.onRounds_kept | apply State.onRunStands_kept | apply State.newProg_kept | apply kept_foldl | apply keptOpt_some | intro _ | split | refine kept_pair (by assumption) ?_ | refine kept_opt (by assumption) ?_ | apply kept_fst | dsimp only

theorem State.beginQuiesce_kept (s : State) (h : Nat) (hs : State.Kept pq s) : State.Kept pq (State.beginQuiesce s h) := by
  unfold State.beginQuiesce
  repeat' with_reducible first | assumption | apply State.onOp_kept | apply State.onRounds_kept | apply State.onRunStands_kept

theorem State.releaseRound_kept (s : State) (h : Nat) (hs : State.Kept pq s) : State.Kept pq (State.releaseRound s h) := by
  unfold State.releaseRound
  repeat' with_reducible first | assumption | apply State.onRounds_kept | apply State.onRunStands_kept | apply State.releaseGroup_kept | apply kept_ite | apply keptOpt_some | intro _ | split | dsimp only

theorem State.roundStaged_kept (s : State) (h : Nat) (hs : State.Kept pq s) : State.Kept pq (State.roundStaged s h) := by
  unfold State.roundStaged
  repeat' with_reducible first | assumption | apply State.beginQuiesce_kept | apply State.releaseRound_kept | apply keptOpt_some | intro _ | split

theorem State.stageMember_kept (s : State) (pid : Nat) (hs : State.Kept pq s) : State.Kept pq (State.stageMember s pid) := by
  unfold State.stageMember
  repeat' with_reducible first | assumption | apply State.onLeaf_kept | apply State.onProg_kept | apply State.releaseGroup_kept | apply State.roundStaged_kept | apply keptOpt_some | intro _ | split | dsimp only

theorem State.mapDurable_kept (s : State) (m : LeafMap) (gs : List Nat) (hs : State.Kept pq s) : State.Kept pq (State.mapDurable s m gs) := by
  unfold State.mapDurable
  repeat' with_reducible first | assumption | apply State.onLeaf_kept | apply State.onTrunk_kept | apply State.onProg_kept | apply State.onRounds_kept | apply State.issueMap_kept | apply State.applySwaps_kept | apply State.switchDone_kept | apply State.startRound_kept | apply kept_foldl | apply keptOpt_some | intro _ | split | dsimp only

theorem State.groupSignal_kept (s : State) (n : Nat) (hs : State.Kept pq s) : State.Kept pq (State.groupSignal s n) := by
  unfold State.groupSignal
  repeat' with_reducible first | assumption | apply State.releaseGroup_kept | apply kept_foldl | apply keptOpt_some | intro _

theorem State.fenceLeaf_kept (s : State) (k cause : Nat) (hs : State.Kept pq s) : State.Kept pq (State.fenceLeaf s k cause) := by
  unfold State.fenceLeaf
  repeat' with_reducible first | assumption | apply State.onLeaf_kept | apply State.record_kept | apply State.abortEntry_kept | apply State.writeLeafRec_kept | apply State.countCycle_kept | apply State.dropMeas_kept | apply State.onProg_kept | apply State.failMember_kept | apply kept_ite | apply keptOpt_some | intro _ | split | dsimp only

theorem State.fenceGroups_kept (s : State) (k mask cause : Nat) (hs : State.Kept pq s) : State.Kept pq (State.fenceGroups s k mask cause) := by
  unfold State.fenceGroups
  repeat' with_reducible first | assumption | apply State.onLeaf_kept | apply State.record_kept | apply State.writeLeafRec_kept | apply State.fenceLeaf_kept | apply kept_ite | apply keptOpt_some | intro _

theorem State.fenceColumns_kept (s : State) (k : Nat) (cols : List Nat) (cause : Nat) (hs : State.Kept pq s) : State.Kept pq (State.fenceColumns s k cols cause) := by
  unfold State.fenceColumns
  repeat' with_reducible first | assumption | apply State.onLeaf_kept | apply State.record_kept | apply State.writeLeafRec_kept | apply State.fenceGroups_kept | apply kept_foldl | apply kept_ite | apply keptOpt_some | intro _

theorem State.driveMismatch_kept (s : State) (k : Nat) (blocks : List Nat) (now : Nat) (hs : State.Kept pq s) : State.Kept pq (State.driveMismatch s k blocks now) := by
  unfold State.driveMismatch
  repeat' with_reducible first | assumption | apply State.onLeaf_kept | apply State.fenceLeaf_kept | apply kept_foldl | apply kept_ite | apply keptOpt_some | intro _ | split | dsimp only

theorem State.trunkDrive_kept (s : State) (k : Nat) (codes : List (List Nat)) (sum : Nat → Nat → Nat) (dev : Nat → Nat → Int) (hs : State.Kept pq s) : State.Kept pq (State.trunkDrive s k codes sum dev) := by
  unfold State.trunkDrive
  repeat' with_reducible first | assumption | apply State.trunkPhases_kept | apply State.driveMismatch_kept | apply issues_ok | apply issues_pure | exact issues_error | exact issues_shape | exact issues_throw | apply issues_ite | apply issues_foldlM | apply issues_bind | apply issues_map | apply kept_foldl | apply kept_ite | apply kept_nil | apply kept_putSome | fail_if_no_progress (apply kept_upd) | apply keptFst_mk | apply keptSnd_mk | apply keptFst_ite | apply keptSnd_ite | exact keptOpt_none | apply keptOpt_some | intro _ | split | refine kept_pair (by assumption) ?_ | refine kept_pair2 (by assumption) ?_ | refine kept_opt (by assumption) ?_ | apply kept_fst | apply kept_snd | dsimp only | dsimp only [id] | exact issues_any

theorem State.measPhases_kept (s : State) (k : Nat) (o : MeasObs) (hs : State.Kept pq s) : State.Kept pq (State.measPhases s k o) := by
  unfold State.measPhases
  repeat' with_reducible first | assumption | apply State.trunkDrive_kept | apply keptOpt_some | intro _

theorem State.startDiag_kept (s : State) (k : Nat) (t : DiagTrig) (hs : State.Kept pq s) : State.Kept pq (State.startDiag s k t) := by
  unfold State.startDiag
  repeat' with_reducible first | assumption | apply State.onLeaf_kept | apply kept_ite | apply keptOpt_some | intro _

theorem State.selfCheck_kept (s : State) (k : Nat) (codes : List Nat) (mon : SMap Int) (hs : State.Kept pq s) : State.Kept pq (State.selfCheck s k codes mon) := by
  unfold State.selfCheck
  repeat' with_reducible first | assumption | apply State.onLeaf_kept | apply State.record_kept | apply State.fenceGroups_kept | apply State.trunkDrive_kept | apply State.startDiag_kept | apply kept_ite | apply keptOpt_some | intro _

theorem State.onKnot_kept (s : State) (n : Nat) (f : Knot → Knot) (hs : State.Kept pq s) : State.Kept pq (State.onKnot s n f) := by
  unfold State.onKnot
  repeat' with_reducible first | assumption | apply State.onQue_kept | apply kept_ite | apply keptOpt_some | intro _

theorem State.giveBough_kept (s : State) (b n : Nat) (hs : State.Kept pq s) : State.Kept pq (State.giveBough s b n) := by
  unfold State.giveBough
  repeat' with_reducible first | assumption | apply State.onBough_kept

theorem State.serveKnot_kept (s : State) (n : Nat) (hs : State.Kept pq s) : State.Kept pq (State.serveKnot s n) := by
  unfold State.serveKnot
  repeat' with_reducible first | assumption | apply State.onQueue_kept | apply State.startRun_kept | apply State.onKnot_kept | apply State.giveBough_kept | apply kept_foldl | apply keptOpt_some | intro _ | split | dsimp only

theorem State.signalKnot_kept (s : State) (n : Nat) (hs : State.Kept pq s) : State.Kept pq (State.signalKnot s n) := by
  unfold State.signalKnot
  repeat' with_reducible first | assumption | apply State.groupSignal_kept | apply State.onKnot_kept | apply State.serveKnot_kept | apply kept_ite | apply keptOpt_some | intro _

theorem State.waitKnot_kept (s : State) (n : Nat) (w : KWaiter) (hs : State.Kept pq s) : State.Kept pq (State.waitKnot s n w) := by
  unfold State.waitKnot
  repeat' with_reducible first | assumption | apply State.onKnot_kept | apply State.serveKnot_kept

theorem State.enlist_kept (s : State) (q : Nat) (hs : State.Kept pq s) : State.Kept pq (State.enlist s q) := by
  unfold State.enlist
  repeat' with_reducible first | assumption | apply State.onQueue_kept | apply State.waitKnot_kept | apply kept_ite | apply keptOpt_some | intro _

theorem State.armWait_kept (s : State) (e : Nat) (hs : State.Kept pq s) : State.Kept pq (State.armWait s e) := by
  unfold State.armWait
  repeat' with_reducible first | assumption | apply State.startRun_kept | apply State.trigger_kept | apply State.waitKnot_kept | apply keptOpt_some | intro _ | split

theorem State.failWaiters_kept (s : State) (n : Nat) (hs : State.Kept pq s) : State.Kept pq (State.failWaiters s n) := by
  unfold State.failWaiters
  repeat' with_reducible first | assumption | apply State.onBough_kept | apply State.onQueue_kept | apply State.onKnot_kept | apply kept_foldl | apply keptOpt_some | intro _ | split

theorem State.unwaitBough_kept (s : State) (b : Nat) (hs : State.Kept pq s) : State.Kept pq (State.unwaitBough s b) := by
  unfold State.unwaitBough
  repeat' with_reducible first | assumption | apply State.onQue_kept

theorem State.drainContribs_kept (s : State) (b : Nat) (hs : State.Kept pq s) : State.Kept pq (State.drainContribs s b) := by
  unfold State.drainContribs
  repeat' with_reducible first | assumption | apply State.onBough_kept | apply kept_foldl | apply keptOpt_some | intro _ | split

theorem State.askRead_kept (s : State) (b : Nat) (r : PendRead) (hs : State.Kept pq s) : State.Kept pq (State.askRead s b r) := by
  unfold State.askRead
  repeat' with_reducible first | assumption | apply State.onBough_kept | apply State.hostAsk_kept | apply kept_ite | apply keptOpt_some | intro _ | split | dsimp only

theorem State.pumpBough_kept (s : State) (b : Nat) (hs : State.Kept pq s) : State.Kept pq (State.pumpBough s b) := by
  unfold State.pumpBough
  repeat' with_reducible first | assumption | apply State.askRead_kept | apply kept_foldl | apply keptOpt_some | intro _

theorem State.pumpReads_kept (s : State) (hs : State.Kept pq s) : State.Kept pq (State.pumpReads s) := by
  unfold State.pumpReads
  repeat' with_reducible first | assumption | apply State.pumpBough_kept | apply kept_foldl | apply keptOpt_some | intro _

theorem State.undoFrom_kept (s : State) (b i : Nat) (hs : State.Kept pq s) : State.Kept pq (State.undoFrom s b i) := by
  unfold State.undoFrom
  repeat' with_reducible first | assumption | apply State.onBough_kept | apply State.onLeaf_kept | apply State.onKnot_kept | apply State.serveKnot_kept | apply State.unwaitBough_kept | apply State.pumpReads_kept | apply kept_foldl | apply kept_ite | apply keptOpt_some | intro _

theorem State.squashFrom_kept (s : State) (b i : Nat) (hs : State.Kept pq s) : State.Kept pq (State.squashFrom s b i) := by
  unfold State.squashFrom
  repeat' with_reducible first | assumption | apply State.onBough_kept | apply State.undoFrom_kept

theorem State.faultTask_kept (s : State) (b : Nat) (c : Cause) (detail : Word) (hs : State.Kept pq s) : State.Kept pq (State.faultTask s b c detail) := by
  unfold State.faultTask
  repeat' with_reducible first | assumption | apply State.onBough_kept

theorem State.faultTaskId_kept (s : State) (b id : Nat) (c : Cause) (detail : Word) (hs : State.Kept pq s) : State.Kept pq (State.faultTaskId s b id c detail) := by
  unfold State.faultTaskId
  repeat' with_reducible first | assumption | apply State.onBough_kept | apply State.faultTask_kept | apply keptOpt_some | intro _ | split | dsimp only

theorem State.fenceRecord_kept (s : State) (hs : State.Kept pq s) : State.Kept pq (State.fenceRecord s) := by
  unfold State.fenceRecord
  repeat' with_reducible first | assumption | apply State.storeRec_kept

theorem State.fenceStand_kept (s : State) (i cause : Nat) (hbm : Bool) (hs : State.Kept pq s) : State.Kept pq (State.fenceStand s i cause hbm) := by
  unfold State.fenceStand
  repeat' with_reducible first | assumption | apply State.onStand_kept | apply State.record_kept | apply State.abortEntry_kept | apply State.fenceRecord_kept | apply kept_ite | apply keptOpt_some | intro _

theorem State.fenceBough_kept (s : State) (b cause : Nat) (hs : State.Kept pq s) : State.Kept pq (State.fenceBough s b cause) := by
  unfold State.fenceBough
  repeat' with_reducible first | assumption | apply State.onBough_kept | apply State.record_kept | apply State.abortEntry_kept | apply State.undoFrom_kept | apply State.fenceRecord_kept | apply State.fenceStand_kept | apply kept_ite | apply keptOpt_some | intro _

theorem State.finishVector_kept (s : State) (bad : Bool) (b k : Nat) (j : PhaseJob) (p : Nat → Rat) (sig : Rat) (codes : List (List Byte)) (digits : List Byte) (hs : State.Kept pq s) : State.Kept pq (State.finishVector s bad b k j p sig codes digits) := by
  unfold State.finishVector
  repeat' with_reducible first | assumption | apply State.onBough_kept | apply State.drainContribs_kept | intro _ | split

theorem State.beginTask_kept (s : State) (b : Nat) (hs : State.Kept pq s) : State.Kept pq (State.beginTask s b) := by
  unfold State.beginTask
  repeat' with_reducible first | assumption | apply State.onBough_kept | apply State.applySwaps_kept | apply keptOpt_some | intro _ | split | dsimp only

theorem State.latchBounds_kept (s : State) (b : Nat) (c : Canopy) (p : Program) (hs : State.Kept pq s) : IssueGives (State.Kept pq) (State.latchBounds s b c p) := by
  unfold State.latchBounds
  repeat' with_reducible first | assumption | apply State.onBough_kept | apply issues_ok | apply issues_pure | apply issues_ite | apply issues_foldlM | apply issues_bind | apply keptOpt_some | intro _ | dsimp only [id] | exact issues_any

theorem State.latchExtents_kept (s : State) (b dIdx : Nat) (d : Desc) (hs : State.Kept pq s) : IssueGives (KeptFst pq) (State.latchExtents s b dIdx d) := by
  unfold State.latchExtents
  repeat' with_reducible first | assumption | apply State.onBough_kept | exact kept_of_snd (by assumption) | apply issues_ok | apply issues_pure | apply issues_foldlM | apply issues_bind | fail_if_no_progress (apply kept_upd) | apply keptFst_mk | apply keptOpt_some | intro _ | split | dsimp only [id] | exact issues_any

theorem State.iterate_kept (s : State) (b dIdx : Nat) (d : Desc) (shared : Nat) (hs : State.Kept pq s) : IssueGives (KeptFst pq) (State.iterate s b dIdx d shared) := by
  unfold State.iterate
  repeat' with_reducible first | assumption | apply State.latchExtents_kept | exact kept_of_fst (by assumption) | apply issues_ok | apply issues_pure | apply issues_foldlM | apply issues_bind | fail_if_no_progress (apply kept_upd) | apply keptFst_mk | apply keptOpt_some | intro _ | dsimp only [id] | exact issues_any

theorem State.settleIssue_kept (s : State) (b : Nat) (r : Issue State) (hs : State.Kept pq s) (hr : IssueGives (State.Kept pq) r) : State.Kept pq (State.settleIssue s b r) := by
  unfold State.settleIssue
  split
  · with_reducible apply State.onBough_kept
    exact hr.all _ rfl
  all_goals repeat' (first | with_reducible assumption | with_reducible apply kept_foldl | with_reducible apply State.onBough_kept | with_reducible apply State.startMeas_kept | with_reducible apply State.faultTask_kept | intro _)

theorem State.present_kept (s : State) (b : Nat) (hs : State.Kept pq s) : IssueGives (fun r => ∀ p, r = some p → State.Kept pq p.1) (State.present s b) := by
  unfold State.present
  repeat' (first | with_reducible apply issues_ite | with_reducible apply issues_pure | (intro p e; cases e; done) | with_reducible refine issues_bind (State.latchBounds_kept _ _ _ _ (State.beginTask_kept _ _ hs)) ?_ | (intro p e; cases e; with_reducible apply State.onBough_kept; assumption) | split | intro _ | dsimp only)

theorem State.advance_kept (s : State) (b : Nat) (hs : State.Kept pq s) : State.Kept pq (State.advance s b) := by
  unfold State.advance
  repeat' with_reducible first | assumption | apply State.onBough_kept

theorem State.prepared_kept (s : State) (b : Nat) (hs : State.Kept pq s) : State.Kept pq (State.prepared s b) := by
  unfold State.prepared
  repeat' with_reducible first | assumption | apply State.beginTask_kept | apply kept_ite | apply keptOpt_some | intro _

theorem State.issueIf_kept (s : State) (b : Nat) (want : OpWord → Bool) (go : State → Task → Canopy → OpWord → Issue State) (hs : State.Kept pq s) (hgo : ∀ s t c w, State.Kept pq s → IssueGives (State.Kept pq) (go s t c w)) : State.Kept pq (State.issueIf s b want go) := by
  have hp := State.present_kept s b hs
  unfold State.issueIf
  split
  · exact State.settleIssue_kept _ _ _ (State.prepared_kept _ _ hs) issues_error
  · assumption
  · rename_i s1 t c w e
    have h1 := hp.all _ e _ rfl
    with_reducible apply kept_ite
    · intro _; exact State.settleIssue_kept _ _ _ h1 (hgo _ _ _ _ h1)
    · intro _; assumption

theorem State.charge_kept (s : State) (b n : Nat) (hs : State.Kept pq s) : IssueGives (State.Kept pq) (State.charge s b n) := by
  unfold State.charge
  repeat' with_reducible first | assumption | apply State.onBough_kept | exact kept_of_snd (by assumption) | apply issues_ok | apply issues_pure | exact issues_error | exact issues_shape | apply issues_ite | apply keptOpt_some | intro _

theorem State.commitCount_kept (s : State) (b n : Nat) (run : State) (hs : State.Kept pq s) (hrun : State.Kept pq run) : IssueGives (State.Kept pq) (State.commitCount s b n run) := by
  unfold State.commitCount
  repeat' with_reducible first | assumption | apply State.onBough_kept | apply State.charge_kept | apply issues_ok | apply issues_pure | exact issues_error | exact issues_shape | exact issues_throw | apply issues_ite | apply issues_foldlM | apply issues_bind | apply issues_map | apply kept_foldl | apply kept_ite | apply kept_nil | apply kept_putSome | fail_if_no_progress (apply kept_upd) | apply keptFst_mk | apply keptSnd_mk | apply keptFst_ite | apply keptSnd_ite | exact keptOpt_none | apply keptOpt_some | intro _ | split | refine kept_pair (by assumption) ?_ | refine kept_pair2 (by assumption) ?_ | refine kept_opt (by assumption) ?_ | apply kept_fst | apply kept_snd | dsimp only | dsimp only [id] | exact issues_any

theorem State.commitLines_kept (s : State) (b : Nat) (run : State) (hs : State.Kept pq s) (hrun : State.Kept pq run) : IssueGives (State.Kept pq) (State.commitLines s b run) := by
  unfold State.commitLines
  repeat' with_reducible first | assumption | apply State.commitCount_kept | apply issues_ok | apply issues_pure | exact issues_error | exact issues_shape | exact issues_throw | apply issues_ite | apply issues_foldlM | apply issues_bind | apply issues_map | apply kept_foldl | apply kept_ite | apply kept_nil | apply kept_putSome | fail_if_no_progress (apply kept_upd) | apply keptFst_mk | apply keptSnd_mk | apply keptFst_ite | apply keptSnd_ite | exact keptOpt_none | apply keptOpt_some | intro _ | split | refine kept_pair (by assumption) ?_ | refine kept_pair2 (by assumption) ?_ | refine kept_opt (by assumption) ?_ | apply kept_fst | apply kept_snd | dsimp only | dsimp only [id] | exact issues_any

theorem opFetch_kept (b : Nat) (s : State) (t : Task) (c : Canopy) (w : OpWord) (hs : State.Kept pq s) : IssueGives (State.Kept pq) (opFetch b s t c w) := by
  unfold opFetch
  repeat' with_reducible first | assumption | apply State.onBough_kept | apply State.pumpBough_kept | apply State.iterate_kept | apply State.advance_kept | apply issues_ok | apply issues_pure | exact issues_error | exact issues_shape | exact issues_throw | apply issues_ite | apply issues_foldlM | apply issues_bind | apply issues_map | apply kept_foldl | apply kept_ite | apply kept_nil | apply kept_putSome | fail_if_no_progress (apply kept_upd) | apply keptFst_mk | apply keptSnd_mk | apply keptFst_ite | apply keptSnd_ite | exact keptOpt_none | apply keptOpt_some | intro _ | split | refine kept_pair (by assumption) ?_ | refine kept_pair2 (by assumption) ?_ | refine kept_opt (by assumption) ?_ | apply kept_fst | apply kept_snd | dsimp only | dsimp only [id] | exact issues_any

theorem storeBody_kept (b mark : Nat) (t : Task) (n elem : Nat) (s : State) (i : Iter) (hs : State.Kept pq s) : IssueGives (State.Kept pq) (storeBody b mark t n elem s i) := by
  unfold storeBody
  repeat' with_reducible first | assumption | apply State.onBough_kept | apply issues_ok | apply issues_pure | exact issues_error | exact issues_shape | exact issues_throw | apply issues_ite | apply issues_foldlM | apply issues_bind | apply issues_map | apply kept_foldl | apply kept_ite | apply kept_nil | apply kept_putSome | fail_if_no_progress (apply kept_upd) | apply keptFst_mk | apply keptSnd_mk | apply keptFst_ite | apply keptSnd_ite | exact keptOpt_none | apply keptOpt_some | intro _ | split | refine kept_pair (by assumption) ?_ | refine kept_pair2 (by assumption) ?_ | refine kept_opt (by assumption) ?_ | apply kept_fst | apply kept_snd | dsimp only | dsimp only [id] | exact issues_any

theorem State.storeRun_kept (s : State) (b : Nat) (t : Task) (c : Canopy) (w : OpWord) (its : List Iter) (hs : State.Kept pq s) : IssueGives (State.Kept pq) (State.storeRun s b t c w its) := by
  unfold State.storeRun
  repeat' with_reducible first | assumption | apply State.onBough_kept | apply storeBody_kept | apply issues_ok | apply issues_pure | exact issues_error | exact issues_shape | exact issues_throw | apply issues_ite | apply issues_foldlM | apply issues_bind | apply issues_map | apply kept_foldl | apply kept_ite | apply kept_nil | apply kept_putSome | fail_if_no_progress (apply kept_upd) | apply keptFst_mk | apply keptSnd_mk | apply keptFst_ite | apply keptSnd_ite | exact keptOpt_none | apply keptOpt_some | intro _ | split | refine kept_pair (by assumption) ?_ | refine kept_pair2 (by assumption) ?_ | refine kept_opt (by assumption) ?_ | apply kept_fst | apply kept_snd | dsimp only | dsimp only [id] | exact issues_any

theorem opStore_kept (b : Nat) (s : State) (t : Task) (c : Canopy) (w : OpWord) (hs : State.Kept pq s) : IssueGives (State.Kept pq) (opStore b s t c w) := by
  unfold opStore
  repeat' with_reducible first | assumption | apply State.onBough_kept | apply State.iterate_kept | apply State.advance_kept | apply State.commitLines_kept | apply State.storeRun_kept | apply issues_ok | apply issues_pure | exact issues_error | exact issues_shape | exact issues_throw | apply issues_ite | apply issues_foldlM | apply issues_bind | apply issues_map | apply kept_foldl | apply kept_ite | apply kept_nil | apply kept_putSome | fail_if_no_progress (apply kept_upd) | apply keptFst_mk | apply keptSnd_mk | apply keptFst_ite | apply keptSnd_ite | exact keptOpt_none | apply keptOpt_some | intro _ | split | refine kept_pair (by assumption) ?_ | refine kept_pair2 (by assumption) ?_ | refine kept_opt (by assumption) ?_ | apply kept_fst | apply kept_snd | dsimp only | dsimp only [id] | exact issues_any

theorem State.atTile_kept (s : State) (b : Nat) (hs : State.Kept pq s) : State.Kept pq (State.atTile s b) := by
  unfold State.atTile
  repeat' with_reducible first | assumption | apply State.onBough_kept | apply State.onLeaf_kept | apply kept_foldl | apply kept_ite | apply keptOpt_some | intro _

theorem State.driveEpoch_kept (s : State) (b : Nat) (t : Task) (parts : List DrivePart) (footprint : Nat) (bad : Option Nat) (hs : State.Kept pq s) : State.Kept pq (State.driveEpoch s b t parts footprint bad) := by
  unfold State.driveEpoch
  repeat' with_reducible first | assumption | apply State.onBough_kept | apply kept_foldl | apply keptOpt_some | intro _ | split | dsimp only

theorem State.drivePhases_kept (s : State) (b : Nat) (p : DrivePart) (hs : State.Kept pq s) : State.Kept pq (State.drivePhases s b p) := by
  unfold State.drivePhases
  repeat' with_reducible first | assumption | apply State.onBough_kept | apply State.onLeaf_kept | apply State.finishVector_kept | apply keptOpt_some | intro _ | split

theorem State.driveGo_kept (s : State) (b : Nat) (t : Task) (parts : List DrivePart) (missing : List Nat) (values : List (Nat × Nat)) (footprint : Nat) (hs : State.Kept pq s) : State.Kept pq (State.driveGo s b t parts missing values footprint) := by
  unfold State.driveGo
  repeat' with_reducible first | assumption | apply State.onBough_kept | apply State.onLeaf_kept | apply State.drainContribs_kept | apply State.driveEpoch_kept | apply State.drivePhases_kept | apply kept_foldl | apply keptOpt_some | intro _ | split | dsimp only

theorem opDrive_kept (b : Nat) (s : State) (t : Task) (c : Canopy) (w : OpWord) (hs : State.Kept pq s) : IssueGives (State.Kept pq) (opDrive b s t c w) := by
  unfold opDrive
  repeat' with_reducible first | assumption | apply State.iterate_kept | apply State.advance_kept | apply State.atTile_kept | apply State.driveGo_kept | exact kept_of_fst (by assumption) | apply issues_ok | apply issues_pure | exact issues_error | exact issues_shape | apply issues_ite | apply issues_bind | intro _ | split | dsimp only [id] | exact issues_any

theorem opXsend_kept (b : Nat) (s : State) (t : Task) (c : Canopy) (w : OpWord) (hs : State.Kept pq s) : IssueGives (State.Kept pq) (opXsend b s t c w) := by
  unfold opXsend
  repeat' with_reducible first | assumption | apply State.onBough_kept | apply State.iterate_kept | apply State.advance_kept | apply State.charge_kept | exact kept_of_fst (by assumption) | apply issues_ok | apply issues_pure | exact issues_error | exact issues_shape | apply issues_foldlM | apply issues_bind | apply keptOpt_some | intro _ | split | dsimp only [id] | exact issues_any

theorem State.tryXrecv_kept (s : State) (b : Nat) (hs : State.Kept pq s) : State.Kept pq (State.tryXrecv s b) := by
  unfold State.tryXrecv
  repeat' with_reducible first | assumption | apply State.onBough_kept | apply kept_ite | apply keptOpt_some | intro _ | split | dsimp only

theorem State.failXrecv_kept (s : State) (b : Nat) (hs : State.Kept pq s) : State.Kept pq (State.failXrecv s b) := by
  unfold State.failXrecv
  repeat' with_reducible first | assumption | apply State.onBough_kept | apply keptOpt_some | intro _ | split | dsimp only

theorem State.xrecvOpen_kept (s : State) (b : Nat) (t : Task) (values : List (Nat × Nat)) (on : Option (Nat × Nat)) (lines : List Nat) (hs : State.Kept pq s) : State.Kept pq (State.xrecvOpen s b t values on lines) := by
  unfold State.xrecvOpen
  repeat' with_reducible first | assumption | apply State.onBough_kept | apply keptOpt_some | intro _ | split | dsimp only

theorem opXrecv_kept (b : Nat) (s : State) (t : Task) (c : Canopy) (w : OpWord) (hs : State.Kept pq s) : IssueGives (State.Kept pq) (opXrecv b s t c w) := by
  unfold opXrecv
  repeat' with_reducible first | assumption | apply State.iterate_kept | apply State.advance_kept | apply State.tryXrecv_kept | apply State.failXrecv_kept | apply State.xrecvOpen_kept | apply issues_ok | apply issues_pure | exact issues_error | exact issues_shape | exact issues_throw | apply issues_ite | apply issues_foldlM | apply issues_bind | apply issues_map | apply kept_foldl | apply kept_ite | apply kept_nil | apply kept_putSome | fail_if_no_progress (apply kept_upd) | apply keptFst_mk | apply keptSnd_mk | apply keptFst_ite | apply keptSnd_ite | exact keptOpt_none | apply keptOpt_some | intro _ | split | refine kept_pair (by assumption) ?_ | refine kept_pair2 (by assumption) ?_ | refine kept_opt (by assumption) ?_ | apply kept_fst | apply kept_snd | dsimp only | dsimp only [id] | exact issues_any

theorem opKsig_kept (b : Nat) (s : State) (t : Task) (_c : Canopy) (w : OpWord) (hs : State.Kept pq s) : IssueGives (State.Kept pq) (opKsig b s t _c w) := by
  unfold opKsig
  repeat' with_reducible first | assumption | apply State.onBough_kept | apply State.advance_kept | apply State.charge_kept | apply issues_ok | apply issues_pure | apply issues_foldlM | apply issues_bind | apply keptOpt_some | intro _

theorem opKwait_kept (b : Nat) (s : State) (t : Task) (_c : Canopy) (w : OpWord) (hs : State.Kept pq s) : IssueGives (State.Kept pq) (opKwait b s t _c w) := by
  unfold opKwait
  repeat' with_reducible first | assumption | apply State.onBough_kept | apply State.waitKnot_kept | apply State.advance_kept | apply issues_ok | apply issues_pure | apply issues_foldlM | apply issues_bind | apply keptOpt_some | intro _ | split | dsimp only [id] | exact issues_any

theorem opLoop_kept (b : Nat) (s : State) (_t : Task) (c : Canopy) (w : OpWord) (hs : State.Kept pq s) : IssueGives (State.Kept pq) (opLoop b s _t c w) := by
  unfold opLoop
  repeat' with_reducible first | assumption | apply State.onBough_kept | exact kept_of_snd (by assumption) | apply issues_ok

theorem opLbnd_kept (b : Nat) (s : State) (_t : Task) (_c : Canopy) (_w : OpWord) (hs : State.Kept pq s) : IssueGives (State.Kept pq) (opLbnd b s _t _c _w) := by
  unfold opLbnd
  repeat' with_reducible first | assumption | apply State.onBough_kept | apply State.applySwaps_kept | apply State.advance_kept | exact kept_of_snd (by assumption) | apply issues_ok | apply kept_ite | apply keptOpt_some | intro _

theorem opEnd_kept (b : Nat) (s : State) (t : Task) (_c : Canopy) (_w : OpWord) (hs : State.Kept pq s) : IssueGives (State.Kept pq) (opEnd b s t _c _w) := by
  unfold opEnd
  repeat' with_reducible first | assumption | apply State.onBough_kept | apply State.applySwaps_kept | apply State.charge_kept | apply issues_ok | apply issues_pure | apply issues_foldlM | apply issues_bind | apply keptOpt_some | intro _

theorem State.putWritten_kept (s : State) (b mark t tensor : Nat) (w : Written) (amax : Rat) (real : Bool) (poison : Option Nat) (hs : State.Kept pq s) : State.Kept pq (State.putWritten s b mark t tensor w amax real poison) := by
  unfold State.putWritten
  repeat' with_reducible first | assumption | apply State.onBough_kept | apply State.raise_kept | apply keptOpt_some | intro _ | split | dsimp only

theorem State.localRun_kept (s : State) (b : Nat) (c : Canopy) (w : OpWord) (its : List Iter) (body : LocalBody) (hs : State.Kept pq s) (hb : LocalBody.Kept pq body) : IssueGives (State.Kept pq) (State.localRun s b c w its body) :=
  issues_foldlM _ _ _ (State.onBough_kept _ _ _ hs) fun s i h => hb _ _ _ _ _ _ h

theorem State.localOp_kept (s : State) (b : Nat) (c : Canopy) (w : OpWord) (body : LocalBody) (hs : State.Kept pq s) (hb : LocalBody.Kept pq body) : IssueGives (State.Kept pq) (State.localOp s b c w body) := by
  unfold State.localOp
  refine issues_bind (State.iterate_kept _ _ _ _ _ hs) ?_
  intro r hr
  refine issues_bind (State.localRun_kept _ _ _ _ _ _ hr hb) ?_
  intro s2 h2
  refine issues_bind (State.commitLines_kept _ _ _ hr h2) ?_
  intro s3 h3
  exact issues_pure (State.advance_kept _ _ h3)

theorem State.accFault_kept (s : State) (b l : Nat) (hs : State.Kept pq s) : State.Kept pq (State.accFault s b l) := by
  unfold State.accFault
  repeat' with_reducible first | assumption | apply State.onBough_kept

theorem combine3Body_kept (b : Nat) (t : Task) : LocalBody.Kept pq (combine3Body b t) := by
  intro s i d n m it hs
  unfold combine3Body
  repeat' with_reducible first | assumption | apply State.onBough_kept | apply State.putWritten_kept | apply State.accFault_kept | apply State.noteAt_kept | apply issues_ok | apply issues_pure | exact issues_error | exact issues_shape | apply issues_ite | apply issues_foldlM | apply issues_bind | apply kept_foldl | intro _ | split | dsimp only | dsimp only [id] | exact issues_any

theorem opCombine3_kept (b : Nat) (s : State) (t : Task) (c : Canopy) (w : OpWord) (hs : State.Kept pq s) : IssueGives (State.Kept pq) (opCombine3 b s t c w) := State.localOp_kept _ _ _ _ _ hs (combine3Body_kept b t)

theorem rescaleBody_kept (b : Nat) (t : Task) (c : Canopy) (w : OpWord) : LocalBody.Kept pq (rescaleBody b t c w) := by
  intro s i d n m it hs
  unfold rescaleBody
  repeat' with_reducible first | assumption | apply State.onBough_kept | apply State.putWritten_kept | apply State.accFault_kept | apply State.noteAt_kept | apply issues_ok | apply issues_pure | exact issues_error | exact issues_shape | apply issues_ite | apply issues_foldlM | apply issues_bind | apply kept_foldl | intro _ | split | dsimp only | dsimp only [id] | exact issues_any

theorem opRescale_kept (b : Nat) (s : State) (t : Task) (c : Canopy) (w : OpWord) (hs : State.Kept pq s) : IssueGives (State.Kept pq) (opRescale b s t c w) := State.localOp_kept _ _ _ _ _ hs (rescaleBody_kept b t c w)

theorem tableBody_kept (b : Nat) (t : Task) (c : Canopy) (w : OpWord) : LocalBody.Kept pq (tableBody b t c w) := by
  intro s i d n m it hs
  unfold tableBody
  repeat' with_reducible first | assumption | apply State.onBough_kept | apply State.putWritten_kept | apply State.accFault_kept | apply State.noteAt_kept | apply issues_ok | apply issues_pure | exact issues_error | exact issues_shape | apply issues_ite | apply issues_foldlM | apply issues_bind | apply kept_foldl | intro _ | split | dsimp only | dsimp only [id] | exact issues_any

theorem opTable_kept (b : Nat) (s : State) (t : Task) (c : Canopy) (w : OpWord) (hs : State.Kept pq s) : IssueGives (State.Kept pq) (opTable b s t c w) := State.localOp_kept _ _ _ _ _ hs (tableBody_kept b t c w)

theorem cvtBody_kept (b : Nat) (t : Task) (c : Canopy) : LocalBody.Kept pq (cvtBody b t c) := by
  intro s i d n m it hs
  unfold cvtBody
  repeat' with_reducible first | assumption | apply State.onBough_kept | apply State.putWritten_kept | apply State.accFault_kept | apply State.noteAt_kept | apply issues_ok | apply issues_pure | exact issues_error | exact issues_shape | apply issues_ite | apply issues_foldlM | apply issues_bind | apply kept_foldl | intro _ | split | dsimp only | dsimp only [id] | exact issues_any

theorem opCvt_kept (b : Nat) (s : State) (t : Task) (c : Canopy) (w : OpWord) (hs : State.Kept pq s) : IssueGives (State.Kept pq) (opCvt b s t c w) := State.localOp_kept _ _ _ _ _ hs (cvtBody_kept b t c)

theorem vecBody_kept (b : Nat) (t : Task) (c : Canopy) (w : OpWord) : LocalBody.Kept pq (vecBody b t c w) := by
  intro s i d n m it h
  refine issues_bind issues_any fun a _ => ?_
  dsimp only
  repeat' (first | exact issues_pure (State.putWritten_kept _ _ _ _ _ _ _ _ _ (State.onBough_kept _ _ _ h)) | refine issues_bind issues_any fun _ _ => ?_ | split)

theorem opVec_kept (b : Nat) (s : State) (t : Task) (c : Canopy) (w : OpWord) (hs : State.Kept pq s) : IssueGives (State.Kept pq) (opVec b s t c w) := State.localOp_kept _ _ _ _ _ hs (vecBody_kept b t c w)

theorem State.noteAt_kept (s : State) (b : Nat) (a : Addr) (n : Nat) (hs : State.Kept pq s) : State.Kept pq (State.noteAt s b a n) := by
  unfold State.noteAt
  repeat' with_reducible first | assumption | apply State.onBough_kept | apply State.reportUe_kept | intro _ | split

theorem coneBody_kept (b : Nat) (t : Task) (c : Canopy) (w : OpWord) : LocalBody.Kept pq (coneBody b t c w) := by
  intro s i d n m it hs
  unfold coneBody
  repeat' with_reducible first | assumption | apply State.onBough_kept | apply State.putWritten_kept | apply State.accFault_kept | apply State.noteAt_kept | apply issues_ok | apply issues_pure | exact issues_error | exact issues_shape | apply issues_ite | apply issues_foldlM | apply issues_bind | apply kept_foldl | intro _ | split | dsimp only | dsimp only [id] | exact issues_any

theorem opCone_kept (b : Nat) (s : State) (t : Task) (c : Canopy) (w : OpWord) (hs : State.Kept pq s) : IssueGives (State.Kept pq) (opCone b s t c w) := by
  refine issues_bind (State.localOp_kept _ _ _ _ _ hs (coneBody_kept b t c w)) fun r h => issues_pure ?_
  split
  · exact State.faultTask_kept _ _ _ _ h
  · exact h

end Sys2Proof.Machine
end

