-- ==== Sys2Proof/Laws/Kept3.lean ====
section
/-! SUPPORT. Memory and the waiting commands are kept by the operations of ScaleOps, GraftOps, IssueOps, Twig, Cambium, Grafts, LeafRun, LeafCmds, RetireOps, TaskOps, Queues. -/

namespace Sys2Proof.Machine

variable {pq : List Instr}

theorem State.initBlock_kept (s : State) (c : Canopy) (base count : Nat) (hs : State.Kept pq s) : State.Kept pq (State.initBlock s c base count) := by
  unfold State.initBlock
  repeat' with_reducible first | assumption | apply State.hbmWrite_kept

theorem State.latch_kept (s : State) (c : Canopy) (t : Task) (hs : State.Kept pq s) : KeptFst pq (State.latch s c t) := by
  unfold State.latch
  repeat' with_reducible first | assumption | apply State.initBlock_kept | fail_if_no_progress (apply kept_upd) | apply keptFst_mk | intro _ | split | apply kept_fst

theorem State.pushRing_kept (s : State) (c : Canopy) (base i : Nat) (a : Word) (hs : State.Kept pq s) : KeptFst pq (State.pushRing s c base i a) := by
  unfold State.pushRing
  repeat' with_reducible first | assumption | apply State.poke_kept | apply State.pokeNat_kept | fail_if_no_progress (apply kept_upd) | apply keptFst_mk | intro _ | split | apply kept_fst

theorem State.addSat_kept (s : State) (a n : Nat) (hs : State.Kept pq s) : State.Kept pq (State.addSat s a n) := by
  unfold State.addSat
  repeat' with_reducible first | assumption | apply State.pokeNat_kept

theorem State.updateScales_kept (s : State) (c : Canopy) (t : Task) (hs : State.Kept pq s) : State.Kept pq (State.updateScales s c t) := by
  have k : ∀ (s : State) (a n v : Nat), State.Kept pq s → State.Kept pq (s.pokeNat a n v) := fun _ _ _ _ h => State.pokeNat_kept _ _ _ _ h
  have r : ∀ (l : List (Nat × TStats)) (x : State × List Nat), KeptFst pq x → KeptFst pq (l.foldl (fun (acc : State × List Nat) (p : Nat × TStats) =>
      let (s2, on) := acc.1.pushRing c t.scaleHist p.1 (t.amaxReal c p.1 p.2).1
      (s2, if on then acc.2 ++ [p.1] else acc.2)) x) := by
    intro l
    induction l with
    | nil => exact fun _ h => h
    | cons p l ih => exact fun x h => ih _ (State.pushRing_kept _ _ _ _ _ h)
  unfold State.updateScales
  split
  · exact hs
  · split
    · exact State.reportUe_kept _ _ hs
    · have h1 := r (t.stats.filter fun p => decide (p.1 < c.quants.length)) (s, []) hs
      refine k _ _ _ _ (kept_foldl _ _ _ (kept_foldl _ _ _ h1 ?_) ?_)
      · intro s i hs
        dsimp only
        repeat' (first | with_reducible exact hs | with_reducible exact k _ _ _ _ (k _ _ _ _ (k _ _ _ _ hs)) | split)
      · intro s i hs
        dsimp only
        repeat' (first | with_reducible exact hs | with_reducible apply State.addSat_kept | with_reducible apply k | split)

theorem State.graftBad_kept (s : State) (b : Nat) (g : Graft) (bad : List Nat) (hs : State.Kept pq s) : State.Kept pq (State.graftBad s b g bad) := by
  unfold State.graftBad
  repeat' with_reducible first | assumption | apply State.onBough_kept | apply State.faultTask_kept | intro _ | split

theorem State.noteRanges_kept (s : State) (b : Nat) (sap hbm : List (Nat × Nat)) (hs : State.Kept pq s) : State.Kept pq (State.noteRanges s b sap hbm) := by
  unfold State.noteRanges
  repeat' with_reducible first | assumption | apply State.onBough_kept | apply State.noteAt_kept | apply kept_foldl | apply keptOpt_some | intro _

theorem State.graftApplyRun_kept (s : State) (b : Nat) (t : Task) (q : GraftCtx) (hs : State.Kept pq s) : KeptFst pq (State.graftApplyRun s b t q) := by
  unfold State.graftApplyRun
  repeat' with_reducible first | assumption | apply State.onBough_kept | apply State.noteRanges_kept | apply issues_ok | apply issues_pure | exact issues_error | exact issues_shape | exact issues_throw | apply issues_ite | apply issues_foldlM | apply issues_bind | apply issues_map | apply kept_foldl | apply kept_ite | apply kept_nil | apply kept_putSome | fail_if_no_progress (apply kept_upd) | apply keptFst_mk | apply keptSnd_mk | apply keptFst_ite | apply keptSnd_ite | exact keptOpt_none | apply keptOpt_some | intro _ | split | refine kept_pair (by assumption) ?_ | refine kept_pair2 (by assumption) ?_ | refine kept_opt (by assumption) ?_ | apply kept_fst | apply kept_snd | dsimp only | dsimp only [id] | exact issues_any

theorem opGraftApply_kept (b : Nat) (s : State) (t : Task) (c : Canopy) (w : OpWord) (hs : State.Kept pq s) : IssueGives (State.Kept pq) (opGraftApply b s t c w) := by
  unfold opGraftApply
  repeat' with_reducible first | assumption | apply State.advance_kept | apply State.commitCount_kept | apply State.graftBad_kept | apply State.graftApplyRun_kept | apply issues_ok | apply issues_pure | exact issues_error | exact issues_shape | exact issues_throw | apply issues_ite | apply issues_foldlM | apply issues_bind | apply issues_map | apply kept_foldl | apply kept_ite | apply kept_nil | apply kept_putSome | fail_if_no_progress (apply kept_upd) | apply keptFst_mk | apply keptSnd_mk | apply keptFst_ite | apply keptSnd_ite | exact keptOpt_none | apply keptOpt_some | intro _ | split | refine kept_pair (by assumption) ?_ | refine kept_pair2 (by assumption) ?_ | refine kept_opt (by assumption) ?_ | apply kept_fst | apply kept_snd | dsimp only | dsimp only [id] | exact issues_any

theorem State.graftGradRun_kept (s : State) (b : Nat) (t : Task) (q : GraftCtx) (hs : State.Kept pq s) : KeptFst pq (State.graftGradRun s b t q) := by
  unfold State.graftGradRun
  repeat' with_reducible first | assumption | apply State.onBough_kept | apply State.noteRanges_kept | apply issues_ok | apply issues_pure | exact issues_error | exact issues_shape | exact issues_throw | apply issues_ite | apply issues_foldlM | apply issues_bind | apply issues_map | apply kept_foldl | apply kept_ite | apply kept_nil | apply kept_putSome | fail_if_no_progress (apply kept_upd) | apply keptFst_mk | apply keptSnd_mk | apply keptFst_ite | apply keptSnd_ite | exact keptOpt_none | apply keptOpt_some | intro _ | split | refine kept_pair (by assumption) ?_ | refine kept_pair2 (by assumption) ?_ | refine kept_opt (by assumption) ?_ | apply kept_fst | apply kept_snd | dsimp only | dsimp only [id] | exact issues_any

theorem opGraftGrad_kept (b : Nat) (s : State) (t : Task) (c : Canopy) (w : OpWord) (hs : State.Kept pq s) : IssueGives (State.Kept pq) (opGraftGrad b s t c w) := by
  unfold opGraftGrad
  repeat' with_reducible first | assumption | apply State.advance_kept | apply State.commitLines_kept | apply State.graftBad_kept | apply State.graftGradRun_kept | apply issues_ok | apply issues_pure | exact issues_error | exact issues_shape | exact issues_throw | apply issues_ite | apply issues_foldlM | apply issues_bind | apply issues_map | apply kept_foldl | apply kept_ite | apply kept_nil | apply kept_putSome | fail_if_no_progress (apply kept_upd) | apply keptFst_mk | apply keptSnd_mk | apply keptFst_ite | apply keptSnd_ite | exact keptOpt_none | apply keptOpt_some | intro _ | split | refine kept_pair (by assumption) ?_ | refine kept_pair2 (by assumption) ?_ | refine kept_opt (by assumption) ?_ | apply kept_fst | apply kept_snd | dsimp only | dsimp only [id] | exact issues_any

theorem State.flushGrafts_kept (s : State) (t : Task) (hs : State.Kept pq s) : State.Kept pq (State.flushGrafts s t) := by
  unfold State.flushGrafts
  repeat' with_reducible first | assumption | apply State.hbmWrite_kept | apply kept_foldl | apply kept_ite | apply keptOpt_some | intro _ | split | dsimp only

theorem State.graftStepRun_kept (s : State) (b : Nat) (t : Task) (q : GraftCtx) (hs : State.Kept pq s) : KeptFst pq (State.graftStepRun s b t q) := by
  unfold State.graftStepRun
  repeat' with_reducible first | assumption | apply State.onBough_kept | apply State.noteRanges_kept | apply issues_ok | apply issues_pure | exact issues_error | exact issues_shape | exact issues_throw | apply issues_ite | apply issues_foldlM | apply issues_bind | apply issues_map | apply kept_foldl | apply kept_ite | apply kept_nil | apply kept_putSome | fail_if_no_progress (apply kept_upd) | apply keptFst_mk | apply keptSnd_mk | apply keptFst_ite | apply keptSnd_ite | exact keptOpt_none | apply keptOpt_some | intro _ | split | refine kept_pair (by assumption) ?_ | refine kept_pair2 (by assumption) ?_ | refine kept_opt (by assumption) ?_ | apply kept_fst | apply kept_snd | dsimp only | dsimp only [id] | exact issues_any

theorem opGraftStep_kept (b : Nat) (s : State) (t : Task) (c : Canopy) (w : OpWord) (hs : State.Kept pq s) : IssueGives (State.Kept pq) (opGraftStep b s t c w) := by
  unfold opGraftStep
  repeat' with_reducible first | assumption | apply State.faultTask_kept | apply State.advance_kept | apply State.commitLines_kept | apply State.graftBad_kept | apply State.graftStepRun_kept | apply issues_ok | apply issues_pure | exact issues_error | exact issues_shape | exact issues_throw | apply issues_ite | apply issues_foldlM | apply issues_bind | apply issues_map | apply kept_foldl | apply kept_ite | apply kept_nil | apply kept_putSome | fail_if_no_progress (apply kept_upd) | apply keptFst_mk | apply keptSnd_mk | apply keptFst_ite | apply keptSnd_ite | exact keptOpt_none | apply keptOpt_some | intro _ | split | refine kept_pair (by assumption) ?_ | refine kept_pair2 (by assumption) ?_ | refine kept_opt (by assumption) ?_ | apply kept_fst | apply kept_snd | dsimp only | dsimp only [id] | exact issues_any

theorem opNop_kept (b : Nat) (s : State) (_t : Task) (_c : Canopy) (_w : OpWord) (hs : State.Kept pq s) : IssueGives (State.Kept pq) (opNop b s _t _c _w) := by
  unfold opNop
  repeat' with_reducible first | assumption | apply State.advance_kept | exact kept_of_snd (by assumption) | apply issues_ok

theorem opAny_kept (b : Nat) (s : State) (t : Task) (c : Canopy) (w : OpWord) (hs : State.Kept pq s) : IssueGives (State.Kept pq) (opAny b s t c w) := by
  unfold opAny
  repeat' with_reducible first | assumption | apply opFetch_kept | apply opStore_kept | apply opDrive_kept | apply opXsend_kept | apply opXrecv_kept | apply opKsig_kept | apply opKwait_kept | apply opLoop_kept | apply opLbnd_kept | apply opEnd_kept | apply opCombine3_kept | apply opRescale_kept | apply opTable_kept | apply opCvt_kept | apply opVec_kept | apply opCone_kept | apply opGraftApply_kept | apply opGraftGrad_kept | apply opGraftStep_kept | apply opNop_kept | intro _ | split

theorem State.issueAny_kept (s : State) (b : Nat) (hs : State.Kept pq s) : State.Kept pq (State.issueAny s b) := by
  unfold State.issueAny
  repeat' with_reducible first | assumption | apply State.issueIf_kept | apply opAny_kept

theorem execNop_kept (b : Nat) (s : State) (hs : State.Kept pq s) (t' : State) (h' : execNop b s = .next t') : State.Kept pq t' := by
  unfold execNop at h'
  cases h'
  repeat' with_reducible first | assumption | apply State.issueIf_kept | apply opNop_kept

theorem execFetch_kept (b : Nat) (s : State) (hs : State.Kept pq s) (t' : State) (h' : execFetch b s = .next t') : State.Kept pq t' := by
  unfold execFetch at h'
  cases h'
  repeat' with_reducible first | assumption | apply State.issueIf_kept | apply opFetch_kept

theorem execStore_kept (b : Nat) (s : State) (hs : State.Kept pq s) (t' : State) (h' : execStore b s = .next t') : State.Kept pq t' := by
  unfold execStore at h'
  cases h'
  repeat' with_reducible first | assumption | apply State.issueIf_kept | apply opStore_kept

theorem execDrive_kept (b : Nat) (s : State) (hs : State.Kept pq s) (t' : State) (h' : execDrive b s = .next t') : State.Kept pq t' := by
  unfold execDrive at h'
  cases h'
  repeat' with_reducible first | assumption | apply State.issueIf_kept | apply opDrive_kept

theorem execXsend_kept (b : Nat) (s : State) (hs : State.Kept pq s) (t' : State) (h' : execXsend b s = .next t') : State.Kept pq t' := by
  unfold execXsend at h'
  cases h'
  repeat' with_reducible first | assumption | apply State.issueIf_kept | apply opXsend_kept

theorem execXrecv_kept (b : Nat) (s : State) (hs : State.Kept pq s) (t' : State) (h' : execXrecv b s = .next t') : State.Kept pq t' := by
  unfold execXrecv at h'
  cases h'
  repeat' with_reducible first | assumption | apply State.issueIf_kept | apply opXrecv_kept

theorem execKsig_kept (b : Nat) (s : State) (hs : State.Kept pq s) (t' : State) (h' : execKsig b s = .next t') : State.Kept pq t' := by
  unfold execKsig at h'
  cases h'
  repeat' with_reducible first | assumption | apply State.issueIf_kept | apply opKsig_kept

theorem execKwait_kept (b : Nat) (s : State) (hs : State.Kept pq s) (t' : State) (h' : execKwait b s = .next t') : State.Kept pq t' := by
  unfold execKwait at h'
  cases h'
  repeat' with_reducible first | assumption | apply State.issueIf_kept | apply opKwait_kept

theorem execLoop_kept (b : Nat) (s : State) (hs : State.Kept pq s) (t' : State) (h' : execLoop b s = .next t') : State.Kept pq t' := by
  unfold execLoop at h'
  cases h'
  repeat' with_reducible first | assumption | apply State.issueIf_kept | apply opLoop_kept

theorem execLbnd_kept (b : Nat) (s : State) (hs : State.Kept pq s) (t' : State) (h' : execLbnd b s = .next t') : State.Kept pq t' := by
  unfold execLbnd at h'
  cases h'
  repeat' with_reducible first | assumption | apply State.issueIf_kept | apply opLbnd_kept

theorem execEndOp_kept (b : Nat) (s : State) (hs : State.Kept pq s) (t' : State) (h' : execEndOp b s = .next t') : State.Kept pq t' := by
  unfold execEndOp at h'
  cases h'
  repeat' with_reducible first | assumption | apply State.issueIf_kept | apply opEnd_kept

theorem execCombine3_kept (b : Nat) (s : State) (hs : State.Kept pq s) (t' : State) (h' : execCombine3 b s = .next t') : State.Kept pq t' := by
  unfold execCombine3 at h'
  cases h'
  repeat' with_reducible first | assumption | apply State.issueIf_kept | apply opCombine3_kept

theorem execRescale_kept (b : Nat) (s : State) (hs : State.Kept pq s) (t' : State) (h' : execRescale b s = .next t') : State.Kept pq t' := by
  unfold execRescale at h'
  cases h'
  repeat' with_reducible first | assumption | apply State.issueIf_kept | apply opRescale_kept

theorem execTable_kept (b : Nat) (s : State) (hs : State.Kept pq s) (t' : State) (h' : execTable b s = .next t') : State.Kept pq t' := by
  unfold execTable at h'
  cases h'
  repeat' with_reducible first | assumption | apply State.issueIf_kept | apply opTable_kept

theorem execCvt_kept (b : Nat) (s : State) (hs : State.Kept pq s) (t' : State) (h' : execCvt b s = .next t') : State.Kept pq t' := by
  unfold execCvt at h'
  cases h'
  repeat' with_reducible first | assumption | apply State.issueIf_kept | apply opCvt_kept

theorem execAdd_kept (b : Nat) (s : State) (hs : State.Kept pq s) (t' : State) (h' : execAdd b s = .next t') : State.Kept pq t' := by
  unfold execAdd at h'
  cases h'
  repeat' with_reducible first | assumption | apply State.issueIf_kept | apply opVec_kept

theorem execSub_kept (b : Nat) (s : State) (hs : State.Kept pq s) (t' : State) (h' : execSub b s = .next t') : State.Kept pq t' := by
  unfold execSub at h'
  cases h'
  repeat' with_reducible first | assumption | apply State.issueIf_kept | apply opVec_kept

theorem execMul_kept (b : Nat) (s : State) (hs : State.Kept pq s) (t' : State) (h' : execMul b s = .next t') : State.Kept pq t' := by
  unfold execMul at h'
  cases h'
  repeat' with_reducible first | assumption | apply State.issueIf_kept | apply opVec_kept

theorem execFma_kept (b : Nat) (s : State) (hs : State.Kept pq s) (t' : State) (h' : execFma b s = .next t') : State.Kept pq t' := by
  unfold execFma at h'
  cases h'
  repeat' with_reducible first | assumption | apply State.issueIf_kept | apply opVec_kept

theorem execVmin_kept (b : Nat) (s : State) (hs : State.Kept pq s) (t' : State) (h' : execVmin b s = .next t') : State.Kept pq t' := by
  unfold execVmin at h'
  cases h'
  repeat' with_reducible first | assumption | apply State.issueIf_kept | apply opVec_kept

theorem execVmax_kept (b : Nat) (s : State) (hs : State.Kept pq s) (t' : State) (h' : execVmax b s = .next t') : State.Kept pq t' := by
  unfold execVmax at h'
  cases h'
  repeat' with_reducible first | assumption | apply State.issueIf_kept | apply opVec_kept

theorem execVabs_kept (b : Nat) (s : State) (hs : State.Kept pq s) (t' : State) (h' : execVabs b s = .next t') : State.Kept pq t' := by
  unfold execVabs at h'
  cases h'
  repeat' with_reducible first | assumption | apply State.issueIf_kept | apply opVec_kept

theorem execSelect_kept (b : Nat) (s : State) (hs : State.Kept pq s) (t' : State) (h' : execSelect b s = .next t') : State.Kept pq t' := by
  unfold execSelect at h'
  cases h'
  repeat' with_reducible first | assumption | apply State.issueIf_kept | apply opVec_kept

theorem execShl_kept (b : Nat) (s : State) (hs : State.Kept pq s) (t' : State) (h' : execShl b s = .next t') : State.Kept pq t' := by
  unfold execShl at h'
  cases h'
  repeat' with_reducible first | assumption | apply State.issueIf_kept | apply opVec_kept

theorem execShr_kept (b : Nat) (s : State) (hs : State.Kept pq s) (t' : State) (h' : execShr b s = .next t') : State.Kept pq t' := by
  unfold execShr at h'
  cases h'
  repeat' with_reducible first | assumption | apply State.issueIf_kept | apply opVec_kept

theorem execCmul_kept (b : Nat) (s : State) (hs : State.Kept pq s) (t' : State) (h' : execCmul b s = .next t') : State.Kept pq t' := by
  unfold execCmul at h'
  cases h'
  repeat' with_reducible first | assumption | apply State.issueIf_kept | apply opVec_kept

theorem execCmulc_kept (b : Nat) (s : State) (hs : State.Kept pq s) (t' : State) (h' : execCmulc b s = .next t') : State.Kept pq t' := by
  unfold execCmulc at h'
  cases h'
  repeat' with_reducible first | assumption | apply State.issueIf_kept | apply opVec_kept

theorem execVsum_kept (b : Nat) (s : State) (hs : State.Kept pq s) (t' : State) (h' : execVsum b s = .next t') : State.Kept pq t' := by
  unfold execVsum at h'
  cases h'
  repeat' with_reducible first | assumption | apply State.issueIf_kept | apply opVec_kept

theorem execRmax_kept (b : Nat) (s : State) (hs : State.Kept pq s) (t' : State) (h' : execRmax b s = .next t') : State.Kept pq t' := by
  unfold execRmax at h'
  cases h'
  repeat' with_reducible first | assumption | apply State.issueIf_kept | apply opVec_kept

theorem execMac_kept (b : Nat) (s : State) (hs : State.Kept pq s) (t' : State) (h' : execMac b s = .next t') : State.Kept pq t' := by
  unfold execMac at h'
  cases h'
  repeat' with_reducible first | assumption | apply State.issueIf_kept | apply opVec_kept

theorem execCone_kept (b : Nat) (s : State) (hs : State.Kept pq s) (t' : State) (h' : execCone b s = .next t') : State.Kept pq t' := by
  unfold execCone at h'
  cases h'
  repeat' with_reducible first | assumption | apply State.issueIf_kept | apply opCone_kept

theorem execGraftApply_kept (b : Nat) (s : State) (hs : State.Kept pq s) (t' : State) (h' : execGraftApply b s = .next t') : State.Kept pq t' := by
  unfold execGraftApply at h'
  cases h'
  repeat' with_reducible first | assumption | apply State.issueIf_kept | apply opGraftApply_kept

theorem execGraftGrad_kept (b : Nat) (s : State) (hs : State.Kept pq s) (t' : State) (h' : execGraftGrad b s = .next t') : State.Kept pq t' := by
  unfold execGraftGrad at h'
  cases h'
  repeat' with_reducible first | assumption | apply State.issueIf_kept | apply opGraftGrad_kept

theorem execGraftStep_kept (b : Nat) (s : State) (hs : State.Kept pq s) (t' : State) (h' : execGraftStep b s = .next t') : State.Kept pq t' := by
  unfold execGraftStep at h'
  cases h'
  repeat' with_reducible first | assumption | apply State.issueIf_kept | apply opGraftStep_kept

theorem State.endRangeWindow_kept (s : State) (b k : Nat) (second : Bool) (hs : State.Kept pq s) : State.Kept pq (State.endRangeWindow s b k second) := by
  unfold State.endRangeWindow
  repeat' with_reducible first | assumption | apply State.onBough_kept | apply State.onLeaf_kept | apply kept_ite | apply keptOpt_some | intro _

theorem State.refusePhases_kept (s : State) (b k : Nat) (hs : State.Kept pq s) : State.Kept pq (State.refusePhases s b k) := by
  unfold State.refusePhases
  repeat' with_reducible first | assumption | apply State.onBough_kept | apply State.onLeaf_kept | apply kept_foldl | apply keptOpt_some | intro _

theorem State.phaseParity_kept (s : State) (b k : Nat) (o : PhaseObs) (hs : State.Kept pq s) : State.Kept pq (State.phaseParity s b k o) := by
  unfold State.phaseParity
  repeat' with_reducible first | assumption | apply State.onBough_kept | apply State.record_kept | apply State.fenceBough_kept | apply kept_ite | apply keptOpt_some | intro _

theorem State.holdPhase_kept (s : State) (b k : Nat) (j : PhaseJob) (hs : State.Kept pq s) : State.Kept pq (State.holdPhase s b k j) := by
  unfold State.holdPhase
  repeat' with_reducible first | assumption | apply State.onBough_kept | apply State.onLeaf_kept | apply State.startMeas_kept | apply kept_ite | apply keptOpt_some | intro _

theorem State.runPhase_kept (s : State) (b k : Nat) (o : PhaseObs) (hs : State.Kept pq s) : State.Kept pq (State.runPhase s b k o) := by
  unfold State.runPhase
  repeat' with_reducible first | assumption | apply State.onBough_kept | apply State.onLeaf_kept | apply State.endDriftBlock_kept | apply State.driveMismatch_kept | apply State.finishVector_kept | apply State.endRangeWindow_kept | apply State.refusePhases_kept | apply State.phaseParity_kept | apply State.holdPhase_kept | apply kept_foldl | apply kept_ite | fail_if_no_progress (apply kept_upd) | apply keptOpt_some | intro _ | split | dsimp only

theorem execRefSelfCheck_kept (b l : Nat) (o : RefObs) (s : State) (hs : State.Kept pq s) (t' : State) (h' : execRefSelfCheck b l o s = .next t') : State.Kept pq t' := by
  unfold execRefSelfCheck at h'
  cases h'
  repeat' with_reducible first | assumption | apply State.selfCheck_kept | apply kept_ite | apply keptOpt_some | intro _

theorem execLeafPhase_kept (b l : Nat) (o : PhaseObs) (s : State) (hs : State.Kept pq s) (t' : State) (h' : execLeafPhase b l o s = .next t') : State.Kept pq t' := by
  unfold execLeafPhase at h'
  cases h'
  repeat' with_reducible first | assumption | apply State.tryXrecv_kept | apply State.runPhase_kept | apply kept_ite | apply keptOpt_some | intro _

theorem State.endBiasWindow_kept (s : State) (k g : Nat) (hs : State.Kept pq s) : State.Kept pq (State.endBiasWindow s k g) := by
  unfold State.endBiasWindow
  repeat' with_reducible first | assumption | apply State.onLeaf_kept | apply State.record_kept | apply State.startDiag_kept | apply kept_ite | apply keptOpt_some | intro _

theorem State.addEvals_kept (s : State) (evals : List (Nat × Nat × Int × Rat × Nat)) (hs : State.Kept pq s) : State.Kept pq (State.addEvals s evals) := by
  unfold State.addEvals
  repeat' with_reducible first | assumption | apply State.onLeaf_kept | apply State.endBiasWindow_kept | apply kept_foldl | apply kept_ite | apply keptOpt_some | intro _

theorem State.satSquash_kept (s : State) (b : Nat) (t : Task) (e : Epoch) (j : SatJudge) (hs : State.Kept pq s) : State.Kept pq (State.satSquash s b t e j) := by
  unfold State.satSquash
  repeat' with_reducible first | assumption | apply State.onBough_kept | apply State.onLeaf_kept | apply State.squashFrom_kept | apply kept_foldl | apply keptOpt_some | intro _

theorem State.noteParity_kept (s : State) (b : Nat) (f : EpochFail) (hs : State.Kept pq s) : State.Kept pq (State.noteParity s b f) := by
  unfold State.noteParity
  repeat' with_reducible first | assumption | apply State.record_kept | apply keptOpt_some | intro _ | split | dsimp only

theorem State.checkSquash_kept (s : State) (b : Nat) (t : Task) (e : Epoch) (f : EpochFail) (hs : State.Kept pq s) : State.Kept pq (State.checkSquash s b t e f) := by
  unfold State.checkSquash
  repeat' with_reducible first | assumption | apply State.onBough_kept | apply State.squashFrom_kept | apply State.noteParity_kept | apply keptOpt_some | intro _

theorem State.returnCredits_kept (s : State) (b : Nat) (e : Epoch) (hs : State.Kept pq s) : State.Kept pq (State.returnCredits s b e) := by
  unfold State.returnCredits
  repeat' with_reducible first | assumption | apply State.onBough_kept | apply kept_foldl | apply keptOpt_some | intro _

theorem State.reportCheck_kept (s : State) (b : Nat) (f : EpochFail) (hs : State.Kept pq s) : State.Kept pq (State.reportCheck s b f) := by
  unfold State.reportCheck
  repeat' with_reducible first | assumption | apply State.onLeaf_kept | apply State.record_kept | apply State.startDiag_kept | apply State.noteParity_kept | apply keptOpt_some | intro _ | split | dsimp only

theorem State.retireFailed_kept (s : State) (b : Nat) (e : Epoch) (cause : Cause) (detail : Word) (hs : State.Kept pq s) : State.Kept pq (State.retireFailed s b e cause detail) := by
  unfold State.retireFailed
  repeat' with_reducible first | assumption | apply State.onBough_kept | apply State.endDrains_kept | apply State.undoFrom_kept | apply State.returnCredits_kept | apply kept_ite | apply keptOpt_some | intro _ | split | dsimp only

theorem State.retireGood_kept (s : State) (b : Nat) (c : Canopy) (t : Task) (e : Epoch) (hs : State.Kept pq s) : State.Kept pq (State.retireGood s b c t e) := by
  unfold State.retireGood
  repeat' with_reducible first | assumption | apply State.onBough_kept | apply State.endDrains_kept | apply State.addEvals_kept | apply State.returnCredits_kept | apply kept_ite | apply keptOpt_some | intro _ | split | dsimp only

theorem State.judgeOldest_kept (s : State) (b : Nat) (hs : State.Kept pq s) : State.Kept pq (State.judgeOldest s b) := by
  unfold State.judgeOldest
  repeat' with_reducible first | assumption | apply State.onBough_kept | apply State.record_kept | apply State.satSquash_kept | apply State.checkSquash_kept | apply State.reportCheck_kept | apply State.retireFailed_kept | apply State.retireGood_kept | apply kept_foldl | apply kept_ite | apply keptOpt_some | intro _ | split | dsimp only

theorem State.loseLine_kept (s : State) (b id : Nat) (c : Cause) (detail : Word) (hs : State.Kept pq s) : State.Kept pq (State.loseLine s b id c detail) := by
  unfold State.loseLine
  repeat' with_reducible first | assumption | apply State.onBough_kept | apply State.faultTaskId_kept | apply keptOpt_some | intro _

theorem State.sendLine_kept (s : State) (b : Nat) (h : HeldLine) (route seq : Nat) (last : Bool) (tag : Int) (hs : State.Kept pq s) : State.Kept pq (State.sendLine s b h route seq last tag) := by
  unfold State.sendLine
  repeat' with_reducible first | assumption | apply State.onBough_kept | apply State.loseLine_kept | apply kept_ite | apply keptOpt_some | intro _ | split | dsimp only

theorem State.releaseLine_kept (s : State) (b : Nat) (accepted parityBad : Bool) (hs : State.Kept pq s) : State.Kept pq (State.releaseLine s b accepted parityBad) := by
  unfold State.releaseLine
  repeat' with_reducible first | assumption | apply State.onStand_kept | apply State.onBough_kept | apply State.poisonWords_kept | apply State.hostPost_kept | apply State.record_kept | apply State.hbmWrite_kept | apply State.signalKnot_kept | apply State.loseLine_kept | apply State.sendLine_kept | apply kept_foldl | apply kept_ite | apply keptOpt_some | intro _ | split | dsimp only

theorem State.landNow_kept (s : State) (b route sender : Nat) (hs : State.Kept pq s) : State.Kept pq (State.landNow s b route sender) := by
  unfold State.landNow
  repeat' with_reducible first | assumption | apply State.onBough_kept | apply keptOpt_some | intro _ | split | dsimp only

theorem State.landXfer_kept (s : State) (b route sender : Nat) (hs : State.Kept pq s) : State.Kept pq (State.landXfer s b route sender) := by
  unfold State.landXfer
  repeat' with_reducible first | assumption | apply State.tryXrecv_kept | apply State.landNow_kept | apply kept_ite | apply keptOpt_some | intro _ | split | dsimp only

theorem State.endDrain_kept (s : State) (b : Nat) (hs : State.Kept pq s) : State.Kept pq (State.endDrain s b) := by
  unfold State.endDrain
  repeat' with_reducible first | assumption | apply State.onStand_kept | apply State.onBough_kept | apply kept_ite | apply keptOpt_some | intro _

theorem State.settleQueues_kept (s : State) (hs : State.Kept pq s) : State.Kept pq (State.settleQueues s) := by
  unfold State.settleQueues
  repeat' with_reducible first | assumption | apply State.askHeads_kept | apply State.enlist_kept | apply kept_foldl | apply kept_ite | apply keptOpt_some | intro _

theorem State.taskSignal_kept (s : State) (t : TaskRec) (hs : State.Kept pq s) : State.Kept pq (State.taskSignal s t) := by
  unfold State.taskSignal
  repeat' with_reducible first | assumption | apply State.signalKnot_kept | apply kept_ite | apply keptOpt_some | intro _

theorem State.flushOne_kept (s : State) (q : Nat) (hs : State.Kept pq s) : State.Kept pq (State.flushOne s q) := by
  unfold State.flushOne
  repeat' with_reducible first | assumption | apply State.onQueue_kept | apply State.complete_kept | apply State.askHead_kept | apply State.taskSignal_kept | apply kept_ite | apply keptOpt_some | intro _ | split | dsimp only

theorem State.flushOn_kept (s : State) (q : Nat) (hs : State.Kept pq s) : State.Kept pq (State.flushOn s q) := by
  unfold State.flushOn
  repeat' with_reducible first | assumption | apply State.onQue_kept | apply State.onQueue_kept | apply State.flushOne_kept | apply kept_foldl | apply kept_ite | apply keptOpt_some | intro _

theorem State.actDoorbell_kept (s : State) (q : Nat) (tail head : Word) (hs : State.Kept pq s) : State.Kept pq (State.actDoorbell s q tail head) := by
  unfold State.actDoorbell
  repeat' with_reducible first | assumption | apply State.onStand_kept | apply State.onQue_kept | apply State.onQueue_kept | apply State.haltQueue_kept | apply State.touchQueue_kept | apply State.askHead_kept | apply State.flushOn_kept | apply kept_ite | apply keptOpt_some | intro _

theorem State.actPending_kept (s : State) (hs : State.Kept pq s) : State.Kept pq (State.actPending s) := by
  unfold State.actPending
  repeat' with_reducible first | assumption | apply State.actDoorbell_kept | apply kept_foldl | apply keptOpt_some | intro _ | split

theorem State.queResult_kept (s : State) (code : Nat) (hs : State.Kept pq s) : State.Kept pq (State.queResult s code) := by
  unfold State.queResult
  repeat' with_reducible first | assumption | apply State.onQue_kept

theorem State.enableQueue_kept (s : State) (q : Nat) (hs : State.Kept pq s) : State.Kept pq (State.enableQueue s q) := by
  unfold State.enableQueue
  repeat' with_reducible first | assumption | apply State.onQue_kept | apply State.reportUe_kept | apply State.askHead_kept | apply State.queResult_kept | apply kept_ite | apply keptOpt_some | intro _ | split

theorem State.retryEnable_kept (s : State) (hs : State.Kept pq s) : State.Kept pq (State.retryEnable s) := by
  unfold State.retryEnable
  repeat' with_reducible first | assumption | apply State.enableQueue_kept | apply kept_ite | apply keptOpt_some | intro _

theorem State.choose_kept (s : State) (b : Nat) (hs : State.Kept pq s) : KeptOpt pq (State.choose s b) := by
  unfold State.choose
  dsimp only
  split
  · exact keptOpt_some (State.onStand_kept _ _ _ hs)
  · split
    · exact keptOpt_some (State.onStand_kept _ _ _ hs)
    · exact keptOpt_none

theorem State.takeTask_kept (s : State) (b q : Nat) (bs : List Byte) (hs : State.Kept pq s) : State.Kept pq (State.takeTask s b q bs) := by
  unfold State.takeTask
  repeat' with_reducible first | assumption | apply State.onStand_kept | apply State.onBough_kept | apply State.onQue_kept | apply State.reportUe_kept | apply State.onQueue_kept | apply State.complete_kept | apply State.touchQueue_kept | apply State.askHead_kept | apply State.addCounts_kept | apply State.completeFault_kept | apply State.ueReset_kept | apply State.latch_kept | apply State.taskSignal_kept | apply keptOpt_some | intro _ | split | refine kept_pair (by assumption) ?_ | dsimp only

theorem State.dispatch_kept (s : State) (b : Nat) (hs : State.Kept pq s) : State.Kept pq (State.dispatch s b) := by
  unfold State.dispatch
  repeat' with_reducible first | assumption | apply State.reportUe_kept | apply State.haltQueue_kept | apply State.ueReset_kept | apply State.choose_kept | apply State.takeTask_kept | apply kept_ite | apply keptOpt_some | intro _ | split | refine kept_pair2 (by assumption) ?_ | refine kept_opt (by assumption) ?_

theorem State.finishTask_kept (s : State) (b : Nat) (t : Task) (hs : State.Kept pq s) : State.Kept pq (State.finishTask s b t) := by
  unfold State.finishTask
  repeat' with_reducible first | assumption | apply State.onBough_kept | apply State.onQueue_kept | apply State.complete_kept | apply State.addCounts_kept | apply State.completeFault_kept | apply State.endDisable_kept | apply State.updateScales_kept | apply State.flushGrafts_kept | apply State.taskSignal_kept | apply kept_ite | apply keptOpt_some | intro _

theorem State.doorbell_kept (s : State) (fn off len : Nat) (data : DWord) (hs : State.Kept pq s) : State.Kept pq (State.doorbell s fn off len data) := by
  unfold State.doorbell
  repeat' with_reducible first | assumption | apply State.pciError_kept | apply State.onQue_kept | apply State.onQueue_kept | apply State.wakeEvent_kept | apply State.settleQueues_kept | apply State.actDoorbell_kept | apply kept_ite | apply keptOpt_some | intro _

theorem execDoorbell_kept (fn off len : Nat) (data : Option DWord) (s : State) (hs : State.Kept pq s) (t' : State) (h' : execDoorbell fn off len data s = .next t') : State.Kept pq t' := by
  unfold execDoorbell at h'
  cases h'
  repeat' with_reducible first | assumption | apply State.emit_kept | apply State.doorbell_kept | apply kept_ite | apply keptOpt_some | intro _ | split | dsimp only

theorem execQueEnable_kept (q : Nat) (s : State) (hs : State.Kept pq s) (t' : State) (h' : execQueEnable q s = .next t') : State.Kept pq t' := by
  unfold execQueEnable at h'
  cases h'
  repeat' with_reducible first | assumption | apply State.onQue_kept | apply State.settleQueues_kept | apply State.enableQueue_kept | apply kept_ite | apply keptOpt_some | intro _

theorem execQueDisable_kept (q : Nat) (s : State) (hs : State.Kept pq s) (t' : State) (h' : execQueDisable q s = .next t') : State.Kept pq t' := by
  unfold execQueDisable at h'
  cases h'
  repeat' with_reducible first | assumption | apply State.onQue_kept | apply State.onQueue_kept | apply State.finishDisable_kept | apply State.queResult_kept | apply kept_ite | apply keptOpt_some | intro _

theorem execQueResume_kept (q : Nat) (s : State) (hs : State.Kept pq s) (t' : State) (h' : execQueResume q s = .next t') : State.Kept pq t' := by
  unfold execQueResume at h'
  cases h'
  repeat' with_reducible first | assumption | apply State.onQueue_kept | apply State.settleQueues_kept | apply State.queResult_kept | apply kept_ite | apply keptOpt_some | intro _

theorem execQueFlush_kept (q : Nat) (s : State) (hs : State.Kept pq s) (t' : State) (h' : execQueFlush q s = .next t') : State.Kept pq t' := by
  unfold execQueFlush at h'
  cases h'
  repeat' with_reducible first | assumption | apply State.onQue_kept | apply State.onQueue_kept | apply State.flushOn_kept | apply State.queResult_kept | apply kept_ite | apply keptOpt_some | intro _

theorem execQueCtrlWrite_kept (v : Word) (s : State) (hs : State.Kept pq s) (t' : State) (h' : execQueCtrlWrite v s = .next t') : State.Kept pq t' := by
  unfold execQueCtrlWrite at h'
  cases h'
  repeat' with_reducible first | assumption | apply State.onQue_kept | apply State.settleQueues_kept | apply State.actPending_kept | apply kept_ite | apply keptOpt_some | intro _

theorem execSyncInEdge_kept (rising : Bool) (s : State) (hs : State.Kept pq s) (t' : State) (h' : execSyncInEdge rising s = .next t') : State.Kept pq t' := by
  unfold execSyncInEdge at h'
  cases h'
  repeat' with_reducible first | assumption | apply State.onBud_kept | apply State.onQue_kept | apply State.onSyncQueues_kept | apply State.syncEdge_kept | apply State.wakeEvent_kept | apply State.settleQueues_kept | apply kept_ite | apply keptOpt_some | intro _

theorem execKnotSignal_kept (n : Nat) (s : State) (hs : State.Kept pq s) (t' : State) (h' : execKnotSignal n s = .next t') : State.Kept pq t' := by
  unfold execKnotSignal at h'
  cases h'
  repeat' with_reducible first | assumption | apply State.signalKnot_kept | apply State.settleQueues_kept | apply kept_ite | apply keptOpt_some | intro _

theorem execQueKnotSignal_kept (v : Word) (s : State) (hs : State.Kept pq s) (t' : State) (h' : execQueKnotSignal v s = .next t') : State.Kept pq t' := by
  unfold execQueKnotSignal at h'
  cases h'
  repeat' with_reducible first | assumption | apply State.onPcie_kept | apply State.signalKnot_kept | apply State.settleQueues_kept | apply kept_ite | apply keptOpt_some | intro _

theorem execQueKnotCfg_kept (v : Word) (s : State) (hs : State.Kept pq s) (t' : State) (h' : execQueKnotCfg v s = .next t') : State.Kept pq t' := by
  unfold execQueKnotCfg at h'
  cases h'
  repeat' with_reducible first | assumption | apply State.onKnot_kept | apply kept_ite | apply keptOpt_some | intro _

theorem execQueKnotState_kept (v : Word) (s : State) (hs : State.Kept pq s) (t' : State) (h' : execQueKnotState v s = .next t') : State.Kept pq t' := by
  unfold execQueKnotState at h'
  cases h'
  repeat' with_reducible first | assumption | apply State.onKnot_kept | apply State.serveKnot_kept | apply State.settleQueues_kept | apply kept_ite | apply keptOpt_some | intro _

end Sys2Proof.Machine
end

