-- ==== Sys2Proof/Laws/Kept4.lean ====
section
/-! SUPPORT. Memory and the waiting commands are kept by the operations of LoadOps, Load, Security, TestPort, IntegOps, Integrity, ProgRun, StartOps, StartUp. -/

namespace Sys2Proof.Machine

variable {pq : List Instr}

theorem State.beginRounds_kept (s : State) (h : Nat) (ms : List RMember) (hs : State.Kept pq s) : State.Kept pq (State.beginRounds s h ms) := by
  unfold State.beginRounds
  repeat' with_reducible first | assumption | apply State.onRounds_kept | apply State.startRound_kept | apply State.beginQuiesce_kept | apply kept_ite | apply keptOpt_some | intro _

theorem State.rejectLoad_kept (s : State) (h status sec ent : Nat) (hs : State.Kept pq s) : State.Kept pq (State.rejectLoad s h status sec ent) := by
  unfold State.rejectLoad
  repeat' with_reducible first | assumption | apply State.endOp_kept | apply State.onRunStands_kept

theorem State.validated_kept (s : State) (h : Nat) (l : LoadOp) (hs : State.Kept pq s) : State.Kept pq (State.validated s h l) := by
  unfold State.validated
  repeat' with_reducible first | assumption | apply State.reportUe_kept | apply State.onOp_kept | apply State.beginRounds_kept | apply State.rejectLoad_kept | apply keptOpt_some | intro _ | split | dsimp only

theorem State.quiesceEnd_kept (s : State) (h : Nat) (hs : State.Kept pq s) : State.Kept pq (State.quiesceEnd s h) := by
  unfold State.quiesceEnd
  repeat' with_reducible first | assumption | apply State.onRounds_kept | apply State.switchDone_kept | apply State.startRound_kept | apply State.releaseRound_kept | apply keptOpt_some | intro _ | split

theorem State.foldEntry_kept (s : State) (h : Nat) (f : FoldOp) (levels : SMap Nat) (hs : State.Kept pq s) : State.Kept pq (State.foldEntry s h f levels) := by
  unfold State.foldEntry
  repeat' with_reducible first | assumption | apply State.record_kept | apply State.hbmWrite_kept | apply State.onOp_kept | apply State.endOp_kept | apply State.onRunStands_kept | apply State.beginRounds_kept | apply keptOpt_some | intro _ | split | dsimp only

theorem execLoadCanopy_kept (q : Nat) (s : State) (hs : State.Kept pq s) (t' : State) (h' : execLoadCanopy q s = .next t') : State.Kept pq t' := by
  unfold execLoadCanopy at h'
  cases h'
  repeat' with_reducible first | assumption | apply State.acceptOp_kept | apply State.popCommand_kept | apply State.refuseCommand_kept | apply State.serveCommand_kept | apply State.onRunStands_kept | apply kept_ite | apply keptOpt_some | intro _ | split | refine kept_opt (by assumption) ?_ | apply kept_fst

theorem execCanopyValidateDone_kept (h : Nat) (s : State) (hs : State.Kept pq s) (t' : State) (h' : execCanopyValidateDone h s = .next t') : State.Kept pq t' := by
  unfold execCanopyValidateDone at h'
  cases h'
  repeat' with_reducible first | assumption | apply State.validated_kept | apply keptOpt_some | intro _ | split

theorem execCanopyQuiesceDone_kept (h : Nat) (s : State) (hs : State.Kept pq s) (t' : State) (h' : execCanopyQuiesceDone h s = .next t') : State.Kept pq t' := by
  unfold execCanopyQuiesceDone at h'
  cases h'
  repeat' with_reducible first | assumption | apply State.quiesceEnd_kept | intro _ | split

theorem execQuiesceTimeout_kept (h : Nat) (s : State) (hs : State.Kept pq s) (t' : State) (h' : execQuiesceTimeout h s = .next t') : State.Kept pq t' := by
  unfold execQuiesceTimeout at h'
  cases h'
  repeat' with_reducible first | assumption | apply State.failRun_kept | apply keptOpt_some | intro _ | split | refine kept_opt (by assumption) ?_ | apply kept_fst

theorem execFoldGraft_kept (q : Nat) (s : State) (hs : State.Kept pq s) (t' : State) (h' : execFoldGraft q s = .next t') : State.Kept pq t' := by
  unfold execFoldGraft at h'
  cases h'
  repeat' with_reducible first | assumption | apply State.acceptOp_kept | apply State.popCommand_kept | apply State.refuseCommand_kept | apply State.serveCommand_kept | apply keptOpt_some | intro _ | split | refine kept_opt (by assumption) ?_ | apply kept_fst | dsimp only

theorem execFoldEntryReadbackDone_kept (h : Nat) (levels : SMap Nat) (s : State) (hs : State.Kept pq s) (t' : State) (h' : execFoldEntryReadbackDone h levels s = .next t') : State.Kept pq t' := by
  unfold execFoldEntryReadbackDone at h'
  cases h'
  repeat' with_reducible first | assumption | apply State.foldEntry_kept | intro _ | split

theorem State.secServe_kept (s : State) (r : SecReq) (life : List Nat) (good : Bool) (go : State → State) (hs : State.Kept pq s) (hgo : ∀ s0, State.Kept pq s0 → State.Kept pq (go s0)) : State.Kept pq (State.secServe s r life good go) := by
  unfold State.secServe
  repeat' with_reducible first | assumption | apply State.answer_kept | apply State.trunkServe_kept | apply hgo | apply kept_ite | apply keptOpt_some | intro _

theorem execProvision_kept (r : SecReq) (s : State) (hs : State.Kept pq s) (t' : State) (h' : execProvision r s = .next t') : State.Kept pq t' := by
  unfold execProvision at h'
  cases h'
  repeat' with_reducible first | assumption | apply State.storeWrite_kept | apply State.awaitStore_kept | apply State.secServe_kept | apply keptOpt_some | intro _

theorem execInstallOwner_kept (r : SecReq) (s : State) (hs : State.Kept pq s) (t' : State) (h' : execInstallOwner r s = .next t') : State.Kept pq t' := by
  unfold execInstallOwner at h'
  cases h'
  repeat' with_reducible first | assumption | apply State.storeRec_kept | apply State.awaitStore_kept | apply State.secServe_kept | apply keptOpt_some | intro _

theorem execTransferOwner_kept (r : SecReq) (s : State) (hs : State.Kept pq s) (t' : State) (h' : execTransferOwner r s = .next t') : State.Kept pq t' := by
  unfold execTransferOwner at h'
  cases h'
  repeat' with_reducible first | assumption | apply State.storeRec_kept | apply State.answer_kept | apply State.awaitStore_kept | apply State.secServe_kept | apply kept_ite | apply keptOpt_some | intro _

theorem execSetPolicy_kept (r : SecReq) (s : State) (hs : State.Kept pq s) (t' : State) (h' : execSetPolicy r s = .next t') : State.Kept pq t' := by
  unfold execSetPolicy at h'
  cases h'
  repeat' with_reducible first | assumption | apply State.storeRec_kept | apply State.awaitStore_kept | apply State.secServe_kept | apply keptOpt_some | intro _

theorem execSvnCommit_kept (r : SecReq) (s : State) (hs : State.Kept pq s) (t' : State) (h' : execSvnCommit r s = .next t') : State.Kept pq t' := by
  unfold execSvnCommit at h'
  cases h'
  repeat' with_reducible first | assumption | apply State.storeWrite_kept | apply State.answer_kept | apply State.awaitStore_kept | apply State.secServe_kept | apply kept_foldl | apply kept_ite | apply keptOpt_some | intro _

theorem execRelease_kept (r : SecReq) (s : State) (hs : State.Kept pq s) (t' : State) (h' : execRelease r s = .next t') : State.Kept pq t' := by
  unfold execRelease at h'
  cases h'
  repeat' with_reducible first | assumption | apply State.storeWrite_kept | apply State.awaitStore_kept | apply State.secServe_kept | apply keptOpt_some | intro _

theorem execDebugGrant_kept (r : SecReq) (s : State) (hs : State.Kept pq s) (t' : State) (h' : execDebugGrant r s = .next t') : State.Kept pq t' := by
  unfold execDebugGrant at h'
  cases h'
  repeat' with_reducible first | assumption | apply State.onTrunk_kept | apply State.storeWrite_kept | apply State.answer_kept | apply State.awaitStore_kept | apply State.secServe_kept | apply kept_ite | apply keptOpt_some | intro _

theorem execFwBegin_kept (r : MReq) (s : State) (hs : State.Kept pq s) (t' : State) (h' : execFwBegin r s = .next t') : State.Kept pq t' := by
  unfold execFwBegin at h'
  cases h'
  repeat' with_reducible first | assumption | apply State.onTrunk_kept | apply State.onSlot_kept | apply State.answer_kept | apply State.trunkServe_kept | apply kept_ite | apply keptOpt_some | intro _

theorem execFwData_kept (r : MReq) (s : State) (hs : State.Kept pq s) (t' : State) (h' : execFwData r s = .next t') : State.Kept pq t' := by
  unfold execFwData at h'
  cases h'
  repeat' with_reducible first | assumption | apply State.onTrunk_kept | apply State.onSlot_kept | apply State.answer_kept | apply State.trunkServe_kept | apply kept_ite | apply keptOpt_some | intro _ | split

theorem execFwEnd_kept (r : MReq) (s : State) (hs : State.Kept pq s) (t' : State) (h' : execFwEnd r s = .next t') : State.Kept pq t' := by
  unfold execFwEnd at h'
  cases h'
  repeat' with_reducible first | assumption | apply State.onTrunk_kept | apply State.storeRec_kept | apply State.answer_kept | apply State.trunkServe_kept | apply State.awaitStore_kept | apply kept_ite | apply keptOpt_some | intro _ | split

theorem State.tapBypass_kept (s : State) (hs : State.Kept pq s) : State.Kept pq (State.tapBypass s) := by
  unfold State.tapBypass
  repeat' with_reducible first | assumption | apply State.onTap_kept

theorem State.tapPins_kept (s : State) (f : Tap → Tap) (hs : State.Kept pq s) : State.Kept pq (State.tapPins s f) := by
  unfold State.tapPins
  repeat' with_reducible first | assumption | apply State.onTap_kept | apply State.tapBypass_kept | apply kept_ite | apply keptOpt_some | intro _

theorem execExtest_kept (bits : List Bool) (s : State) (hs : State.Kept pq s) (t' : State) (h' : execExtest bits s = .next t') : State.Kept pq t' := by
  unfold execExtest at h'
  cases h'
  repeat' with_reducible first | assumption | apply State.tapPins_kept

theorem execIdcode_kept (s : State) (hs : State.Kept pq s) (t' : State) (h' : execIdcode s = .next t') : State.Kept pq t' := by
  unfold execIdcode at h'
  cases h'
  repeat' with_reducible first | assumption | apply State.onTap_kept | apply State.emit_kept | apply kept_ite | apply keptOpt_some | intro _

theorem execSamplePreload_kept (pins bits : List Bool) (s : State) (hs : State.Kept pq s) (t' : State) (h' : execSamplePreload pins bits s = .next t') : State.Kept pq t' := by
  unfold execSamplePreload at h'
  cases h'
  repeat' with_reducible first | assumption | apply State.onTap_kept | apply kept_ite | apply keptOpt_some | intro _

theorem execClamp_kept (s : State) (hs : State.Kept pq s) (t' : State) (h' : execClamp s = .next t') : State.Kept pq t' := by
  unfold execClamp at h'
  cases h'
  repeat' with_reducible first | assumption | apply State.tapPins_kept

theorem execHighz_kept (s : State) (hs : State.Kept pq s) (t' : State) (h' : execHighz s = .next t') : State.Kept pq t' := by
  unfold execHighz at h'
  cases h'
  repeat' with_reducible first | assumption | apply State.tapPins_kept

theorem execExtestPulse_kept (s : State) (hs : State.Kept pq s) (t' : State) (h' : execExtestPulse s = .next t') : State.Kept pq t' := by
  unfold execExtestPulse at h'
  cases h'
  repeat' with_reducible first | assumption | apply State.tapPins_kept

theorem execExtestTrain_kept (s : State) (hs : State.Kept pq s) (t' : State) (h' : execExtestTrain s = .next t') : State.Kept pq t' := by
  unfold execExtestTrain at h'
  cases h'
  repeat' with_reducible first | assumption | apply State.tapPins_kept

theorem execBypass_kept (code : Byte) (s : State) (hs : State.Kept pq s) (t : State) (h : execBypass code s = .next t) : State.Kept pq t := by
  unfold execBypass at h
  split at h
  · cases h
  · cases h
    repeat' (first | with_reducible assumption | with_reducible apply State.tapBypass_kept | with_reducible apply kept_ite | intro _)

theorem State.landRead_kept (s : State) (b : Nat) (r : PendRead) (data : List Byte) (mark : Nat → Nat → Option Nat) (hs : State.Kept pq s) : State.Kept pq (State.landRead s b r data mark) := by
  unfold State.landRead
  repeat' with_reducible first | assumption | apply State.onBough_kept

theorem State.ueRead_kept (s : State) (b a : Nat) (r : PendRead) (whole : Bool) (hs : State.Kept pq s) : State.Kept pq (State.ueRead s b a r whole) := by
  unfold State.ueRead
  repeat' with_reducible first | assumption | apply State.ueReset_kept | apply State.landRead_kept | apply kept_ite | apply keptOpt_some | intro _

theorem State.ueQueue_kept (s : State) (q : Nat) (hs : State.Kept pq s) : State.Kept pq (State.ueQueue s q) := by
  unfold State.ueQueue
  repeat' with_reducible first | assumption | apply State.haltQueue_kept | apply State.ueReset_kept | apply kept_ite | apply keptOpt_some | intro _

theorem State.engineRead_kept (s : State) (who : Reader) (a : Nat) (o : EngineObs) (hs : State.Kept pq s) : State.Kept pq (State.engineRead s who a o) := by
  unfold State.engineRead
  repeat' with_reducible first | assumption | apply State.onStand_kept | apply State.poisonWords_kept | apply State.record_kept | apply State.reportUe_kept | apply State.ueQueue_kept | apply kept_ite | apply keptOpt_some | intro _ | split | dsimp only

theorem State.readDone_kept (s : State) (b : Nat) (o : ReadObs) (hs : State.Kept pq s) : State.Kept pq (State.readDone s b o) := by
  unfold State.readDone
  repeat' with_reducible first | assumption | apply State.onStand_kept | apply State.onBough_kept | apply State.poisonWords_kept | apply State.record_kept | apply State.reportUe_kept | apply State.landRead_kept | apply State.ueRead_kept | apply State.engineRead_kept | apply kept_ite | apply keptOpt_some | intro _ | split | dsimp only

theorem State.scrubPart_kept (s : State) (ch : Nat) (o : ScrubObs) (hs : State.Kept pq s) : State.Kept pq (State.scrubPart s ch o) := by
  unfold State.scrubPart
  repeat' with_reducible first | assumption | apply State.onStand_kept | apply State.poisonWords_kept | apply State.record_kept | apply State.reportUe_kept | apply kept_foldl | apply kept_ite | apply keptOpt_some | intro _

theorem State.judgeColumns_kept (s : State) (k : Nat) (o : MeasObs) (cause : Nat) (again : Option Nat) (hs : State.Kept pq s) : KeptFst pq (State.judgeColumns s k o cause again) := by
  unfold State.judgeColumns
  repeat' with_reducible first | assumption | apply State.fenceGroups_kept | apply State.fenceColumns_kept | apply issues_ok | apply issues_pure | exact issues_error | exact issues_shape | exact issues_throw | apply issues_ite | apply issues_foldlM | apply issues_bind | apply issues_map | apply kept_foldl | apply kept_ite | apply kept_nil | apply kept_putSome | fail_if_no_progress (apply kept_upd) | apply keptFst_mk | apply keptSnd_mk | apply keptFst_ite | apply keptSnd_ite | exact keptOpt_none | apply keptOpt_some | intro _ | split | refine kept_pair (by assumption) ?_ | refine kept_pair2 (by assumption) ?_ | refine kept_opt (by assumption) ?_ | apply kept_fst | apply kept_snd | dsimp only | dsimp only [id] | exact issues_any

theorem State.endDiag_kept (s : State) (k : Nat) (o : MeasObs) (hs : State.Kept pq s) : State.Kept pq (State.endDiag s k o) := by
  unfold State.endDiag
  repeat' with_reducible first | assumption | apply State.onLeaf_kept | apply State.record_kept | apply State.measPhases_kept | apply State.judgeColumns_kept | apply issues_ok | apply issues_pure | exact issues_error | exact issues_shape | exact issues_throw | apply issues_ite | apply issues_foldlM | apply issues_bind | apply issues_map | apply kept_foldl | apply kept_ite | apply kept_nil | apply kept_putSome | fail_if_no_progress (apply kept_upd) | apply keptFst_mk | apply keptSnd_mk | apply keptFst_ite | apply keptSnd_ite | exact keptOpt_none | apply keptOpt_some | intro _ | split | refine kept_pair (by assumption) ?_ | refine kept_pair2 (by assumption) ?_ | refine kept_opt (by assumption) ?_ | apply kept_fst | apply kept_snd | dsimp only | dsimp only [id] | exact issues_any

theorem execBiasWindowEnd_kept (b l g : Nat) (s : State) (hs : State.Kept pq s) (t' : State) (h' : execBiasWindowEnd b l g s = .next t') : State.Kept pq t' := by
  unfold execBiasWindowEnd at h'
  cases h'
  repeat' with_reducible first | assumption | apply State.endBiasWindow_kept | apply kept_ite | apply keptOpt_some | intro _

theorem execHbmReadResponse_kept (b : Nat) (o : ReadObs) (s : State) (hs : State.Kept pq s) (t' : State) (h' : execHbmReadResponse b o s = .next t') : State.Kept pq t' := by
  unfold execHbmReadResponse at h'
  cases h'
  repeat' with_reducible first | assumption | apply State.pumpReads_kept | apply State.settleQueues_kept | apply State.readDone_kept | apply kept_ite | apply keptOpt_some | intro _

theorem execPatrolScrub_kept (ch : Nat) (o : ScrubObs) (s : State) (hs : State.Kept pq s) (t' : State) (h' : execPatrolScrub ch o s = .next t') : State.Kept pq t' := by
  unfold execPatrolScrub at h'
  cases h'
  repeat' with_reducible first | assumption | apply State.scrubPart_kept | apply kept_ite | apply keptOpt_some | intro _

theorem execDiagnosisDone_kept (b l : Nat) (o : MeasObs) (s : State) (hs : State.Kept pq s) (t' : State) (h' : execDiagnosisDone b l o s = .next t') : State.Kept pq t' := by
  unfold execDiagnosisDone at h'
  cases h'
  repeat' with_reducible first | assumption | apply State.endDiag_kept | apply kept_ite | apply keptOpt_some | intro _

theorem State.noteUe_kept (s : State) (a n : Nat) (hs : State.Kept pq s) : State.Kept pq (State.noteUe s a n) := by
  unfold State.noteUe
  repeat' with_reducible first | assumption | apply State.reportUe_kept | intro _ | split

theorem State.acceptStep_kept (s : State) (pid : Nat) (hs : State.Kept pq s) : State.Kept pq (State.acceptStep s pid) := by
  unfold State.acceptStep
  repeat' with_reducible first | assumption | apply State.onLeaf_kept | apply State.onProg_kept | apply State.failMember_kept | apply State.noteUe_kept | apply kept_ite | apply keptOpt_some | intro _ | split

theorem State.setStep_kept (s : State) (pid k n : Nat) (hs : State.Kept pq s) : State.Kept pq (State.setStep s pid k n) := by
  unfold State.setStep
  repeat' with_reducible first | assumption | apply State.onLeaf_kept | apply State.onProg_kept

theorem State.sparesOut_kept (s : State) (pid k : Nat) (hs : State.Kept pq s) : State.Kept pq (State.sparesOut s pid k) := by
  unfold State.sparesOut
  repeat' with_reducible first | assumption | apply State.onLeaf_kept | apply State.countCycle_kept | apply State.failMember_kept | apply State.fenceLeaf_kept | apply keptOpt_some | intro _

theorem State.takeSpare_kept (s : State) (pid k c : Nat) (hs : State.Kept pq s) (t : State) (h : State.takeSpare s pid k c = some t) : State.Kept pq t := by
  unfold State.takeSpare at h
  cases ha : allocSpare (s.leaf k).record.remap c with
  | none => rw [ha] at h; cases h
  | some r => rw [ha] at h; cases h; exact State.onProg_kept _ _ _ (State.onLeaf_kept _ _ _ hs)

theorem State.takeSpares_kept (s : State) (pid k : Nat) (l : List Nat) (hs : State.Kept pq s) : KeptFst pq (State.takeSpares s pid k l) := by
  induction l generalizing s with
  | nil => exact hs
  | cons c r ih =>
    unfold State.takeSpares
    split
    · rename_i s1 e; exact ih _ (State.takeSpare_kept _ _ _ _ hs _ e)
    · exact keptFst_mk (State.sparesOut_kept _ _ _ hs)

theorem State.refColumnFails_kept (s : State) (pid k q : Nat) (hs : State.Kept pq s) : State.Kept pq (State.refColumnFails s pid k q) := by
  unfold State.refColumnFails
  repeat' with_reducible first | assumption | apply State.onProg_kept | apply State.fenceGroups_kept

theorem State.beginPass_kept (s : State) (pid k n : Nat) (hs : State.Kept pq s) : State.Kept pq (State.beginPass s pid k n) := by
  unfold State.beginPass
  repeat' with_reducible first | assumption | apply State.onLeaf_kept | apply State.record_kept | apply State.onProg_kept | apply State.setStep_kept | apply keptOpt_some | intro _ | split | dsimp only

theorem State.rowStep_kept (s : State) (pid k : Nat) (p : Prog) (o : ProgObs) (hs : State.Kept pq s) : State.Kept pq (State.rowStep s pid k p o) := by
  unfold State.rowStep
  repeat' with_reducible first | assumption | apply State.onBough_kept | apply State.onLeaf_kept | apply State.record_kept | apply State.onProg_kept | apply State.failMember_kept | apply State.noteUe_kept | apply State.setStep_kept | apply State.takeSpares_kept | apply State.refColumnFails_kept | apply State.beginPass_kept | apply issues_ok | apply issues_pure | exact issues_error | exact issues_shape | exact issues_throw | apply issues_ite | apply issues_foldlM | apply issues_bind | apply issues_map | apply kept_foldl | apply kept_ite | apply kept_nil | apply kept_putSome | fail_if_no_progress (apply kept_upd) | apply keptFst_mk | apply keptSnd_mk | apply keptFst_ite | apply keptSnd_ite | exact keptOpt_none | apply keptOpt_some | intro _ | split | refine kept_pair (by assumption) ?_ | refine kept_pair2 (by assumption) ?_ | refine kept_opt (by assumption) ?_ | apply kept_fst | apply kept_snd | dsimp only | dsimp only [id] | exact issues_any

theorem State.endPass_kept (s : State) (pid k : Nat) (p : Prog) (bad : List Nat) (hs : State.Kept pq s) : State.Kept pq (State.endPass s pid k p bad) := by
  unfold State.endPass
  repeat' with_reducible first | assumption | apply State.onBough_kept | apply State.onLeaf_kept | apply State.record_kept | apply State.eraseLeaf_kept | apply State.onProg_kept | apply State.failMember_kept | apply State.fenceLeaf_kept | apply State.setStep_kept | apply State.takeSpares_kept | apply State.beginPass_kept | apply issues_ok | apply issues_pure | exact issues_error | exact issues_shape | exact issues_throw | apply issues_ite | apply issues_foldlM | apply issues_bind | apply issues_map | apply kept_foldl | apply kept_ite | apply kept_nil | apply kept_putSome | fail_if_no_progress (apply kept_upd) | apply keptFst_mk | apply keptSnd_mk | apply keptFst_ite | apply keptSnd_ite | exact keptOpt_none | apply keptOpt_some | intro _ | split | refine kept_pair (by assumption) ?_ | refine kept_pair2 (by assumption) ?_ | refine kept_opt (by assumption) ?_ | apply kept_fst | apply kept_snd | dsimp only | dsimp only [id] | exact issues_any

theorem State.repairStep_kept (s : State) (pid k : Nat) (p : Prog) (o : ProgObs) (hs : State.Kept pq s) : State.Kept pq (State.repairStep s pid k p o) := by
  unfold State.repairStep
  repeat' with_reducible first | assumption | apply State.onLeaf_kept | apply State.record_kept | apply State.onProg_kept | apply State.endPass_kept | apply kept_foldl | apply kept_ite | apply keptOpt_some | intro _ | split | dsimp only

theorem State.calibrateStep_kept (s : State) (pid k : Nat) (p : Prog) (o : ProgObs) (hs : State.Kept pq s) : State.Kept pq (State.calibrateStep s pid k p o) := by
  unfold State.calibrateStep
  repeat' with_reducible first | assumption | apply State.onLeaf_kept | apply State.record_kept | apply State.writeLeafRec_kept | apply State.countCycle_kept | apply State.commitMeas_kept | apply State.onProg_kept | apply State.failMember_kept | apply State.failRun_kept | apply State.stageMember_kept | apply State.fenceGroups_kept | apply State.measPhases_kept | apply State.setStep_kept | apply issues_ok | apply issues_pure | exact issues_error | exact issues_shape | exact issues_throw | apply issues_ite | apply issues_foldlM | apply issues_bind | apply issues_map | apply kept_foldl | apply kept_ite | apply kept_nil | apply kept_putSome | fail_if_no_progress (apply kept_upd) | apply keptFst_mk | apply keptSnd_mk | apply keptFst_ite | apply keptSnd_ite | exact keptOpt_none | apply keptOpt_some | intro _ | split | refine kept_pair (by assumption) ?_ | refine kept_pair2 (by assumption) ?_ | refine kept_opt (by assumption) ?_ | apply kept_fst | apply kept_snd | dsimp only | dsimp only [id] | exact issues_any

theorem State.recordTold_kept (s : State) (pid : Nat) (hs : State.Kept pq s) : State.Kept pq (State.recordTold s pid) := by
  unfold State.recordTold
  repeat' with_reducible first | assumption | apply State.setStep_kept | intro _ | split

theorem State.recordRefused_kept (s : State) (pid : Nat) (hs : State.Kept pq s) : State.Kept pq (State.recordRefused s pid) := by
  unfold State.recordRefused
  repeat' with_reducible first | assumption | apply State.failMember_kept | apply State.failRun_kept | apply keptOpt_some | intro _ | split | refine kept_opt (by assumption) ?_ | apply kept_fst

theorem State.progStep_kept (s : State) (pid : Nat) (o : ProgObs) (hs : State.Kept pq s) : State.Kept pq (State.progStep s pid o) := by
  unfold State.progStep
  repeat' with_reducible first | assumption | apply State.onLeaf_kept | apply State.record_kept | apply State.onProg_kept | apply State.stageMember_kept | apply State.acceptStep_kept | apply State.setStep_kept | apply State.takeSpares_kept | apply State.rowStep_kept | apply State.repairStep_kept | apply State.calibrateStep_kept | apply kept_ite | apply keptOpt_some | intro _ | split | refine kept_opt (by assumption) ?_ | apply kept_fst

theorem State.markInvalid_kept (s : State) (k : Nat) (hs : State.Kept pq s) : State.Kept pq (State.markInvalid s k) := by
  unfold State.markInvalid
  repeat' with_reducible first | assumption | apply State.onLeaf_kept | apply State.record_kept | apply State.progStep_kept | apply kept_ite | apply keptOpt_some | intro _

theorem State.recoverLeaf_kept (s : State) (k : Nat) (hs : State.Kept pq s) : State.Kept pq (State.recoverLeaf s k) := by
  unfold State.recoverLeaf
  repeat' with_reducible first | assumption | apply State.onLeaf_kept | apply State.record_kept | apply State.writeLeafRec_kept | apply State.eraseLeaf_kept | apply State.progStep_kept | apply kept_ite | apply keptOpt_some | intro _

theorem State.recoverLeaves_kept (s : State) (ks : List Nat) (hs : State.Kept pq s) : State.Kept pq (State.recoverLeaves s ks) := by
  unfold State.recoverLeaves
  repeat' with_reducible first | assumption | apply State.recoverLeaf_kept | apply kept_foldl | apply keptOpt_some | intro _

theorem State.chooseSlot_kept (s : State) (hs : State.Kept pq s) : State.Kept pq (State.chooseSlot s) := by
  unfold State.chooseSlot
  repeat' with_reducible first | assumption | apply State.onTrunk_kept | apply State.record_kept | apply State.storeRec_kept | apply kept_ite | apply keptOpt_some | intro _

theorem State.deriveIdentity_kept (s : State) (puf : List Byte) (hs : State.Kept pq s) : State.Kept pq (State.deriveIdentity s puf) := by
  unfold State.deriveIdentity
  repeat' with_reducible first | assumption | apply State.onTrunk_kept | apply State.record_kept | intro _ | split

theorem State.copyFactory_kept (s : State) (hs : State.Kept pq s) : State.Kept pq (State.copyFactory s) := by
  unfold State.copyFactory
  repeat' with_reducible first | assumption | apply State.onTrunk_kept | apply State.record_kept | intro _ | split

theorem State.bootRom_kept (s : State) (hs : State.Kept pq s) : State.Kept pq (State.bootRom s) := by
  unfold State.bootRom
  repeat' with_reducible first | assumption | apply State.onTrunk_kept | apply State.chooseSlot_kept | apply State.deriveIdentity_kept | apply State.copyFactory_kept

theorem State.releaseBoot_kept (s : State) (refclk : Bool) (puf : List Byte) (hs : State.Kept pq s) : State.Kept pq (State.releaseBoot s refclk puf) := by
  unfold State.releaseBoot
  repeat' with_reducible first | assumption | apply State.onTrunk_kept | apply State.onPcie_kept | apply State.bootRom_kept | apply kept_ite | apply keptOpt_some | intro _

theorem State.bootHeld_kept (s : State) (hs : State.Kept pq s) : State.Kept pq (State.bootHeld s) := by
  unfold State.bootHeld
  repeat' with_reducible first | assumption | apply State.bootRom_kept | apply kept_ite | apply keptOpt_some | intro _

theorem State.readMap_kept (s : State) (hs : State.Kept pq s) : State.Kept pq (State.readMap s) := by
  unfold State.readMap
  repeat' with_reducible first | assumption | apply State.onTrunk_kept | intro _ | split

theorem State.dropMarked_kept (s : State) (k : Nat) (hs : State.Kept pq s) : State.Kept pq (State.dropMarked s k) := by
  unfold State.dropMarked
  repeat' with_reducible first | assumption | apply State.onTrunk_kept | apply State.record_kept | intro _ | split

theorem State.readLeaves_kept (s : State) (hs : State.Kept pq s) : State.Kept pq (State.readLeaves s) := by
  unfold State.readLeaves
  repeat' with_reducible first | assumption | apply State.onLeaf_kept | apply State.markInvalid_kept | apply State.readMap_kept | apply State.dropMarked_kept | apply kept_foldl | apply keptOpt_some | intro _

theorem State.applyFences_kept (s : State) (hs : State.Kept pq s) : State.Kept pq (State.applyFences s) := by
  unfold State.applyFences
  repeat' with_reducible first | assumption | apply State.onStand_kept | apply State.onBough_kept | apply kept_foldl | apply kept_ite | apply keptOpt_some | intro _

theorem State.bootRecords_kept (s : State) (hs : State.Kept pq s) : State.Kept pq (State.bootRecords s) := by
  unfold State.bootRecords
  repeat' with_reducible first | assumption | apply State.onBud_kept | apply State.onStore_kept | apply State.record_kept | apply kept_foldl | apply kept_ite | apply keptOpt_some | intro _

theorem State.powerBoughs_kept (s : State) (hs : State.Kept pq s) : State.Kept pq (State.powerBoughs s) := by
  unfold State.powerBoughs
  repeat' with_reducible first | assumption | apply State.onBough_kept | apply kept_foldl | apply keptOpt_some | intro _

theorem State.trainPorts_kept (s : State) (hs : State.Kept pq s) : State.Kept pq (State.trainPorts s) := by
  unfold State.trainPorts
  repeat' with_reducible first | assumption | apply State.onAel_kept | apply State.onPort_kept | apply kept_foldl | apply keptOpt_some | intro _ | split | dsimp only

theorem State.startFirmware_kept (s : State) (slot : Nat) (recovery : Bool) (hs : State.Kept pq s) : State.Kept pq (State.startFirmware s slot recovery) := by
  unfold State.startFirmware
  repeat' with_reducible first | assumption | apply State.onBough_kept | apply State.onTrunk_kept | apply State.readLeaves_kept | apply State.applyFences_kept | apply State.bootRecords_kept | apply State.powerBoughs_kept | apply kept_foldl | apply kept_ite | apply keptOpt_some | intro _

theorem State.readBackLeaf_kept (s : State) (k : Nat) (diff : SMap Nat) (hs : State.Kept pq s) : State.Kept pq (State.readBackLeaf s k diff) := by
  unfold State.readBackLeaf
  repeat' with_reducible first | assumption | apply State.onLeaf_kept | apply State.record_kept | apply State.fenceLeaf_kept | apply kept_ite | apply keptOpt_some | intro _

theorem State.checkLeaves_kept (s : State) (ks : List Nat) (refs : SMap (List Nat)) (mon : SMap (SMap Int)) (hs : State.Kept pq s) : State.Kept pq (State.checkLeaves s ks refs mon) := by
  unfold State.checkLeaves
  repeat' with_reducible first | assumption | apply State.selfCheck_kept | apply kept_foldl | apply keptOpt_some | intro _

theorem State.startCal_kept (s : State) (k : Nat) (o : MeasObs) (hs : State.Kept pq s) : State.Kept pq (State.startCal s k o) := by
  unfold State.startCal
  repeat' with_reducible first | assumption | apply State.onLeaf_kept | apply State.commitMeas_kept | apply State.fenceColumns_kept | apply State.measPhases_kept | apply keptOpt_some | intro _ | split | dsimp only

theorem State.startCals_kept (s : State) (meas : SMap MeasObs) (hs : State.Kept pq s) : State.Kept pq (State.startCals s meas) := by
  unfold State.startCals
  repeat' with_reducible first | assumption | apply State.startCal_kept | apply kept_foldl | apply keptOpt_some | intro _

theorem State.trainHbm_kept (s : State) (untrained : List Nat) (hs : State.Kept pq s) : State.Kept pq (State.trainHbm s untrained) := by
  unfold State.trainHbm
  repeat' with_reducible first | assumption | apply State.onStand_kept | apply State.fenceRecord_kept | apply State.fenceStand_kept | apply kept_foldl | apply kept_ite | apply keptOpt_some | intro _

theorem State.becomeReady_kept (s : State) (o : StartObs) (hs : State.Kept pq s) : State.Kept pq (State.becomeReady s o) := by
  unfold State.becomeReady
  repeat' with_reducible first | assumption | apply State.onTrunk_kept | apply State.onPcie_kept | apply State.emit_kept

theorem State.dropWrites_kept (s : State) (hs : State.Kept pq s) : State.Kept pq (State.dropWrites s) := by
  unfold State.dropWrites
  repeat' with_reducible first | assumption | apply State.onStore_kept

theorem State.coldState_kept (s : State) (hs : State.Kept pq s) : State.Kept pq (State.coldState s) := by
  have h := State.dropWrites_kept s hs
  exact ⟨rfl, h.2⟩

theorem State.powerOff_kept (s : State) (kept : Nat) (hs : State.Kept pq s) : State.Kept pq (State.powerOff s kept) := by exact ⟨rfl, hs.2⟩

theorem State.coldReset_kept (s : State) (hs : State.Kept pq s) : State.Kept pq (State.coldReset s) := by
  unfold State.coldReset
  repeat' with_reducible first | assumption | apply State.onTrunk_kept | apply State.coldState_kept

theorem execVinApplied_kept (straps : BitVec 2) (s : State) (hs : State.Kept pq s) (t' : State) (h' : execVinApplied straps s = .next t') : State.Kept pq t' := by
  unfold execVinApplied at h'
  cases h'
  repeat' with_reducible first | assumption | apply State.onTrunk_kept | apply State.onMgmt_kept | apply kept_ite | apply keptOpt_some | intro _

theorem execStoreRecoveryDone_kept (timeUs : BitVec 16) (s : State) (hs : State.Kept pq s) (t' : State) (h' : execStoreRecoveryDone timeUs s = .next t') : State.Kept pq t' := by
  unfold execStoreRecoveryDone at h'
  cases h'
  repeat' with_reducible first | assumption | apply State.onBud_kept | apply State.onTrunk_kept | apply State.onStore_kept | apply State.onAel_kept | apply State.storeWrite_kept | apply kept_ite | apply keptOpt_some | intro _

theorem execLossOf12V_kept (kept : Nat) (s : State) (hs : State.Kept pq s) (t' : State) (h' : execLossOf12V kept s = .next t') : State.Kept pq t' := by
  unfold execLossOf12V at h'
  cases h'
  repeat' with_reducible first | assumption | apply State.onBud_kept | apply State.powerOff_kept | apply kept_ite | apply keptOpt_some | intro _

theorem execRailFault_kept (kept : Nat) (s : State) (hs : State.Kept pq s) (t' : State) (h' : execRailFault kept s = .next t') : State.Kept pq t' := by
  unfold execRailFault at h'
  cases h'
  repeat' with_reducible first | assumption | apply State.onBud_kept | apply State.powerOff_kept | apply kept_ite | apply keptOpt_some | intro _

theorem execPerstNAssert_kept (s : State) (hs : State.Kept pq s) (t' : State) (h' : execPerstNAssert s = .next t') : State.Kept pq t' := by
  unfold execPerstNAssert at h'
  cases h'
  repeat' with_reducible first | assumption | apply State.onBud_kept | apply State.coldReset_kept | apply kept_ite | apply keptOpt_some | intro _

theorem execPerstNDeassert_kept (refclk : Bool) (puf : List Byte) (s : State) (hs : State.Kept pq s) (t' : State) (h' : execPerstNDeassert refclk puf s = .next t') : State.Kept pq t' := by
  unfold execPerstNDeassert at h'
  cases h'
  repeat' with_reducible first | assumption | apply State.onBud_kept | apply State.releaseBoot_kept | apply kept_ite | apply keptOpt_some | intro _

theorem execStartupStageDone_kept (o : StartObs) (s : State) (hs : State.Kept pq s) (t' : State) (h' : execStartupStageDone o s = .next t') : State.Kept pq t' := by
  unfold execStartupStageDone at h'
  cases h'
  repeat' with_reducible first | assumption | apply State.onLeaf_kept | apply State.onTrunk_kept | apply State.selfCheck_kept | apply State.recoverLeaves_kept | apply State.trainPorts_kept | apply State.startFirmware_kept | apply State.readBackLeaf_kept | apply State.checkLeaves_kept | apply State.startCals_kept | apply State.trainHbm_kept | apply State.becomeReady_kept | apply issues_ok | apply issues_pure | exact issues_error | exact issues_shape | exact issues_throw | apply issues_ite | apply issues_foldlM | apply issues_bind | apply issues_map | apply kept_foldl | apply kept_ite | apply kept_nil | apply kept_putSome | fail_if_no_progress (apply kept_upd) | apply keptFst_mk | apply keptSnd_mk | apply keptFst_ite | apply keptSnd_ite | exact keptOpt_none | apply keptOpt_some | intro _ | split | refine kept_pair (by assumption) ?_ | refine kept_pair2 (by assumption) ?_ | refine kept_opt (by assumption) ?_ | apply kept_fst | apply kept_snd | dsimp only | dsimp only [id] | exact issues_any

theorem execFwSlotConfirm_kept (s : State) (hs : State.Kept pq s) (t' : State) (h' : execFwSlotConfirm s = .next t') : State.Kept pq t' := by
  unfold execFwSlotConfirm at h'
  cases h'
  repeat' with_reducible first | assumption | apply State.onTrunk_kept | apply State.storeRec_kept | apply kept_ite | apply keptOpt_some | intro _

theorem execXmssSubtreeBuildDone_kept (s : State) (hs : State.Kept pq s) (t' : State) (h' : execXmssSubtreeBuildDone s = .next t') : State.Kept pq t' := by
  unfold execXmssSubtreeBuildDone at h'
  cases h'
  repeat' with_reducible first | assumption | apply State.onTrunk_kept | apply State.onMgmt_kept | apply State.answer_kept | apply State.quote_kept | apply kept_foldl | apply kept_ite | apply keptOpt_some | intro _

end Sys2Proof.Machine
end

