-- ==== Sys2Proof/Laws/Kept5.lean ====
section
/-! SUPPORT. Memory and the waiting commands are kept by the operations of Programming, Calibration, TestOps, CollRun, LongOps, Dumps, Retire, Tasks. -/

namespace Sys2Proof.Machine

variable {pq : List Instr}

theorem execProgramLeaf_kept (q : Nat) (s : State) (hs : State.Kept pq s) (t' : State) (h' : execProgramLeaf q s = .next t') : State.Kept pq t' := by
  unfold execProgramLeaf at h'
  cases h'
  repeat' with_reducible first | assumption | apply State.onBough_kept | apply State.onTrunk_kept | apply State.acceptOp_kept | apply State.popCommand_kept | apply State.refuseCommand_kept | apply State.serveCommand_kept | apply State.onProg_kept | apply State.onGroup_kept | apply State.newProg_kept | apply keptOpt_some | intro _ | split | refine kept_opt (by assumption) ?_ | apply kept_fst | dsimp only

theorem execProgStepDone_kept (pid : Nat) (o : ProgObs) (s : State) (hs : State.Kept pq s) (t' : State) (h' : execProgStepDone pid o s = .next t') : State.Kept pq t' := by
  unfold execProgStepDone at h'
  cases h'
  repeat' with_reducible first | assumption | apply State.progStep_kept | apply kept_ite | apply keptOpt_some | intro _

theorem execSpareLeafFreed_kept (b : Nat) (s : State) (hs : State.Kept pq s) (t' : State) (h' : execSpareLeafFreed b s = .next t') : State.Kept pq t' := by
  unfold execSpareLeafFreed at h'
  cases h'
  repeat' with_reducible first | assumption | apply State.acceptStep_kept | apply kept_ite | apply keptOpt_some | intro _ | split

theorem execLeafSwap_kept (b : Nat) (s : State) (hs : State.Kept pq s) (t' : State) (h' : execLeafSwap b s = .next t') : State.Kept pq t' := by
  unfold execLeafSwap at h'
  cases h'
  repeat' with_reducible first | assumption | apply State.applySwaps_kept | apply kept_ite | apply keptOpt_some | intro _

theorem execRefDriftBlockEnd_kept (b l : Nat) (s : State) (hs : State.Kept pq s) (t' : State) (h' : execRefDriftBlockEnd b l s = .next t') : State.Kept pq t' := by
  unfold execRefDriftBlockEnd at h'
  cases h'
  repeat' with_reducible first | assumption | apply State.endDriftBlock_kept | apply kept_ite | apply keptOpt_some | intro _

theorem execRecalSpacingEnd_kept (b l : Nat) (s : State) (hs : State.Kept pq s) (t' : State) (h' : execRecalSpacingEnd b l s = .next t') : State.Kept pq t' := by
  unfold execRecalSpacingEnd at h'
  cases h'
  repeat' with_reducible first | assumption | apply State.onLeaf_kept | apply State.trigger_kept | apply keptOpt_some | intro _ | split

theorem execCalMeasurementDone_kept (b l : Nat) (o : MeasObs) (s : State) (hs : State.Kept pq s) (t' : State) (h' : execCalMeasurementDone b l o s = .next t') : State.Kept pq t' := by
  unfold execCalMeasurementDone at h'
  cases h'
  repeat' with_reducible first | assumption | apply State.onLeaf_kept | apply State.dropMeas_kept | apply State.fenceColumns_kept | apply State.measPhases_kept | apply kept_ite | apply keptOpt_some | intro _ | split | dsimp only

theorem execCalCommit_kept (b l : Nat) (s : State) (hs : State.Kept pq s) (t' : State) (h' : execCalCommit b l s = .next t') : State.Kept pq t' := by
  unfold execCalCommit at h'
  cases h'
  repeat' with_reducible first | assumption | apply State.commitMeas_kept | apply State.calibEnd_kept | apply State.dropMeas_kept | apply kept_ite | apply keptOpt_some | intro _ | split | dsimp only

theorem execCalibrate_kept (q : Nat) (s : State) (hs : State.Kept pq s) (t' : State) (h' : execCalibrate q s = .next t') : State.Kept pq t' := by
  unfold execCalibrate at h'
  cases h'
  repeat' with_reducible first | assumption | apply State.acceptOp_kept | apply State.popCommand_kept | apply State.refuseCommand_kept | apply State.serveCommand_kept | apply State.calibTurn_kept | apply kept_ite | apply keptOpt_some | intro _ | split | refine kept_opt (by assumption) ?_ | apply kept_fst

theorem execCalibrateLoadTimeout_kept (h : Nat) (s : State) (hs : State.Kept pq s) (t' : State) (h' : execCalibrateLoadTimeout h s = .next t') : State.Kept pq t' := by
  unfold execCalibrateLoadTimeout at h'
  cases h'
  repeat' with_reducible first | assumption | apply State.onOp_kept | apply State.calibTurn_kept | apply keptOpt_some | intro _ | split

theorem State.onFtests_kept (s : State) (g : FTestOp → FTestOp) (hs : State.Kept pq s) : State.Kept pq (State.onFtests s g) := by
  unfold State.onFtests
  repeat' with_reducible first | assumption | apply State.onOp_kept | apply State.endOp_kept | apply kept_foldl | apply kept_ite | apply keptOpt_some | intro _

theorem State.ftestForget_kept (s : State) (f : FTestOp) (hs : State.Kept pq s) : State.Kept pq (State.ftestForget s f) := by
  unfold State.ftestForget
  repeat' with_reducible first | assumption | apply State.onBough_kept | apply State.onLeaf_kept | apply kept_foldl | apply keptOpt_some | intro _

theorem State.ftResult_kept (s : State) (unit : Word) (src part partner third step : Nat) (hs : State.Kept pq s) : State.Kept pq (State.ftResult s unit src part partner third step) := by
  unfold State.ftResult
  repeat' with_reducible first | assumption | apply State.record_kept

theorem State.sweepPhases_kept (s : State) (k : Nat) (codes : List Nat) (o : LeafPartObs) (hs : State.Kept pq s) : State.Kept pq (State.sweepPhases s k codes o) := by
  unfold State.sweepPhases
  repeat' with_reducible first | assumption | apply State.trunkDrive_kept | apply keptOpt_some | intro _

theorem State.leafSteps_kept (s : State) (k : Nat) (o : LeafPartObs) (hs : State.Kept pq s) : KeptFst pq (State.leafSteps s k o) := by
  unfold State.leafSteps
  repeat' with_reducible first | assumption | apply State.fenceLeaf_kept | apply State.measPhases_kept | apply State.selfCheck_kept | apply State.judgeColumns_kept | apply State.sweepPhases_kept | apply issues_ok | apply issues_pure | exact issues_error | exact issues_shape | exact issues_throw | apply issues_ite | apply issues_foldlM | apply issues_bind | apply issues_map | apply kept_foldl | apply kept_ite | apply kept_nil | apply kept_putSome | fail_if_no_progress (apply kept_upd) | apply keptFst_mk | apply keptSnd_mk | apply keptFst_ite | apply keptSnd_ite | exact keptOpt_none | apply keptOpt_some | intro _ | split | refine kept_pair (by assumption) ?_ | refine kept_pair2 (by assumption) ?_ | refine kept_opt (by assumption) ?_ | apply kept_fst | apply kept_snd | dsimp only | dsimp only [id] | exact issues_any

theorem State.leafPart_kept (s : State) (k : Nat) (o : LeafPartObs) (hs : State.Kept pq s) : State.Kept pq (State.leafPart s k o) := by
  unfold State.leafPart
  repeat' with_reducible first | assumption | apply State.onLeaf_kept | apply State.onFtests_kept | apply State.ftResult_kept | apply State.leafSteps_kept | apply issues_ok | apply issues_pure | exact issues_error | exact issues_shape | exact issues_throw | apply issues_ite | apply issues_foldlM | apply issues_bind | apply issues_map | apply kept_foldl | apply kept_ite | apply kept_nil | apply kept_putSome | fail_if_no_progress (apply kept_upd) | apply keptFst_mk | apply keptSnd_mk | apply keptFst_ite | apply keptSnd_ite | exact keptOpt_none | apply keptOpt_some | intro _ | split | refine kept_pair (by assumption) ?_ | refine kept_pair2 (by assumption) ?_ | refine kept_opt (by assumption) ?_ | apply kept_fst | apply kept_snd | dsimp only | dsimp only [id] | exact issues_any

theorem State.unfenceLeaf_kept (s : State) (k : Nat) (o : LeafPartObs) (hs : State.Kept pq s) : State.Kept pq (State.unfenceLeaf s k o) := by
  unfold State.unfenceLeaf
  repeat' with_reducible first | assumption | apply State.onLeaf_kept | apply State.record_kept | apply State.writeLeafRec_kept | apply State.eraseLeaf_kept | apply State.onFtests_kept | apply State.ftResult_kept | apply State.leafSteps_kept | apply issues_ok | apply issues_pure | exact issues_error | exact issues_shape | exact issues_throw | apply issues_ite | apply issues_foldlM | apply issues_bind | apply issues_map | apply kept_foldl | apply kept_ite | apply kept_nil | apply kept_putSome | fail_if_no_progress (apply kept_upd) | apply keptFst_mk | apply keptSnd_mk | apply keptFst_ite | apply keptSnd_ite | exact keptOpt_none | apply keptOpt_some | intro _ | split | refine kept_pair (by assumption) ?_ | refine kept_pair2 (by assumption) ?_ | refine kept_opt (by assumption) ?_ | apply kept_fst | apply kept_snd | dsimp only | dsimp only [id] | exact issues_any

theorem State.fullVerify_kept (s : State) (k : Nat) (levels : SMap Nat) (hs : State.Kept pq s) : State.Kept pq (State.fullVerify s k levels) := by
  unfold State.fullVerify
  repeat' with_reducible first | assumption | apply State.onLeaf_kept | apply State.record_kept | apply State.fenceLeaf_kept | apply State.onFtests_kept | apply kept_ite | apply keptOpt_some | intro _

theorem State.startLogic_kept (s : State) (b : Nat) (hs : State.Kept pq s) : State.Kept pq (State.startLogic s b) := by
  unfold State.startLogic
  repeat' with_reducible first | assumption | apply State.onBough_kept | apply kept_ite | apply keptOpt_some | intro _ | split

theorem State.settleTests_kept (s : State) (hs : State.Kept pq s) : State.Kept pq (State.settleTests s) := by
  unfold State.settleTests
  repeat' with_reducible first | assumption | apply State.onBough_kept | apply State.startLogic_kept | apply kept_foldl | apply kept_ite | apply keptOpt_some | intro _

theorem State.unfenceBough_kept (s : State) (b : Nat) (hs : State.Kept pq s) : State.Kept pq (State.unfenceBough s b) := by
  unfold State.unfenceBough
  repeat' with_reducible first | assumption | apply State.onStand_kept | apply State.onBough_kept | apply State.fenceRecord_kept | apply kept_ite | apply keptOpt_some | intro _

theorem State.logicVerdict_kept (s : State) (b : Nat) (d1 d2 d3 : DWord) (hs : State.Kept pq s) : State.Kept pq (State.logicVerdict s b d1 d2 d3) := by
  unfold State.logicVerdict
  repeat' with_reducible first | assumption | apply State.onBough_kept | apply State.fenceBough_kept | apply State.onFtests_kept | apply State.ftResult_kept | apply State.settleTests_kept | apply State.unfenceBough_kept | apply kept_foldl | apply kept_ite | apply keptOpt_some | intro _ | split | dsimp only

theorem State.ftestTurn_kept (s : State) (hs : State.Kept pq s) : State.Kept pq (State.ftestTurn s) := by
  unfold State.ftestTurn
  repeat' with_reducible first | assumption | apply State.onBough_kept | apply State.onLeaf_kept | apply State.record_kept | apply State.onFtests_kept | apply State.settleTests_kept | apply kept_foldl | apply keptOpt_some | intro _ | split

theorem State.passOn_kept (s : State) (fromPort : Nat) (m : AelMsg) (hs : State.Kept pq s) : State.Kept pq (State.passOn s fromPort m) := by
  unfold State.passOn
  repeat' with_reducible first | assumption | apply State.portSend_kept | apply keptOpt_some | intro _

theorem State.relay_kept (s : State) (m : AelMsg) (hs : State.Kept pq s) : State.Kept pq (State.relay s m) := by
  unfold State.relay
  repeat' with_reducible first | assumption | apply State.passOn_kept | apply kept_ite | apply keptOpt_some | intro _

theorem State.openRun_kept (s : State) (idx : Nat) (hs : State.Kept pq s) : State.Kept pq (State.openRun s idx) := by
  unfold State.openRun
  repeat' with_reducible first | assumption | apply State.onAel_kept | apply State.onArmed_kept | intro _ | split

theorem State.holdEarly_kept (s : State) (port : Nat) (sideB : Bool) (m : AelMsg) (hs : State.Kept pq s) : State.Kept pq (State.holdEarly s port sideB m) := by
  unfold State.holdEarly
  repeat' with_reducible first | assumption | apply State.onAel_kept

theorem State.arrive_kept (s : State) (dev idx stand : Nat) (sig : List Byte) (hs : State.Kept pq s) : State.Kept pq (State.arrive s dev idx stand sig) := by
  unfold State.arrive
  repeat' with_reducible first | assumption | apply State.onAel_kept | apply State.onRun_kept | apply State.endEverywhere_kept | apply State.mgrProgress_kept | apply State.mgrAll_kept | apply State.openRun_kept | apply State.holdEarly_kept | apply keptOpt_some | intro _ | split

theorem State.confirm_kept (s : State) (dev idx : Nat) (hs : State.Kept pq s) : State.Kept pq (State.confirm s dev idx) := by
  unfold State.confirm
  repeat' with_reducible first | assumption | apply State.onRun_kept | apply State.mgrProgress_kept | apply State.mgrAll_kept | apply kept_ite | apply keptOpt_some | intro _

theorem State.badDigest_kept (s : State) (idx dev port : Nat) (hs : State.Kept pq s) : State.Kept pq (State.badDigest s idx dev port) := by
  unfold State.badDigest
  repeat' with_reducible first | assumption | apply State.onAel_kept | apply State.record_kept | apply State.sendUp_kept | apply State.mgrDigest_kept | apply kept_ite | apply keptOpt_some | intro _

theorem State.keepPart_kept (s : State) (idx key dev port : Nat) (data : List Byte) (digest : DWord) (go : State → State) (hs : State.Kept pq s) (hgo : ∀ s0, State.Kept pq s0 → State.Kept pq (go s0)) : State.Kept pq (State.keepPart s idx key dev port data digest go) := by
  unfold State.keepPart
  repeat' with_reducible first | assumption | apply State.onRun_kept | apply State.openRun_kept | apply State.badDigest_kept | apply hgo | apply kept_ite | apply keptOpt_some | intro _

theorem State.mgrTransfer_kept (s : State) (port : Nat) (sideB : Bool) (a : Armed) (x : Xfer) (hs : State.Kept pq s) : State.Kept pq (State.mgrTransfer s port sideB a x) := by
  unfold State.mgrTransfer
  repeat' with_reducible first | assumption | apply State.mgrProgress_kept | apply State.mgrAll_kept | apply State.keepPart_kept | apply kept_ite | apply keptOpt_some | intro _

theorem State.workerTransfer_kept (s : State) (port : Nat) (a : Armed) (x : Xfer) (hs : State.Kept pq s) : State.Kept pq (State.workerTransfer s port a x) := by
  unfold State.workerTransfer
  repeat' with_reducible first | assumption | apply State.workerSend_kept | apply State.workerWhole_kept | apply State.keepPart_kept | apply kept_ite | apply keptOpt_some | intro _

theorem State.relayData_kept (s : State) (port : Nat) (x : Xfer) (hs : State.Kept pq s) : State.Kept pq (State.relayData s port x) := by
  unfold State.relayData
  repeat' with_reducible first | assumption | apply State.passOn_kept | apply kept_ite | apply keptOpt_some | intro _

theorem State.takeTransfer_kept (s : State) (port : Nat) (sideB : Bool) (x : Xfer) (hs : State.Kept pq s) : State.Kept pq (State.takeTransfer s port sideB x) := by
  unfold State.takeTransfer
  repeat' with_reducible first | assumption | apply State.passOn_kept | apply State.holdEarly_kept | apply State.mgrTransfer_kept | apply State.workerTransfer_kept | apply State.relayData_kept | apply kept_ite | apply keptOpt_some | intro _ | split | dsimp only

theorem State.runAgain_kept (s : State) (idx : Nat) (hs : State.Kept pq s) : State.Kept pq (State.runAgain s idx) := by
  unfold State.runAgain
  repeat' with_reducible first | assumption | apply State.onRun_kept | apply State.workerSend_kept | apply keptOpt_some | intro _ | split

theorem State.takeRelease_kept (s : State) (idx : Nat) (status : Byte) (dev stand : Nat) (hs : State.Kept pq s) : State.Kept pq (State.takeRelease s idx status dev stand) := by
  unfold State.takeRelease
  repeat' with_reducible first | assumption | apply State.onRun_kept | apply State.failRunHere_kept | apply kept_ite | apply keptOpt_some | intro _

theorem State.armResult_kept (s : State) (code : Nat) (hs : State.Kept pq s) : State.Kept pq (State.armResult s code) := by
  unfold State.armResult
  repeat' with_reducible first | assumption | apply State.onAel_kept

theorem State.unwaitColl_kept (s : State) (idx : Nat) (hs : State.Kept pq s) : State.Kept pq (State.unwaitColl s idx) := by
  unfold State.unwaitColl
  repeat' with_reducible first | assumption | apply State.onQue_kept

theorem State.takeEarly_kept (s : State) (idx : Nat) (hs : State.Kept pq s) : State.Kept pq (State.takeEarly s idx) := by
  unfold State.takeEarly
  repeat' with_reducible first | assumption | apply State.onAel_kept | apply State.passOn_kept | apply State.arrive_kept | apply State.mgrTransfer_kept | apply State.workerTransfer_kept | apply kept_foldl | apply keptOpt_some | intro _ | split

theorem State.armEntry_kept (s : State) (idx : Nat) (hs : State.Kept pq s) : State.Kept pq (State.armEntry s idx) := by
  unfold State.armEntry
  repeat' with_reducible first | assumption | apply State.onAel_kept | apply State.pokeNat_kept | apply State.reportUe_kept | apply State.armWait_kept | apply State.settleQueues_kept | apply State.armResult_kept | apply State.unwaitColl_kept | apply State.takeEarly_kept | apply kept_ite | apply keptOpt_some | intro _ | split

theorem State.disarmEntry_kept (s : State) (idx : Nat) (hs : State.Kept pq s) : State.Kept pq (State.disarmEntry s idx) := by
  unfold State.disarmEntry
  repeat' with_reducible first | assumption | apply State.onAel_kept | apply State.armResult_kept | apply State.unwaitColl_kept | apply keptOpt_some | intro _ | split

theorem State.retryArm_kept (s : State) (hs : State.Kept pq s) : State.Kept pq (State.retryArm s) := by
  unfold State.retryArm
  repeat' with_reducible first | assumption | apply State.armEntry_kept | apply kept_ite | apply keptOpt_some | intro _

theorem State.endCollRun_kept (s : State) (idx : Nat) (hs : State.Kept pq s) : State.Kept pq (State.endCollRun s idx) := by
  unfold State.endCollRun
  repeat' with_reducible first | assumption | apply State.onAel_kept | apply State.pokeNat_kept | apply State.hbmWrite_kept | apply State.mgrAll_kept | apply State.signalKnot_kept | apply State.armWait_kept | apply State.failWaiters_kept | apply State.settleQueues_kept | apply keptOpt_some | intro _ | split

theorem State.suspendMember_kept (s : State) (pid : Nat) (hs : State.Kept pq s) : State.Kept pq (State.suspendMember s pid) := by
  unfold State.suspendMember
  repeat' with_reducible first | assumption | apply State.onLeaf_kept | apply State.onProg_kept | apply State.progStep_kept | apply kept_ite | apply keptOpt_some | intro _ | split | dsimp only

theorem State.requeueMember_kept (s : State) (b pid : Nat) (hs : State.Kept pq s) : State.Kept pq (State.requeueMember s b pid) := by
  unfold State.requeueMember
  repeat' with_reducible first | assumption | apply State.onBough_kept

theorem State.resumeMember_kept (s : State) (pid : Nat) (hs : State.Kept pq s) : State.Kept pq (State.resumeMember s pid) := by
  unfold State.resumeMember
  repeat' with_reducible first | assumption | apply State.onLeaf_kept | apply State.countCycle_kept | apply State.onProg_kept | apply State.progStep_kept | apply State.requeueMember_kept | apply kept_ite | apply keptOpt_some | intro _ | split | dsimp only

theorem State.suspendOp_kept (s : State) (h : Nat) (hs : State.Kept pq s) : KeptSnd pq (State.suspendOp s h) := by
  unfold State.suspendOp
  repeat' with_reducible first | assumption | apply State.onOp_kept | apply State.suspendCalib_kept | apply State.suspendMember_kept | apply issues_ok | apply issues_pure | exact issues_error | exact issues_shape | exact issues_throw | apply issues_ite | apply issues_foldlM | apply issues_bind | apply issues_map | apply kept_foldl | apply kept_ite | apply kept_nil | apply kept_putSome | fail_if_no_progress (apply kept_upd) | apply keptFst_mk | apply keptSnd_mk | apply keptFst_ite | apply keptSnd_ite | exact keptOpt_none | apply keptOpt_some | intro _ | split | refine kept_pair (by assumption) ?_ | refine kept_pair2 (by assumption) ?_ | refine kept_opt (by assumption) ?_ | apply kept_fst | apply kept_snd | dsimp only | dsimp only [id] | exact issues_any

theorem State.resumeOp_kept (s : State) (h : Nat) (hs : State.Kept pq s) : KeptSnd pq (State.resumeOp s h) := by
  unfold State.resumeOp
  repeat' with_reducible first | assumption | apply State.onOp_kept | apply State.calibTurn_kept | apply State.resumeCalib_kept | apply State.settleTests_kept | apply State.resumeMember_kept | apply issues_ok | apply issues_pure | exact issues_error | exact issues_shape | exact issues_throw | apply issues_ite | apply issues_foldlM | apply issues_bind | apply issues_map | apply kept_foldl | apply kept_ite | apply kept_nil | apply kept_putSome | fail_if_no_progress (apply kept_upd) | apply keptFst_mk | apply keptSnd_mk | apply keptFst_ite | apply keptSnd_ite | exact keptOpt_none | apply keptOpt_some | intro _ | split | refine kept_pair (by assumption) ?_ | refine kept_pair2 (by assumption) ?_ | refine kept_opt (by assumption) ?_ | apply kept_fst | apply kept_snd | dsimp only | dsimp only [id] | exact issues_any

theorem State.cancelOp_kept (s : State) (h : Nat) (t : State) (ht : State.Kept pq t) : State.Kept pq ((State.cancelOp s h).2 t) := by
  unfold State.cancelOp
  repeat' (first | with_reducible assumption | with_reducible apply State.failMember_kept | with_reducible apply State.endOp_kept | with_reducible apply State.ftestForget_kept | with_reducible apply State.calibLeaf_kept | with_reducible apply State.leaveMeas_kept | with_reducible apply State.onLeaf_kept | with_reducible apply State.onTrunk_kept | with_reducible apply kept_foldl | with_reducible apply kept_ite | (refine kept_fst (State.failRun_kept _ _ _ _ ?_)) | intro _ | split | dsimp only [id])

theorem execSuspend_kept (q : Nat) (s : State) (hs : State.Kept pq s) (t' : State) (h' : execSuspend q s = .next t') : State.Kept pq t' := by
  unfold execSuspend at h'
  cases h'
  repeat' with_reducible first | assumption | apply State.refuseCommand_kept | apply State.serveCommand_kept | apply State.suspendOp_kept | apply keptOpt_some | intro _ | split | apply kept_fst | apply kept_snd

theorem execResume_kept (q : Nat) (s : State) (hs : State.Kept pq s) (t' : State) (h' : execResume q s = .next t') : State.Kept pq t' := by
  unfold execResume at h'
  cases h'
  repeat' with_reducible first | assumption | apply State.refuseCommand_kept | apply State.serveCommand_kept | apply State.resumeOp_kept | apply keptOpt_some | intro _ | split | apply kept_fst | apply kept_snd

theorem execCancel_kept (q : Nat) (s : State) (hs : State.Kept pq s) (t' : State) (h' : execCancel q s = .next t') : State.Kept pq t' := by
  unfold execCancel at h'
  cases h'
  repeat' with_reducible first | assumption | apply State.refuseCommand_kept | apply State.serveCommand_kept | apply State.cancelOp_kept | apply keptOpt_some | intro _ | split | dsimp only | dsimp only [id]

theorem execDumpUnitTimeout_kept (s : State) (hs : State.Kept pq s) (t' : State) (h' : execDumpUnitTimeout s = .next t') : State.Kept pq t' := by
  unfold execDumpUnitTimeout at h'
  cases h'
  repeat' with_reducible first | assumption | apply State.onStand_kept | apply State.dumpSection_kept | intro _ | split

theorem execDump_kept (q : Nat) (s : State) (hs : State.Kept pq s) (t' : State) (h' : execDump q s = .next t') : State.Kept pq t' := by
  unfold execDump at h'
  cases h'
  repeat' with_reducible first | assumption | apply State.onTrunk_kept | apply State.acceptOp_kept | apply State.popCommand_kept | apply State.refuseCommand_kept | apply State.serveCommand_kept | apply kept_ite | apply keptOpt_some | intro _ | refine kept_opt (by assumption) ?_ | apply kept_fst

theorem execDumpUnitRead_kept (us : Word) (payload : List Byte) (s : State) (hs : State.Kept pq s) (t' : State) (h' : execDumpUnitRead us payload s = .next t') : State.Kept pq t' := by
  unfold execDumpUnitRead at h'
  cases h'
  repeat' with_reducible first | assumption | apply State.dumpSection_kept

theorem execPointerValueArrival_kept (b : Nat) (s : State) (hs : State.Kept pq s) (t' : State) (h' : execPointerValueArrival b s = .next t') : State.Kept pq t' := by
  unfold execPointerValueArrival at h'
  cases h'
  repeat' with_reducible first | assumption | apply State.onBough_kept | apply State.reportUe_kept | apply State.ueReset_kept | apply State.faultTask_kept | apply State.issueAny_kept | apply keptOpt_some | intro _ | split | dsimp only

theorem execHoldLinesFreed_kept (b : Nat) (s : State) (hs : State.Kept pq s) (t' : State) (h' : execHoldLinesFreed b s = .next t') : State.Kept pq t' := by
  unfold execHoldLinesFreed at h'
  cases h'
  repeat' with_reducible first | assumption | apply State.issueAny_kept | apply kept_ite | apply keptOpt_some | intro _

theorem execEpochRetire_kept (b : Nat) (s : State) (hs : State.Kept pq s) (t' : State) (h' : execEpochRetire b s = .next t') : State.Kept pq t' := by
  unfold execEpochRetire at h'
  cases h'
  repeat' with_reducible first | assumption | apply State.judgeOldest_kept | apply State.settleQueues_kept | apply kept_ite | apply keptOpt_some | intro _

theorem execHeldLineRelease_kept (b : Nat) (accepted parityBad : Bool) (s : State) (hs : State.Kept pq s) (t' : State) (h' : execHeldLineRelease b accepted parityBad s = .next t') : State.Kept pq t' := by
  unfold execHeldLineRelease at h'
  cases h'
  repeat' with_reducible first | assumption | apply State.releaseLine_kept | apply State.settleQueues_kept | apply kept_ite | apply keptOpt_some | intro _

theorem execDrainEnd_kept (b : Nat) (s : State) (hs : State.Kept pq s) (t' : State) (h' : execDrainEnd b s = .next t') : State.Kept pq t' := by
  unfold execDrainEnd at h'
  cases h'
  repeat' with_reducible first | assumption | apply State.endDrain_kept | apply State.settleTests_kept | apply kept_ite | apply keptOpt_some | intro _

theorem execRangeRestoreWindow_kept (b l : Nat) (second : Bool) (s : State) (hs : State.Kept pq s) (t' : State) (h' : execRangeRestoreWindow b l second s = .next t') : State.Kept pq t' := by
  unfold execRangeRestoreWindow at h'
  cases h'
  repeat' with_reducible first | assumption | apply State.endRangeWindow_kept | apply kept_ite | apply keptOpt_some | intro _

theorem execXferLand_kept (b route sender : Nat) (s : State) (hs : State.Kept pq s) (t' : State) (h' : execXferLand b route sender s = .next t') : State.Kept pq t' := by
  unfold execXferLand at h'
  cases h'
  repeat' with_reducible first | assumption | apply State.landXfer_kept | apply kept_ite | apply keptOpt_some | intro _

theorem execTaskDispatch_kept (b : Nat) (s : State) (hs : State.Kept pq s) (t' : State) (h' : execTaskDispatch b s = .next t') : State.Kept pq t' := by
  unfold execTaskDispatch at h'
  cases h'
  repeat' with_reducible first | assumption | apply State.settleQueues_kept | apply State.actPending_kept | apply State.dispatch_kept

theorem execTaskCompletion_kept (b : Nat) (s : State) (hs : State.Kept pq s) (t' : State) (h' : execTaskCompletion b s = .next t') : State.Kept pq t' := by
  unfold execTaskCompletion at h'
  cases h'
  repeat' with_reducible first | assumption | apply State.settleQueues_kept | apply State.finishTask_kept | apply State.settleTests_kept | apply keptOpt_some | intro _ | split

theorem execCoalTimer_kept (q : Nat) (s : State) (hs : State.Kept pq s) (t' : State) (h' : execCoalTimer q s = .next t') : State.Kept pq t' := by
  unfold execCoalTimer at h'
  cases h'
  repeat' with_reducible first | assumption | apply State.queueIrq_kept | apply kept_ite | apply keptOpt_some | intro _

end Sys2Proof.Machine
end

