-- ==== Sys2Proof/Laws/Kept6.lean ====
section
/-! SUPPORT. Memory and the waiting commands are kept by the operations of ResetOps, FieldTest, Resets, HostOps, Host, PowerOps, Governor. -/

namespace Sys2Proof.Machine

variable {pq : List Instr}

theorem State.stopBough_kept (s : State) (b : Nat) (hs : State.Kept pq s) : State.Kept pq (State.stopBough s b) := by
  unfold State.stopBough
  repeat' with_reducible first | assumption | apply State.onBough_kept | apply State.onLeaf_kept | apply State.dropMeas_kept | apply State.endDrains_kept | apply State.undoFrom_kept | apply kept_foldl | apply kept_ite | apply keptOpt_some | intro _

theorem State.stopMember_kept (s : State) (pid : Nat) (hs : State.Kept pq s) : State.Kept pq (State.stopMember s pid) := by
  unfold State.stopMember
  repeat' with_reducible first | assumption | apply State.onLeaf_kept | apply State.onProg_kept | apply State.failMember_kept | apply State.progStep_kept | apply kept_ite | apply keptOpt_some | intro _ | split | dsimp only

theorem State.failXrecvs_kept (s : State) (hs : State.Kept pq s) : State.Kept pq (State.failXrecvs s) := by
  unfold State.failXrecvs
  repeat' with_reducible first | assumption | apply State.failXrecv_kept | apply kept_foldl | apply keptOpt_some | intro _

theorem State.stopQueue_kept (s : State) (q : Nat) (lost : Bool) (hs : State.Kept pq s) : State.Kept pq (State.stopQueue s q lost) := by
  unfold State.stopQueue
  repeat' with_reducible first | assumption | apply State.onQueue_kept | apply State.writeBack_kept | apply State.haltQueue_kept | apply kept_ite | apply keptOpt_some | intro _

theorem State.dropLeafRecs_kept (s : State) (i : Nat) (hs : State.Kept pq s) : State.Kept pq (State.dropLeafRecs s i) := by
  unfold State.dropLeafRecs
  repeat' with_reducible first | assumption | apply State.onStore_kept | apply State.record_kept | apply keptOpt_some | intro _ | split | dsimp only

theorem State.failRuns_kept (s : State) (i : Nat) (hs : State.Kept pq s) : State.Kept pq (State.failRuns s i) := by
  unfold State.failRuns
  repeat' with_reducible first | assumption | apply State.failRun_kept | apply kept_foldl | apply kept_ite | apply keptOpt_some | intro _ | refine kept_opt (by assumption) ?_ | apply kept_fst

theorem State.stopStand_kept (s : State) (i : Nat) (hs : State.Kept pq s) : State.Kept pq (State.stopStand s i) := by
  unfold State.stopStand
  repeat' with_reducible first | assumption | apply State.onStand_kept | apply State.stopBough_kept | apply kept_foldl

theorem State.resetStop_kept (s : State) (i : Nat) (o : ResetObs) (hs : State.Kept pq s) : State.Kept pq (State.resetStop s i o) := by
  unfold State.resetStop
  repeat' with_reducible first | assumption | apply State.onStand_kept | apply State.stopMember_kept | apply State.failXrecvs_kept | apply State.stopQueue_kept | apply State.dropLeafRecs_kept | apply State.failRuns_kept | apply State.stopStand_kept | apply kept_foldl | apply keptOpt_some | intro _

theorem State.resetUnits_kept (s : State) (i : Nat) (hs : State.Kept pq s) : State.Kept pq (State.resetUnits s i) := by
  unfold State.resetUnits
  repeat' with_reducible first | assumption | apply State.onStand_kept | apply State.onBough_kept | apply State.onLeaf_kept | apply kept_foldl | apply keptOpt_some | intro _

theorem State.readMarkers_kept (s : State) (i : Nat) (hs : State.Kept pq s) : State.Kept pq (State.readMarkers s i) := by
  unfold State.readMarkers
  repeat' with_reducible first | assumption | apply State.markInvalid_kept | apply State.dropMarked_kept | apply kept_foldl | apply keptOpt_some | intro _

theorem State.zeroStand_kept (s : State) (i : Nat) (hs : State.Kept pq s) : State.Kept pq (State.zeroStand s i) := by exact ⟨State.zeroStand_wf s i hs.1, hs.2⟩

theorem State.disableAll_kept (s : State) (hs : State.Kept pq s) : State.Kept pq (State.disableAll s) := by
  unfold State.disableAll
  repeat' with_reducible first | assumption | apply State.onQue_kept

theorem State.disarmAll_kept (s : State) (hs : State.Kept pq s) : State.Kept pq (State.disarmAll s) := by
  unfold State.disarmAll
  repeat' with_reducible first | assumption | apply State.onQue_kept | apply State.onAel_kept

theorem State.loseImages_kept (s : State) (i : Nat) (hs : State.Kept pq s) : State.Kept pq (State.loseImages s i) := by
  unfold State.loseImages
  repeat' with_reducible first | assumption | apply State.onStand_kept | apply State.faultTask_kept | apply kept_foldl | apply keptOpt_some | intro _ | split

theorem State.loseTables_kept (s : State) (i : Nat) (hs : State.Kept pq s) : State.Kept pq (State.loseTables s i) := by
  unfold State.loseTables
  repeat' with_reducible first | assumption | apply State.onStand_kept | apply State.record_kept | apply State.haltQueue_kept | apply State.disableAll_kept | apply State.disarmAll_kept | apply kept_foldl | apply kept_ite | apply keptOpt_some | intro _

theorem State.fallbackExit_kept (s : State) (i : Nat) (o : ResetObs) (hs : State.Kept pq s) : State.Kept pq (State.fallbackExit s i o) := by
  unfold State.fallbackExit
  repeat' with_reducible first | assumption | apply State.fenceStand_kept | apply State.zeroStand_kept | apply State.loseImages_kept | apply State.loseTables_kept | apply kept_ite | apply keptOpt_some | intro _

theorem State.restoreImage_kept (s : State) (i : Nat) (hs : State.Kept pq s) : State.Kept pq (State.restoreImage s i) := by
  unfold State.restoreImage
  repeat' with_reducible first | assumption | apply State.onStand_kept | apply State.record_kept | apply State.installImage_kept | apply keptOpt_some | intro _ | split | dsimp only

theorem State.deliverOld_kept (s : State) (b i : Nat) (c : Canopy) (hs : State.Kept pq s) : State.Kept pq (State.deliverOld s b i c) := by
  unfold State.deliverOld
  repeat' with_reducible first | assumption | apply State.tryXrecv_kept | apply State.landNow_kept | apply kept_foldl | apply keptOpt_some | intro _

theorem State.resetRoutes_kept (s : State) (i : Nat) (hs : State.Kept pq s) : State.Kept pq (State.resetRoutes s i) := by
  unfold State.resetRoutes
  repeat' with_reducible first | assumption | apply State.onBough_kept | apply State.deliverOld_kept | apply kept_foldl | apply kept_ite | apply keptOpt_some | intro _ | split | dsimp only

theorem State.completeEnded_kept (s : State) (i : Nat) (path : Nat) (suspect : Bool) (t : Task) (hs : State.Kept pq s) : State.Kept pq (State.completeEnded s i path suspect t) := by
  unfold State.completeEnded
  repeat' with_reducible first | assumption | apply State.haltQueue_kept | apply State.complete_kept | apply State.taskSignal_kept | apply kept_ite | apply keptOpt_some | intro _

theorem State.rewait_kept (s : State) (i : Nat) (hs : State.Kept pq s) : State.Kept pq (State.rewait s i) := by
  unfold State.rewait
  repeat' with_reducible first | assumption | apply State.armWait_kept | apply kept_foldl | apply kept_ite | apply keptOpt_some | intro _

theorem State.resumeStand_kept (s : State) (i : Nat) (hs : State.Kept pq s) : State.Kept pq (State.resumeStand s i) := by
  unfold State.resumeStand
  repeat' with_reducible first | assumption | apply State.onStand_kept | apply State.onAel_kept | apply State.finishDisable_kept | apply State.mgrAll_kept | apply State.settleQueues_kept | apply State.flushOn_kept | apply State.actPending_kept | apply State.retryEnable_kept | apply State.settleTests_kept | apply State.retryArm_kept | apply State.rewait_kept | apply kept_foldl | apply kept_ite | apply keptOpt_some | intro _

theorem State.startAttempt_kept (s : State) (i : Nat) (hs : State.Kept pq s) : State.Kept pq (State.startAttempt s i) := by
  unfold State.startAttempt
  repeat' with_reducible first | assumption | apply State.onStand_kept | apply State.onBough_kept | intro _ | split | dsimp only

theorem State.nextSuspect_kept (s : State) (i : Nat) (hs : State.Kept pq s) : State.Kept pq (State.nextSuspect s i) := by
  unfold State.nextSuspect
  repeat' with_reducible first | assumption | apply State.onStand_kept | apply State.onBough_kept | apply State.settleTests_kept | apply State.resumeStand_kept | apply State.startAttempt_kept | apply kept_foldl | apply kept_ite | apply keptOpt_some | intro _ | split | dsimp only

theorem State.endReplays_kept (s : State) (hs : State.Kept pq s) : State.Kept pq (State.endReplays s) := by
  unfold State.endReplays
  repeat' with_reducible first | assumption | apply State.resumeStand_kept | apply kept_foldl | apply kept_ite | apply keptOpt_some | intro _ | split | dsimp only

theorem State.logicPart_kept (s : State) (b : Nat) (d1 d2 d3 : DWord) (hs : State.Kept pq s) : State.Kept pq (State.logicPart s b d1 d2 d3) := by
  unfold State.logicPart
  repeat' with_reducible first | assumption | apply State.logicVerdict_kept | apply State.endReplays_kept | apply keptOpt_some | intro _

theorem State.endedReset_kept (s : State) (i path ended : Nat) (o : ResetObs) (hs : State.Kept pq s) : State.Kept pq (State.endedReset s i path ended o) := by
  unfold State.endedReset
  repeat' with_reducible first | assumption | apply State.onStand_kept | apply State.record_kept | apply State.storeWrite_kept | apply kept_ite | apply keptOpt_some | intro _

theorem State.resetRestore_kept (s : State) (i : Nat) (o : ResetObs) (hs : State.Kept pq s) : State.Kept pq (State.resetRestore s i o) := by
  unfold State.resetRestore
  repeat' with_reducible first | assumption | apply State.onStand_kept | apply State.applySwaps_kept | apply State.restoreImage_kept | apply State.resetRoutes_kept | apply State.completeEnded_kept | apply State.resumeStand_kept | apply State.startAttempt_kept | apply State.endedReset_kept | apply kept_foldl | apply kept_ite | apply keptOpt_some | intro _ | split | dsimp only

theorem State.innerRestore_kept (s : State) (i : Nat) (o : ResetObs) (hs : State.Kept pq s) : State.Kept pq (State.innerRestore s i o) := by
  unfold State.innerRestore
  repeat' with_reducible first | assumption | apply State.onStand_kept | apply State.applySwaps_kept | apply State.restoreImage_kept | apply State.resetRoutes_kept | apply State.resumeStand_kept | apply State.nextSuspect_kept | apply State.endedReset_kept | apply kept_foldl | apply kept_ite | apply keptOpt_some | intro _

theorem State.retryReads_kept (s : State) (hs : State.Kept pq s) : State.Kept pq (State.retryReads s) := by
  unfold State.retryReads
  repeat' with_reducible first | assumption | apply State.settleQueues_kept | apply State.retryEnable_kept | apply State.retryArm_kept | apply keptOpt_some | intro _

theorem State.standStep_kept (s : State) (i : Nat) (o : ResetObs) (hs : State.Kept pq s) : State.Kept pq (State.standStep s i o) := by
  unfold State.standStep
  repeat' with_reducible first | assumption | apply State.onStand_kept | apply State.recoverLeaves_kept | apply State.resetStop_kept | apply State.resetUnits_kept | apply State.readMarkers_kept | apply State.zeroStand_kept | apply State.fallbackExit_kept | apply State.resetRestore_kept | apply State.innerRestore_kept | apply State.retryReads_kept | apply kept_ite | apply keptOpt_some | intro _ | split | dsimp only

theorem State.endAttempt_kept (s : State) (i : Nat) (hs : State.Kept pq s) : State.Kept pq (State.endAttempt s i) := by
  unfold State.endAttempt
  repeat' with_reducible first | assumption | apply State.onStand_kept | apply State.stopBough_kept | apply State.startAttempt_kept | apply State.nextSuspect_kept | apply State.endReplays_kept | apply kept_ite | apply keptOpt_some | intro _ | split | dsimp only

theorem State.guilty_kept (s : State) (i : Nat) (hs : State.Kept pq s) : State.Kept pq (State.guilty s i) := by
  unfold State.guilty
  repeat' with_reducible first | assumption | apply State.onStand_kept | apply State.pokeNat_kept | apply State.record_kept | apply State.resetPoint_kept | apply keptOpt_some | intro _ | split | dsimp only

theorem State.restorePower_kept (s : State) (hs : State.Kept pq s) : State.Kept pq (State.restorePower s) := by
  unfold State.restorePower
  repeat' with_reducible first | assumption | apply kept_ite | apply kept_putSome | fail_if_no_progress (apply kept_upd) | apply keptOpt_some | intro _

theorem State.beginWarm_kept (s : State) (cause : Nat) (hs : State.Kept pq s) : State.Kept pq (State.beginWarm s cause) := by
  unfold State.beginWarm
  repeat' with_reducible first | assumption | apply State.onTrunk_kept | apply State.dropMgmt_kept | apply State.abortEntry_kept | apply State.dropWrites_kept | apply State.disableAll_kept | apply State.restorePower_kept | apply kept_ite | apply keptOpt_some | intro _

theorem State.warmNotice_kept (s : State) (hs : State.Kept pq s) : State.Kept pq (State.warmNotice s) := by
  unfold State.warmNotice
  repeat' with_reducible first | assumption | apply State.onAel_kept | apply State.resetPoint_kept | apply State.disarmAll_kept | apply kept_ite | apply keptOpt_some | intro _

theorem State.warmDumpStep_kept (s : State) (dump : Bool) (hs : State.Kept pq s) : State.Kept pq (State.warmDumpStep s dump) := by
  unfold State.warmDumpStep
  repeat' with_reducible first | assumption | apply State.onTrunk_kept | apply kept_ite | apply keptOpt_some | intro _

theorem State.warmStop_kept (s : State) (o : ResetObs) (hs : State.Kept pq s) : State.Kept pq (State.warmStop s o) := by
  unfold State.warmStop
  repeat' with_reducible first | assumption | apply State.onStand_kept | apply State.onLeaf_kept | apply State.onTrunk_kept | apply State.fenceStand_kept | apply State.stopStand_kept | apply State.resetUnits_kept | apply State.zeroStand_kept | apply kept_foldl | apply kept_ite | apply keptOpt_some | intro _ | split

theorem State.warmUnits_kept (s : State) (hs : State.Kept pq s) : State.Kept pq (State.warmUnits s) := by
  unfold State.warmUnits
  repeat' with_reducible first | assumption | apply State.chooseSlot_kept | apply State.armResult_kept | apply State.armEntry_kept | fail_if_no_progress (apply kept_upd) | apply keptOpt_some | intro _

theorem State.warmBoot_kept (s : State) (us : BitVec 16) (hs : State.Kept pq s) : State.Kept pq (State.warmBoot s us) := by
  unfold State.warmBoot
  repeat' with_reducible first | assumption | apply State.onTrunk_kept | apply State.startFirmware_kept | apply kept_ite | apply keptOpt_some | intro _

theorem State.endWarm_kept (s : State) (o : ResetObs) (hs : State.Kept pq s) : State.Kept pq (State.endWarm s o) := by
  unfold State.endWarm
  repeat' with_reducible first | assumption | apply State.onTrunk_kept | apply State.onAel_kept | apply State.record_kept | apply State.storeWrite_kept | apply State.recoverLeaves_kept | apply State.checkLeaves_kept | apply State.startCals_kept | apply kept_ite | apply keptOpt_some | intro _

theorem State.warmStepDone_kept (s : State) (o : ResetObs) (hs : State.Kept pq s) : State.Kept pq (State.warmStepDone s o) := by
  unfold State.warmStepDone
  repeat' with_reducible first | assumption | apply State.onTrunk_kept | apply State.warmNotice_kept | apply State.warmDumpStep_kept | apply State.warmStop_kept | apply State.warmUnits_kept | apply State.warmBoot_kept | apply State.endWarm_kept | apply keptOpt_some | intro _ | split

theorem State.escalate_kept (s : State) (i : Nat) (hs : State.Kept pq s) : State.Kept pq (State.escalate s i) := by
  unfold State.escalate
  repeat' with_reducible first | assumption | apply State.beginWarm_kept | apply kept_ite | apply keptOpt_some | intro _

theorem State.writeRstCtrl_kept (s : State) (i : Nat) (v : Word) (hs : State.Kept pq s) : State.Kept pq (State.writeRstCtrl s i v) := by
  unfold State.writeRstCtrl
  repeat' with_reducible first | assumption | apply State.onStand_kept | apply State.requestReset_kept | apply kept_ite | apply keptOpt_some | intro _

theorem State.selfColdReset_kept (s : State) (hs : State.Kept pq s) : State.Kept pq (State.selfColdReset s) := by
  unfold State.selfColdReset
  repeat' with_reducible first | assumption | apply State.onBud_kept | apply State.releaseBoot_kept | apply State.coldReset_kept

theorem execLeafTestDue_kept (b l : Nat) (s : State) (hs : State.Kept pq s) (t' : State) (h' : execLeafTestDue b l s = .next t') : State.Kept pq t' := by
  unfold execLeafTestDue at h'
  cases h'
  repeat' with_reducible first | assumption | apply State.onLeaf_kept | apply kept_ite | apply keptOpt_some | intro _

theorem execLeafPartDone_kept (b l : Nat) (o : LeafPartObs) (s : State) (hs : State.Kept pq s) (t' : State) (h' : execLeafPartDone b l o s = .next t') : State.Kept pq t' := by
  unfold execLeafPartDone at h'
  cases h'
  repeat' with_reducible first | assumption | apply State.leafPart_kept | apply State.unfenceLeaf_kept | apply kept_ite | apply keptOpt_some | intro _

theorem execLogicTestDue_kept (b : Nat) (s : State) (hs : State.Kept pq s) (t' : State) (h' : execLogicTestDue b s = .next t') : State.Kept pq t' := by
  unfold execLogicTestDue at h'
  cases h'
  repeat' with_reducible first | assumption | apply State.onBough_kept | apply State.settleTests_kept | apply kept_ite | apply keptOpt_some | intro _

theorem execTestDeferralLimit_kept (b : Nat) (s : State) (hs : State.Kept pq s) (t' : State) (h' : execTestDeferralLimit b s = .next t') : State.Kept pq t' := by
  unfold execTestDeferralLimit at h'
  cases h'
  repeat' with_reducible first | assumption | apply State.onBough_kept | apply State.settleTests_kept | apply keptOpt_some | intro _ | split

theorem execLogicPartDone_kept (b : Nat) (d1 d2 d3 : DWord) (s : State) (hs : State.Kept pq s) (t' : State) (h' : execLogicPartDone b d1 d2 d3 s = .next t') : State.Kept pq t' := by
  unfold execLogicPartDone at h'
  cases h'
  repeat' with_reducible first | assumption | apply State.logicPart_kept | apply kept_ite | apply keptOpt_some | intro _

theorem execFullVerifyDone_kept (b l : Nat) (levels : SMap Nat) (s : State) (hs : State.Kept pq s) (t' : State) (h' : execFullVerifyDone b l levels s = .next t') : State.Kept pq t' := by
  unfold execFullVerifyDone at h'
  cases h'
  repeat' with_reducible first | assumption | apply State.fullVerify_kept | apply kept_ite | apply keptOpt_some | intro _

theorem execFieldTest_kept (q : Nat) (s : State) (hs : State.Kept pq s) (t' : State) (h' : execFieldTest q s = .next t') : State.Kept pq t' := by
  unfold execFieldTest at h'
  cases h'
  repeat' with_reducible first | assumption | apply State.record_kept | apply State.acceptOp_kept | apply State.popCommand_kept | apply State.refuseCommand_kept | apply State.serveCommand_kept | apply State.ftestTurn_kept | apply keptOpt_some | intro _ | split | refine kept_opt (by assumption) ?_ | apply kept_fst

theorem execFieldTestSchedule_kept (q : Nat) (s : State) (hs : State.Kept pq s) (t' : State) (h' : execFieldTestSchedule q s = .next t') : State.Kept pq t' := by
  unfold execFieldTestSchedule at h'
  cases h'
  repeat' with_reducible first | assumption | apply State.onTrunk_kept | apply State.refuseCommand_kept | apply State.serveCommand_kept | apply keptOpt_some | intro _ | split

theorem execStandReset_kept (i : Nat) (v : Word) (s : State) (hs : State.Kept pq s) (t' : State) (h' : execStandReset i v s = .next t') : State.Kept pq t' := by
  unfold execStandReset at h'
  cases h'
  repeat' with_reducible first | assumption | apply State.writeRstCtrl_kept | apply kept_ite | apply keptOpt_some | intro _

theorem execStandResetStepDone_kept (i : Nat) (o : ResetObs) (s : State) (hs : State.Kept pq s) (t' : State) (h' : execStandResetStepDone i o s = .next t') : State.Kept pq t' := by
  unfold execStandResetStepDone at h'
  cases h'
  repeat' with_reducible first | assumption | apply State.standStep_kept | apply kept_ite | apply keptOpt_some | intro _

theorem execSelfRefreshTimeout_kept (i : Nat) (s : State) (hs : State.Kept pq s) (t' : State) (h' : execSelfRefreshTimeout i s = .next t') : State.Kept pq t' := by
  unfold execSelfRefreshTimeout at h'
  cases h'
  repeat' with_reducible first | assumption | apply State.onStand_kept | apply kept_ite | apply keptOpt_some | intro _

theorem execStandResetEscalation_kept (i : Nat) (s : State) (hs : State.Kept pq s) (t' : State) (h' : execStandResetEscalation i s = .next t') : State.Kept pq t' := by
  unfold execStandResetEscalation at h'
  cases h'
  repeat' with_reducible first | assumption | apply State.escalate_kept | apply kept_ite | apply keptOpt_some | intro _

theorem execReplayAttemptEnd_kept (i : Nat) (s : State) (hs : State.Kept pq s) (t' : State) (h' : execReplayAttemptEnd i s = .next t') : State.Kept pq t' := by
  unfold execReplayAttemptEnd at h'
  cases h'
  repeat' with_reducible first | assumption | apply State.endAttempt_kept | apply kept_ite | apply keptOpt_some | intro _

theorem execReplayBudgetExpiry_kept (i : Nat) (s : State) (hs : State.Kept pq s) (t' : State) (h' : execReplayBudgetExpiry i s = .next t') : State.Kept pq t' := by
  unfold execReplayBudgetExpiry at h'
  cases h'
  repeat' with_reducible first | assumption | apply State.guilty_kept | apply kept_ite | apply keptOpt_some | intro _

theorem execWarmReset_kept (v : Word) (s : State) (hs : State.Kept pq s) (t' : State) (h' : execWarmReset v s = .next t') : State.Kept pq t' := by
  unfold execWarmReset at h'
  cases h'
  repeat' with_reducible first | assumption | apply State.onTrunk_kept | apply State.beginWarm_kept | apply kept_ite | apply keptOpt_some | intro _

theorem execWarmResetStepDone_kept (o : ResetObs) (s : State) (hs : State.Kept pq s) (t' : State) (h' : execWarmResetStepDone o s = .next t') : State.Kept pq t' := by
  unfold execWarmResetStepDone at h'
  cases h'
  repeat' with_reducible first | assumption | apply State.warmStepDone_kept | apply kept_ite | apply keptOpt_some | intro _

theorem execWarmDumpTimeout_kept (s : State) (hs : State.Kept pq s) (t' : State) (h' : execWarmDumpTimeout s = .next t') : State.Kept pq t' := by
  unfold execWarmDumpTimeout at h'
  cases h'
  repeat' with_reducible first | assumption | apply State.onTrunk_kept | apply kept_ite | apply keptOpt_some | intro _

theorem execWarmNoticeTimeout_kept (s : State) (hs : State.Kept pq s) (t' : State) (h' : execWarmNoticeTimeout s = .next t') : State.Kept pq t' := by
  unfold execWarmNoticeTimeout at h'
  cases h'
  repeat' with_reducible first | assumption | apply State.warmNotice_kept | apply State.warmDumpStep_kept | apply kept_ite | apply keptOpt_some | intro _

theorem execColdReset_kept (s : State) (hs : State.Kept pq s) (t' : State) (h' : execColdReset s = .next t') : State.Kept pq t' := by
  unfold execColdReset at h'
  cases h'
  repeat' with_reducible first | assumption | apply State.selfColdReset_kept | apply kept_ite | apply keptOpt_some | intro _

theorem execHeartbeatTick_kept (core : Nat) (s : State) (hs : State.Kept pq s) (t' : State) (h' : execHeartbeatTick core s = .next t') : State.Kept pq t' := by
  unfold execHeartbeatTick at h'
  cases h'
  repeat' with_reducible first | assumption | apply State.onTrunk_kept | apply kept_ite | apply keptOpt_some | intro _

theorem State.readBar2_kept (s : State) (a n : Nat) (hs : State.Kept pq s) : State.Kept pq (State.readBar2 s a n) := by
  unfold State.readBar2
  repeat' with_reducible first | assumption | apply State.pciError_kept | apply State.emit_kept | apply State.reportUe_kept | intro _ | split

theorem State.maskedWrite_kept (s : State) (a : Nat) (bytes : List (Option Byte)) (hs : State.Kept pq s) : State.Kept pq (State.maskedWrite s a bytes) := by
  unfold State.maskedWrite
  repeat' with_reducible first | assumption | apply State.reportUe_kept | apply kept_foldl | apply kept_nil | apply kept_putSome | apply keptOpt_some | intro _

theorem State.writeBar2_kept (s : State) (a : Nat) (bytes : List (Option Byte)) (hs : State.Kept pq s) : State.Kept pq (State.writeBar2 s a bytes) := by
  unfold State.writeBar2
  repeat' with_reducible first | assumption | apply State.pciError_kept | apply State.maskedWrite_kept | intro _ | split

theorem HeldAcc.run_kept (h : HeldAcc) (s : State) (hs : State.Kept pq s) : State.Kept pq (HeldAcc.run h s) := by
  unfold HeldAcc.run
  repeat' with_reducible first | assumption | apply State.signalKnot_kept | apply State.settleQueues_kept | apply State.readBar2_kept | apply State.writeBar2_kept | apply keptOpt_some | intro _ | split | dsimp only

theorem State.accessBar2_kept (s : State) (h : HeldAcc) (hs : State.Kept pq s) : State.Kept pq (State.accessBar2 s h) := by
  unfold State.accessBar2
  repeat' with_reducible first | assumption | apply State.onPcie_kept | apply State.wakeEvent_kept | apply HeldAcc.run_kept | apply kept_ite | apply keptOpt_some | intro _

theorem State.runHeld_kept (s : State) (hs : State.Kept pq s) : State.Kept pq (State.runHeld s) := by
  unfold State.runHeld
  repeat' with_reducible first | assumption | apply State.onPcie_kept | apply HeldAcc.run_kept | apply kept_foldl | apply keptOpt_some | intro _

theorem State.dmaFailed_kept (s : State) (fn addr : Nat) (hs : State.Kept pq s) : State.Kept pq (State.dmaFailed s fn addr) := by
  unfold State.dmaFailed
  repeat' with_reducible first | assumption | apply State.pciError_kept | apply State.onPcie_kept | apply State.emit_kept | apply keptOpt_some | intro _

theorem State.failRequest_kept (s : State) (t : DmaTarget) (addr : Nat) (hs : State.Kept pq s) : State.Kept pq (State.failRequest s t addr) := by
  unfold State.failRequest
  repeat' with_reducible first | assumption | apply State.onBough_kept | apply State.onQueue_kept | apply State.haltQueue_kept | apply State.dmaFailed_kept | apply kept_ite | apply keptOpt_some | intro _ | split

theorem State.completeRequest_kept (s : State) (t : DmaTarget) (data : List Byte) (hs : State.Kept pq s) : State.Kept pq (State.completeRequest s t data) := by
  unfold State.completeRequest
  repeat' with_reducible first | assumption | apply State.onQueue_kept | apply State.flushOn_kept | apply State.landRead_kept | apply keptOpt_some | intro _ | split

theorem State.resetVf_kept (s : State) (v : Nat) (hs : State.Kept pq s) : State.Kept pq (State.resetVf s v) := by
  unfold State.resetVf
  repeat' with_reducible first | assumption | apply State.onBough_kept | apply State.onPcie_kept | apply State.onQueue_kept | apply State.haltQueue_kept | apply kept_foldl | apply keptOpt_some | intro _

theorem State.endVfFlr_kept (s : State) (v : Nat) (hs : State.Kept pq s) : State.Kept pq (State.endVfFlr s v) := by
  unfold State.endVfFlr
  repeat' with_reducible first | assumption | apply State.onQue_kept | apply State.onPcie_kept | apply State.settleQueues_kept | apply State.retryEnable_kept | apply kept_ite | apply keptOpt_some | intro _

theorem execBar2Read_kept (addr len : Nat) (s : State) (hs : State.Kept pq s) (t' : State) (h' : execBar2Read addr len s = .next t') : State.Kept pq t' := by
  unfold execBar2Read at h'
  cases h'
  repeat' with_reducible first | assumption | apply State.accessBar2_kept | apply kept_ite | apply keptOpt_some | intro _

theorem execBar2Write_kept (addr : Nat) (bytes : List (Option Byte)) (s : State) (hs : State.Kept pq s) (t' : State) (h' : execBar2Write addr bytes s = .next t') : State.Kept pq t' := by
  unfold execBar2Write at h'
  cases h'
  repeat' with_reducible first | assumption | apply State.accessBar2_kept | apply kept_ite | apply keptOpt_some | intro _

theorem execVfFlr_kept (vf : Nat) (s : State) (hs : State.Kept pq s) (t' : State) (h' : execVfFlr vf s = .next t') : State.Kept pq t' := by
  unfold execVfFlr at h'
  cases h'
  repeat' with_reducible first | assumption | apply State.resetVf_kept | apply kept_ite | apply keptOpt_some | intro _

theorem execVfFlrDone_kept (vf : Nat) (s : State) (hs : State.Kept pq s) (t' : State) (h' : execVfFlrDone vf s = .next t') : State.Kept pq t' := by
  unfold execVfFlrDone at h'
  cases h'
  repeat' with_reducible first | assumption | apply State.endVfFlr_kept

theorem execPfFlr_kept (s : State) (hs : State.Kept pq s) (t' : State) (h' : execPfFlr s = .next t') : State.Kept pq t' := by
  unfold execPfFlr at h'
  cases h'
  repeat' with_reducible first | assumption | apply State.onPcie_kept | apply State.beginWarm_kept | apply kept_ite | apply keptOpt_some | intro _

theorem execMsixUnmask_kept (fn : Nat) (act : MsixAct) (s : State) (hs : State.Kept pq s) (t' : State) (h' : execMsixUnmask fn act s = .next t') : State.Kept pq t' := by
  unfold execMsixUnmask at h'
  cases h'
  repeat' with_reducible first | assumption | apply State.onFunc_kept | apply State.raisePending_kept | apply kept_ite | apply keptOpt_some | intro _

theorem execDmaRequestFailed_kept (t : DmaTarget) (addr : Nat) (s : State) (hs : State.Kept pq s) (t' : State) (h' : execDmaRequestFailed t addr s = .next t') : State.Kept pq t' := by
  unfold execDmaRequestFailed at h'
  cases h'
  repeat' with_reducible first | assumption | apply State.pumpReads_kept | apply State.settleQueues_kept | apply State.failRequest_kept | apply keptOpt_some | intro _

theorem execRefclkLoss_kept (s : State) (hs : State.Kept pq s) (t' : State) (h' : execRefclkLoss s = .next t') : State.Kept pq t' := by
  unfold execRefclkLoss at h'
  cases h'
  repeat' with_reducible first | assumption | apply State.onPcie_kept | apply kept_ite | apply keptOpt_some | intro _

theorem execHostReadCompletion_kept (t : DmaTarget) (data : List Byte) (s : State) (hs : State.Kept pq s) (t' : State) (h' : execHostReadCompletion t data s = .next t') : State.Kept pq t' := by
  unfold execHostReadCompletion at h'
  cases h'
  repeat' with_reducible first | assumption | apply State.pumpReads_kept | apply State.settleQueues_kept | apply State.completeRequest_kept | apply keptOpt_some | intro _

theorem State.cfgWrite_kept (s : State) (fn : Nat) (act : CfgAct) (hs : State.Kept pq s) : State.Kept pq (State.cfgWrite s fn act) := by
  unfold State.cfgWrite
  repeat' with_reducible first | assumption | apply State.onPcie_kept | apply State.onFunc_kept | apply State.raisePending_kept | apply State.settleQueues_kept | apply kept_ite | apply keptOpt_some | intro _ | split | dsimp only

theorem execConfigurationRequest_kept (fn : Nat) (act : CfgAct) (s : State) (hs : State.Kept pq s) (t' : State) (h' : execConfigurationRequest fn act s = .next t') : State.Kept pq t' := by
  unfold execConfigurationRequest at h'
  repeat' split at h'
  all_goals cases h'
  all_goals repeat' (first | with_reducible assumption | with_reducible apply State.cfgWrite_kept | with_reducible apply State.emit_kept | with_reducible apply kept_ite | intro _ | split)

theorem State.requestDormant_kept (s : State) (target : Nat) (hs : State.Kept pq s) : State.Kept pq (State.requestDormant s target) := by
  unfold State.requestDormant
  repeat' with_reducible first | assumption | apply State.onBud_kept | apply State.record_kept | intro _ | split

theorem State.islandsOff_kept (s : State) (hs : State.Kept pq s) : State.Kept pq (State.islandsOff s) := by
  unfold State.islandsOff
  repeat' with_reducible first | assumption | apply State.onStand_kept | apply State.onBud_kept | apply State.beginWake_kept | apply kept_foldl | apply kept_putSome | fail_if_no_progress (apply kept_upd) | apply keptOpt_some | intro _ | split | dsimp only

theorem State.entryStep_kept (s : State) (hs : State.Kept pq s) : State.Kept pq (State.entryStep s) := by
  unfold State.entryStep
  repeat' with_reducible first | assumption | apply State.onBud_kept | apply State.islandsOff_kept | apply keptOpt_some | intro _ | split

theorem State.enterBare_kept (s : State) (hs : State.Kept pq s) : State.Kept pq (State.enterBare s) := by
  unfold State.enterBare
  repeat' with_reducible first | assumption | apply State.coldReset_kept | apply kept_putSome | fail_if_no_progress (apply kept_upd)

theorem State.applyCap_kept (s : State) (hs : State.Kept pq s) : State.Kept pq (State.applyCap s) := by
  unfold State.applyCap
  repeat' with_reducible first | assumption | apply kept_ite | apply kept_putSome | fail_if_no_progress (apply kept_upd) | apply keptOpt_some | intro _

theorem State.restoreBoughs_kept (s : State) (hs : State.Kept pq s) : State.Kept pq (State.restoreBoughs s) := by
  unfold State.restoreBoughs
  repeat' with_reducible first | assumption | apply State.onLeaf_kept | apply State.record_kept | apply State.installImage_kept | apply State.markInvalid_kept | apply kept_foldl | apply keptOpt_some | intro _ | split | dsimp only

theorem State.endWake_kept (s : State) (hs : State.Kept pq s) : State.Kept pq (State.endWake s) := by
  unfold State.endWake
  repeat' with_reducible first | assumption | apply State.onStand_kept | apply State.onBud_kept | apply State.deliverEdge_kept | apply State.settleQueues_kept | apply State.actPending_kept | apply State.settleTests_kept | apply State.runHeld_kept | apply State.applyCap_kept | apply kept_foldl | apply keptOpt_some | intro _

theorem State.wakeStage_kept (s : State) (o : StartObs) (hs : State.Kept pq s) : State.Kept pq (State.wakeStage s o) := by
  unfold State.wakeStage
  repeat' with_reducible first | assumption | apply State.onBud_kept | apply State.recoverLeaves_kept | apply State.checkLeaves_kept | apply State.startCals_kept | apply State.restoreBoughs_kept | apply State.endWake_kept | apply keptOpt_some | intro _ | split | dsimp only

theorem State.stopIsland_kept (s : State) (n : Nat) (hs : State.Kept pq s) : State.Kept pq (State.stopIsland s n) := by
  unfold State.stopIsland
  repeat' with_reducible first | assumption | apply State.onStand_kept | apply State.onBough_kept | apply State.onLeaf_kept | apply kept_foldl | apply kept_ite | apply keptOpt_some | intro _

theorem State.startIsland_kept (s : State) (n : Nat) (hs : State.Kept pq s) : State.Kept pq (State.startIsland s n) := by
  unfold State.startIsland
  repeat' with_reducible first | assumption | apply State.onStand_kept | apply State.onBough_kept | apply kept_ite | apply keptOpt_some | intro _

theorem State.setClocks_kept (s : State) (hs : State.Kept pq s) : State.Kept pq (State.setClocks s) := by
  unfold State.setClocks
  repeat' with_reducible first | assumption | apply State.onBough_kept | apply kept_foldl | apply keptOpt_some | intro _

theorem State.remedy_kept (s : State) (short hot : Bool) (hs : State.Kept pq s) : State.Kept pq (State.remedy s short hot) := by
  unfold State.remedy
  repeat' with_reducible first | assumption | apply State.onBough_kept | apply State.onBud_kept | apply State.setClocks_kept | apply kept_foldl | apply kept_ite | apply keptOpt_some | intro _ | split

theorem State.setCadence_kept (s : State) (c : Nat) (hs : State.Kept pq s) : State.Kept pq (State.setCadence s c) := hs

theorem State.judgeLeaf_kept (s : State) (k : Nat) (hs : State.Kept pq s) : State.Kept pq (State.judgeLeaf s k) := by
  unfold State.judgeLeaf
  repeat' with_reducible first | assumption | apply State.onLeaf_kept | apply State.record_kept | apply State.trigger_kept | apply kept_ite | apply keptOpt_some | intro _

theorem State.govern_kept (s : State) (o : GovObs) (hs : State.Kept pq s) : State.Kept pq (State.govern s o) := by
  unfold State.govern
  repeat' with_reducible first | assumption | apply State.onBud_kept | apply State.record_kept | apply State.calibAll_kept | apply State.applyCap_kept | apply State.remedy_kept | apply State.setCadence_kept | apply State.judgeLeaf_kept | apply kept_foldl | apply kept_ite | apply keptOpt_some | intro _

theorem State.trip_kept (s : State) (hs : State.Kept pq s) : State.Kept pq (State.trip s) := by
  unfold State.trip
  repeat' with_reducible first | assumption | apply State.alert_kept | apply State.dropWrites_kept | apply State.powerOff_kept | apply State.entryStep_kept | apply issues_ok | apply issues_pure | exact issues_error | exact issues_shape | exact issues_throw | apply issues_ite | apply issues_foldlM | apply issues_bind | apply issues_map | apply kept_foldl | apply kept_ite | apply kept_nil | apply kept_putSome | fail_if_no_progress (apply kept_upd) | apply keptFst_mk | apply keptSnd_mk | apply keptFst_ite | apply keptSnd_ite | exact keptOpt_none | apply keptOpt_some | intro _ | split | refine kept_pair (by assumption) ?_ | refine kept_pair2 (by assumption) ?_ | refine kept_opt (by assumption) ?_ | apply kept_fst | apply kept_snd | dsimp only | dsimp only [id] | exact issues_any

theorem State.sample_kept (s : State) (o : GovObs) (hs : State.Kept pq s) : State.Kept pq (State.sample s o) := by
  unfold State.sample
  repeat' with_reducible first | assumption | apply State.alert_kept | apply State.onBud_kept | apply State.onTrunk_kept | apply kept_ite | apply keptOpt_some | intro _

theorem State.vinLow_kept (s : State) (o : GovObs) (hs : State.Kept pq s) : State.Kept pq (State.vinLow s o) := by
  unfold State.vinLow
  repeat' with_reducible first | assumption | apply State.onBud_kept | apply State.record_kept | apply kept_ite | apply keptOpt_some | intro _

theorem execGovernorInterval_kept (o : GovObs) (s : State) (hs : State.Kept pq s) (t' : State) (h' : execGovernorInterval o s = .next t') : State.Kept pq t' := by
  unfold execGovernorInterval at h'
  cases h'
  repeat' with_reducible first | assumption | apply State.govern_kept | apply State.trip_kept | apply State.sample_kept | apply State.vinLow_kept | apply kept_ite | apply keptOpt_some | intro _

end Sys2Proof.Machine
end

