-- ==== Sys2Proof/Laws/Kept7.lean ====
section
/-! SUPPORT. Memory and the waiting commands are kept by the operations of Power, StoreRun, StoreCmds, LinkOps, Aetholo, Collectives, RegOps, Registers. -/

namespace Sys2Proof.Machine

variable {pq : List Instr}

theorem execPfD3hotEntry_kept (s : State) (hs : State.Kept pq s) (t' : State) (h' : execPfD3hotEntry s = .next t') : State.Kept pq t' := by
  unfold execPfD3hotEntry at h'
  cases h'
  repeat' with_reducible first | assumption | apply State.onPcie_kept | apply State.requestDormant_kept | apply kept_ite | apply keptOpt_some | intro _

theorem execPfD0Transition_kept (s : State) (hs : State.Kept pq s) (t' : State) (h' : execPfD0Transition s = .next t') : State.Kept pq t' := by
  unfold execPfD0Transition at h'
  cases h'
  repeat' with_reducible first | assumption | apply State.onBud_kept | apply State.onPcie_kept | apply State.beginWake_kept | apply keptOpt_some | intro _ | split

theorem execPmeTurnOff_kept (s : State) (hs : State.Kept pq s) (t' : State) (h' : execPmeTurnOff s = .next t') : State.Kept pq t' := by
  unfold execPmeTurnOff at h'
  cases h'
  repeat' with_reducible first | assumption | apply State.emit_kept | apply State.enterBare_kept | apply kept_ite | apply keptOpt_some | intro _

theorem execPwrReqDormant_kept (s : State) (hs : State.Kept pq s) (t' : State) (h' : execPwrReqDormant s = .next t') : State.Kept pq t' := by
  unfold execPwrReqDormant at h'
  cases h'
  repeat' with_reducible first | assumption | apply State.requestDormant_kept | apply kept_ite | apply keptOpt_some | intro _

theorem execPwrReqWake_kept (s : State) (hs : State.Kept pq s) (t' : State) (h' : execPwrReqWake s = .next t') : State.Kept pq t' := by
  unfold execPwrReqWake at h'
  cases h'
  repeat' with_reducible first | assumption | apply State.onBud_kept | apply State.beginWake_kept | apply keptOpt_some | intro _ | split

theorem execDormantEntryStepDone_kept (s : State) (hs : State.Kept pq s) (t' : State) (h' : execDormantEntryStepDone s = .next t') : State.Kept pq t' := by
  unfold execDormantEntryStepDone at h'
  cases h'
  repeat' with_reducible first | assumption | apply State.entryStep_kept | apply kept_ite | apply keptOpt_some | intro _

theorem execEntryTimeout_kept (s : State) (hs : State.Kept pq s) (t' : State) (h' : execEntryTimeout s = .next t') : State.Kept pq t' := by
  unfold execEntryTimeout at h'
  cases h'
  repeat' with_reducible first | assumption | apply State.abortEntry_kept | apply State.settleQueues_kept | apply State.actPending_kept | apply State.settleTests_kept | apply State.entryStep_kept | apply kept_ite | apply keptOpt_some | intro _

theorem execWakeEvent_kept (kind : WakeKind) (s : State) (hs : State.Kept pq s) (t' : State) (h' : execWakeEvent kind s = .next t') : State.Kept pq t' := by
  unfold execWakeEvent at h'
  cases h'
  repeat' with_reducible first | assumption | apply State.wakeEvent_kept

theorem execWakeStepDone_kept (o : StartObs) (s : State) (hs : State.Kept pq s) (t' : State) (h' : execWakeStepDone o s = .next t') : State.Kept pq t' := by
  unfold execWakeStepDone at h'
  cases h'
  repeat' with_reducible first | assumption | apply State.wakeStage_kept | apply kept_ite | apply keptOpt_some | intro _

theorem execShadeIdleTimeout_kept (island : Nat) (s : State) (hs : State.Kept pq s) (t' : State) (h' : execShadeIdleTimeout island s = .next t') : State.Kept pq t' := by
  unfold execShadeIdleTimeout at h'
  cases h'
  repeat' with_reducible first | assumption | apply State.stopIsland_kept | apply kept_ite | apply keptOpt_some | intro _

theorem execIslandRestart_kept (island : Nat) (s : State) (hs : State.Kept pq s) (t' : State) (h' : execIslandRestart island s = .next t') : State.Kept pq t' := by
  unfold execIslandRestart at h'
  cases h'
  repeat' with_reducible first | assumption | apply State.startIsland_kept | apply kept_ite | apply keptOpt_some | intro _

theorem execClockLock_kept (island : Nat) (s : State) (hs : State.Kept pq s) (t' : State) (h' : execClockLock island s = .next t') : State.Kept pq t' := by
  unfold execClockLock at h'
  cases h'
  repeat' with_reducible first | assumption | apply State.onBough_kept | apply kept_ite | apply keptOpt_some | intro _

theorem execBudPwrCap_kept (v : Word) (s : State) (hs : State.Kept pq s) (t' : State) (h' : execBudPwrCap v s = .next t') : State.Kept pq t' := by
  unfold execBudPwrCap at h'
  cases h'
  repeat' with_reducible first | assumption | apply State.onBud_kept | apply kept_ite | apply keptOpt_some | intro _

theorem State.told_kept (s : State) (w : WriteReq) (hs : State.Kept pq s) : State.Kept pq (State.told s w) := by
  unfold State.told
  repeat' with_reducible first | assumption | apply State.record_kept | apply State.mgmtTold_kept | apply State.mapDurable_kept | apply State.recordTold_kept | intro _ | split

theorem State.refusedWrite_kept (s : State) (w : WriteReq) (hs : State.Kept pq s) : State.Kept pq (State.refusedWrite s w) := by
  unfold State.refusedWrite
  repeat' with_reducible first | assumption | apply State.mgmtRefused_kept | apply State.failMember_kept | apply State.recordRefused_kept | apply kept_foldl | apply keptOpt_some | intro _ | split

theorem State.endWrites_kept (s : State) (fails : List Nat) (hs : State.Kept pq s) : State.Kept pq (State.endWrites s fails) := by
  unfold State.endWrites
  repeat' with_reducible first | assumption | apply State.onStore_kept | apply State.record_kept | apply State.bootHeld_kept | apply State.told_kept | apply State.refusedWrite_kept | apply kept_foldl | apply keptOpt_some | intro _ | split

theorem State.endStep_kept (s : State) (good : Bool) (hs : State.Kept pq s) : State.Kept pq (State.endStep s good) := by
  unfold State.endStep
  repeat' with_reducible first | assumption | apply State.onStore_kept | apply State.record_kept | apply keptOpt_some | intro _ | split

theorem execStoreWriteOpStart_kept (s : State) (hs : State.Kept pq s) (t' : State) (h' : execStoreWriteOpStart s = .next t') : State.Kept pq t' := by
  unfold execStoreWriteOpStart at h'
  cases h'
  repeat' with_reducible first | assumption | apply State.onStore_kept | apply kept_ite | apply keptOpt_some | intro _

theorem execStoreWriteOpDone_kept (fails : List Nat) (s : State) (hs : State.Kept pq s) (t' : State) (h' : execStoreWriteOpDone fails s = .next t') : State.Kept pq t' := by
  unfold execStoreWriteOpDone at h'
  cases h'
  repeat' with_reducible first | assumption | apply State.endWrites_kept | apply kept_ite | apply keptOpt_some | intro _

theorem execStoreBackgroundStep_kept (good : Bool) (s : State) (hs : State.Kept pq s) (t' : State) (h' : execStoreBackgroundStep good s = .next t') : State.Kept pq t' := by
  unfold execStoreBackgroundStep at h'
  cases h'
  repeat' with_reducible first | assumption | apply State.onStore_kept | apply State.bootHeld_kept | apply State.endStep_kept | apply keptOpt_some | intro _ | split

theorem execPoweredHourTick_kept (s : State) (hs : State.Kept pq s) (t' : State) (h' : execPoweredHourTick s = .next t') : State.Kept pq t' := by
  unfold execPoweredHourTick at h'
  cases h'
  repeat' with_reducible first | assumption | apply State.storeWrite_kept | apply kept_ite | apply keptOpt_some | intro _

theorem State.endDiscovery_kept (s : State) (hs : State.Kept pq s) : State.Kept pq (State.endDiscovery s) := by
  unfold State.endDiscovery
  repeat' with_reducible first | assumption | apply State.onAel_kept | apply kept_ite | apply keptOpt_some | intro _

theorem State.discovered_kept (s : State) (port n : Nat) (hs : State.Kept pq s) : State.Kept pq (State.discovered s port n) := by
  unfold State.discovered
  dsimp only
  repeat' with_reducible first | assumption | apply State.onAel_kept | apply State.onPort_kept | apply State.sendUp_kept | apply State.passOn_kept | apply kept_ite | intro _

theorem State.disableRing_kept (s : State) (ring : Nat) (hs : State.Kept pq s) : State.Kept pq (State.disableRing s ring) := by
  unfold State.disableRing
  repeat' with_reducible first | assumption | apply State.record_kept | apply State.onPort_kept | apply State.endDiscovery_kept | apply kept_ite | apply keptOpt_some | intro _

theorem State.answered_kept (s : State) (port : Nat) (sideB : Bool) (ring pos : Nat) (sys : Word) (hops : Nat) (hs : State.Kept pq s) : State.Kept pq (State.answered s port sideB ring pos sys hops) := by
  unfold State.answered
  repeat' with_reducible first | assumption | apply State.onAel_kept | apply State.endDiscovery_kept | apply State.disableRing_kept | apply kept_ite | apply keptOpt_some | intro _

theorem State.endOverLink_kept (s : State) (ring link : Nat) (moved : List Nat) (hs : State.Kept pq s) : State.Kept pq (State.endOverLink s ring link moved) := by
  unfold State.endOverLink
  repeat' with_reducible first | assumption | apply State.endEverywhere_kept | apply HeldAcc.run_kept | apply kept_foldl | apply kept_ite | apply keptOpt_some | intro _

theorem State.breakLink_kept (s : State) (ring link : Nat) (hs : State.Kept pq s) : State.Kept pq (State.breakLink s ring link) := by
  unfold State.breakLink
  repeat' with_reducible first | assumption | apply State.onAel_kept | apply State.onPort_kept | apply State.broadcastNotice_kept | apply State.mgrAll_kept | apply State.endOverLink_kept | apply kept_foldl | apply kept_ite | apply keptOpt_some | intro _

theorem State.takeSysReset_kept (s : State) (hs : State.Kept pq s) : State.Kept pq (State.takeSysReset s) := by
  unfold State.takeSysReset
  repeat' with_reducible first | assumption | apply State.relay_kept | apply State.beginWarm_kept | apply kept_ite | apply keptOpt_some | intro _

theorem State.takeNotice_kept (s : State) (dev stand reason : Nat) (inc : BitVec 16) (hs : State.Kept pq s) : State.Kept pq (State.takeNotice s dev stand reason inc) := by
  unfold State.takeNotice
  repeat' with_reducible first | assumption | apply State.applyNotice_kept | apply State.relay_kept | apply kept_ite | apply keptOpt_some | intro _

theorem State.takeReset_kept (s : State) (dev stand : Nat) (warm : Bool) (inc : BitVec 16) (hs : State.Kept pq s) : State.Kept pq (State.takeReset s dev stand warm inc) := by
  unfold State.takeReset
  repeat' with_reducible first | assumption | apply State.broadcastNotice_kept | apply State.mgrAll_kept | apply kept_ite | apply keptOpt_some | intro _

theorem State.deliver_kept (s : State) (port : Nat) (sideB : Bool) (m : AelMsg) (hs : State.Kept pq s) : State.Kept pq (State.deliver s port sideB m) := by
  unfold State.deliver
  repeat' with_reducible first | assumption | apply State.sendTo_kept | apply State.mgrDigest_kept | apply State.endRun_kept | apply State.signalKnot_kept | apply State.settleQueues_kept | apply State.passOn_kept | apply State.relay_kept | apply State.arrive_kept | apply State.confirm_kept | apply State.takeTransfer_kept | apply State.runAgain_kept | apply State.takeRelease_kept | apply State.discovered_kept | apply State.answered_kept | apply State.takeSysReset_kept | apply State.takeNotice_kept | apply State.takeReset_kept | apply keptOpt_some | intro _ | split

theorem State.askReplay_kept (s : State) (port : Nat) (sideB : Bool) (hs : State.Kept pq s) : State.Kept pq (State.askReplay s port sideB) := by
  unfold State.askReplay
  repeat' with_reducible first | assumption | apply State.emitFlit_kept | apply keptOpt_some | intro _

theorem State.resend_kept (s : State) (port : Nat) (sideB : Bool) (seq : BitVec 12) (hs : State.Kept pq s) : State.Kept pq (State.resend s port sideB seq) := by
  unfold State.resend
  repeat' with_reducible first | assumption | apply State.emitFlit_kept | apply kept_foldl | apply keptOpt_some | intro _

theorem State.badFlit_kept (s : State) (port : Nat) (sideB : Bool) (hs : State.Kept pq s) : State.Kept pq (State.badFlit s port sideB) := by
  unfold State.badFlit
  repeat' with_reducible first | assumption | apply State.onPort_kept | apply State.onLink_kept | apply State.askReplay_kept | apply kept_ite | apply keptOpt_some | intro _

theorem State.takeFlit_kept (s : State) (port : Nat) (sideB : Bool) (f : Flit) (hs : State.Kept pq s) : State.Kept pq (State.takeFlit s port sideB f) := by
  unfold State.takeFlit
  repeat' with_reducible first | assumption | apply State.onPort_kept | apply State.onLink_kept | apply State.drainLink_kept | apply State.returnOwed_kept | apply State.deliver_kept | apply State.resend_kept | apply State.badFlit_kept | apply kept_foldl | apply kept_ite | apply keptOpt_some | intro _ | split | dsimp only

theorem State.linkUp_kept (s : State) (port : Nat) (sideB : Bool) (hs : State.Kept pq s) : State.Kept pq (State.linkUp s port sideB) := by
  unfold State.linkUp
  repeat' with_reducible first | assumption | apply State.onPort_kept | apply State.onLink_kept | apply State.drainLink_kept | apply State.portSend_kept | apply State.askReplay_kept | apply kept_ite | apply keptOpt_some | intro _

theorem execDiscoveryMessage_kept (port : Nat) (sideB : Bool) (m : AelMsg) (s : State) (hs : State.Kept pq s) (t' : State) (h' : execDiscoveryMessage port sideB m s = .next t') : State.Kept pq t' := by
  unfold execDiscoveryMessage at h'
  cases h'
  repeat' with_reducible first | assumption | apply State.deliver_kept | apply keptOpt_some | intro _ | split

theorem execDiscoveryTimeout_kept (ring : Nat) (s : State) (hs : State.Kept pq s) (t' : State) (h' : execDiscoveryTimeout ring s = .next t') : State.Kept pq t' := by
  unfold execDiscoveryTimeout at h'
  cases h'
  repeat' with_reducible first | assumption | apply State.disableRing_kept | apply kept_ite | apply keptOpt_some | intro _

theorem execAetholoFlitReceive_kept (port : Nat) (sideB : Bool) (f : Flit) (s : State) (hs : State.Kept pq s) (t' : State) (h' : execAetholoFlitReceive port sideB f s = .next t') : State.Kept pq t' := by
  unfold execAetholoFlitReceive at h'
  cases h'
  repeat' with_reducible first | assumption | apply State.takeFlit_kept | apply kept_ite | apply keptOpt_some | intro _

theorem execLinkRetrainDone_kept (port : Nat) (sideB : Bool) (s : State) (hs : State.Kept pq s) (t' : State) (h' : execLinkRetrainDone port sideB s = .next t') : State.Kept pq t' := by
  unfold execLinkRetrainDone at h'
  cases h'
  repeat' with_reducible first | assumption | apply State.linkUp_kept | apply kept_ite | apply keptOpt_some | intro _

theorem execLinkRetrainTimeout_kept (port : Nat) (sideB : Bool) (s : State) (hs : State.Kept pq s) (t' : State) (h' : execLinkRetrainTimeout port sideB s = .next t') : State.Kept pq t' := by
  unfold execLinkRetrainTimeout at h'
  cases h'
  repeat' with_reducible first | assumption | apply State.onPort_kept | apply State.onLink_kept | apply State.breakLink_kept | apply kept_ite | apply keptOpt_some | intro _

theorem execLinkDown_kept (port link : Nat) (s : State) (hs : State.Kept pq s) (t' : State) (h' : execLinkDown port link s = .next t') : State.Kept pq t' := by
  unfold execLinkDown at h'
  cases h'
  repeat' with_reducible first | assumption | apply State.breakLink_kept | apply kept_ite | apply keptOpt_some | intro _

theorem execCollArm_kept (e : Nat) (s : State) (hs : State.Kept pq s) (t' : State) (h' : execCollArm e s = .next t') : State.Kept pq t' := by
  unfold execCollArm at h'
  cases h'
  repeat' with_reducible first | assumption | apply State.onAel_kept | apply State.armEntry_kept | apply kept_ite | apply keptOpt_some | intro _

theorem execCollDisarm_kept (e : Nat) (s : State) (hs : State.Kept pq s) (t' : State) (h' : execCollDisarm e s = .next t') : State.Kept pq t' := by
  unfold execCollDisarm at h'
  cases h'
  repeat' with_reducible first | assumption | apply State.disarmEntry_kept | apply kept_ite | apply keptOpt_some | intro _

theorem execCollectiveTransfer_kept (port : Nat) (sideB : Bool) (x : Xfer) (s : State) (hs : State.Kept pq s) (t' : State) (h' : execCollectiveTransfer port sideB x s = .next t') : State.Kept pq t' := by
  unfold execCollectiveTransfer at h'
  cases h'
  repeat' with_reducible first | assumption | apply State.takeTransfer_kept | apply kept_ite | apply keptOpt_some | intro _

theorem execCollectiveArrival_kept (dev e stand : Nat) (sig : List Byte) (s : State) (hs : State.Kept pq s) (t' : State) (h' : execCollectiveArrival dev e stand sig s = .next t') : State.Kept pq t' := by
  unfold execCollectiveArrival at h'
  cases h'
  repeat' with_reducible first | assumption | apply State.arrive_kept | apply kept_ite | apply keptOpt_some | intro _

theorem execCollectiveRelease_kept (e : Nat) (status : Byte) (dev stand : Nat) (s : State) (hs : State.Kept pq s) (t' : State) (h' : execCollectiveRelease e status dev stand s = .next t') : State.Kept pq t' := by
  unfold execCollectiveRelease at h'
  cases h'
  repeat' with_reducible first | assumption | apply State.endRun_kept | apply State.relay_kept | apply State.takeRelease_kept | apply kept_ite | apply keptOpt_some | intro _

theorem execCollectiveRunEnd_kept (e : Nat) (s : State) (hs : State.Kept pq s) (t' : State) (h' : execCollectiveRunEnd e s = .next t') : State.Kept pq t' := by
  unfold execCollectiveRunEnd at h'
  cases h'
  repeat' with_reducible first | assumption | apply State.settleQueues_kept | apply State.endCollRun_kept | apply kept_ite | apply keptOpt_some | intro _

theorem execAetholoKnotSignal_kept (knot : Nat) (s : State) (hs : State.Kept pq s) (t' : State) (h' : execAetholoKnotSignal knot s = .next t') : State.Kept pq t' := by
  unfold execAetholoKnotSignal at h'
  cases h'
  repeat' with_reducible first | assumption | apply State.signalKnot_kept | apply State.settleQueues_kept | apply kept_ite | apply keptOpt_some | intro _

theorem execAelSysReset_kept (v : Word) (s : State) (hs : State.Kept pq s) (t' : State) (h' : execAelSysReset v s = .next t') : State.Kept pq t' := by
  unfold execAelSysReset at h'
  cases h'
  repeat' with_reducible first | assumption | apply State.sendAll_kept | apply State.beginWarm_kept | apply kept_ite | apply keptOpt_some | intro _

theorem execSysResetNotice_kept (s : State) (hs : State.Kept pq s) (t' : State) (h' : execSysResetNotice s = .next t') : State.Kept pq t' := by
  unfold execSysResetNotice at h'
  cases h'
  repeat' with_reducible first | assumption | apply State.takeSysReset_kept | apply kept_ite | apply keptOpt_some | intro _

theorem execResetNotice_kept (dev stand : Nat) (warm : Bool) (inc : BitVec 16) (s : State) (hs : State.Kept pq s) (t' : State) (h' : execResetNotice dev stand warm inc s = .next t') : State.Kept pq t' := by
  unfold execResetNotice at h'
  cases h'
  repeat' with_reducible first | assumption | apply State.takeReset_kept | apply kept_ite | apply keptOpt_some | intro _

theorem execPeerNotice_kept (dev stand reason : Nat) (inc : BitVec 16) (s : State) (hs : State.Kept pq s) (t' : State) (h' : execPeerNotice dev stand reason inc s = .next t') : State.Kept pq t' := by
  unfold execPeerNotice at h'
  cases h'
  repeat' with_reducible first | assumption | apply State.takeNotice_kept | apply kept_ite | apply keptOpt_some | intro _

theorem pairReg_kept (hi : Bool) (d : DWord) (mask : Word) (put : DWord → State → State) (hp : ∀ d s, State.Kept pq s → State.Kept pq (put d s)) : Reg.Kept pq (pairReg hi d mask put) := by
  unfold pairReg
  with_reducible apply reg_ite
  · intro _; exact reg_mk (fun _ h => h) (fun _ _ h => hp _ _ h)
  · intro _; exact reg_mk (fun _ h => h) (fun _ _ h => hp _ _ h)

theorem roPair_kept (hi : Bool) (d : DWord) : Reg.Kept pq (roPair hi d) := by
  cases hi <;> exact reg_ro

theorem State.leafReg_kept (s : State) (k off : Nat) : Reg.Kept pq (State.leafReg s k off) := by
  unfold State.leafReg
  try dsimp only
  (try split) <;> repeat' with_reducible first | assumption | apply State.onLeaf_kept | apply State.record_kept | apply roPair_kept | apply reg_ite | apply reg_mk | fail_if_no_progress (apply kept_upd) | intro _

theorem State.boughReg_kept (s : State) (b off : Nat) : Reg.Kept pq (State.boughReg s b off) := by
  unfold State.boughReg
  try dsimp only
  (try split) <;> repeat' with_reducible first | assumption | apply State.onBough_kept | apply roPair_kept | apply reg_ite | apply reg_mk | fail_if_no_progress (apply kept_upd) | intro _

theorem State.standReg_kept (s : State) (i off : Nat) : Reg.Kept pq (State.standReg s i off) := by
  unfold State.standReg
  try dsimp only
  (try split) <;> repeat' with_reducible first | assumption | apply State.onStand_kept | apply roPair_kept | apply reg_ite | apply reg_mk | exact res_state (by assumption) (fun t h => execStandReset_kept _ (by assumption) t h) | exact res_state (by assumption) (fun t h => execStandReset_kept _ _ _ (by assumption) t h) | fail_if_no_progress (apply kept_upd) | intro _

theorem State.budReg_kept (s : State) (off : Nat) : Reg.Kept pq (State.budReg s off) := by
  unfold State.budReg
  try dsimp only
  (try split) <;> repeat' with_reducible first | exact reg_ro | assumption | apply State.onBud_kept | apply reg_ite | apply reg_mk | exact res_state (by assumption) (fun t h => execBudPwrCap_kept _ _ (by assumption) t h) | exact res_state (by assumption) (fun t h => execPwrReqDormant_kept _ _ (by assumption) t h) | exact res_state (by assumption) (fun t h => execPwrReqDormant_kept _ (by assumption) t h) | exact res_state (by assumption) (fun t h => execPwrReqWake_kept _ _ (by assumption) t h) | exact res_state (by assumption) (fun t h => execPwrReqWake_kept _ (by assumption) t h) | apply kept_ite | fail_if_no_progress (apply kept_upd) | intro _

theorem State.storeReg_kept (s : State) (off : Nat) : Reg.Kept pq (State.storeReg s off) := by
  unfold State.storeReg
  try dsimp only
  (try split) <;> repeat' with_reducible first | assumption | apply State.onStore_kept | apply reg_ite | apply reg_mk | fail_if_no_progress (apply kept_upd) | intro _

theorem State.trunkReg_kept (s : State) (off : Nat) : Reg.Kept pq (State.trunkReg s off) := by
  unfold State.trunkReg
  try dsimp only
  (try split) <;> repeat' with_reducible first | exact reg_ro | assumption | apply State.alert_kept | apply State.onTrunk_kept | apply State.onMgmt_kept | apply pairReg_kept | apply reg_ite | apply reg_mk | exact res_state (by assumption) (fun t h => execColdReset_kept _ _ (by assumption) t h) | exact res_state (by assumption) (fun t h => execColdReset_kept _ (by assumption) t h) | exact res_state (by assumption) (fun t h => execColdReset_kept _ _ _ (by assumption) t h) | exact res_state (by assumption) (fun t h => execWarmReset_kept _ _ (by assumption) t h) | exact res_state (by assumption) (fun t h => execWarmReset_kept _ (by assumption) t h) | exact res_state (by assumption) (fun t h => execWarmReset_kept _ _ _ (by assumption) t h) | apply kept_ite | apply kept_foldl | fail_if_no_progress (apply kept_upd) | intro _ | split | apply reg_clear | apply reg_write | dsimp only

theorem State.queReg_kept (s : State) (off : Nat) : Reg.Kept pq (State.queReg s off) := by
  unfold State.queReg
  try dsimp only
  (try split) <;> repeat' with_reducible first | exact reg_ro | assumption | apply State.onQue_kept | apply State.onKnot_kept | apply pairReg_kept | apply reg_ite | apply reg_mk | exact res_state (by assumption) (fun t h => execQueCtrlWrite_kept _ _ (by assumption) t h) | exact res_state (by assumption) (fun t h => execQueCtrlWrite_kept _ (by assumption) t h) | exact res_state (by assumption) (fun t h => execQueCtrlWrite_kept _ _ _ (by assumption) t h) | exact res_state (by assumption) (fun t h => execQueDisable_kept _ _ (by assumption) t h) | exact res_state (by assumption) (fun t h => execQueDisable_kept _ (by assumption) t h) | exact res_state (by assumption) (fun t h => execQueDisable_kept _ _ _ (by assumption) t h) | exact res_state (by assumption) (fun t h => execQueEnable_kept _ _ (by assumption) t h) | exact res_state (by assumption) (fun t h => execQueEnable_kept _ (by assumption) t h) | exact res_state (by assumption) (fun t h => execQueEnable_kept _ _ _ (by assumption) t h) | exact res_state (by assumption) (fun t h => execQueFlush_kept _ _ (by assumption) t h) | exact res_state (by assumption) (fun t h => execQueFlush_kept _ (by assumption) t h) | exact res_state (by assumption) (fun t h => execQueFlush_kept _ _ _ (by assumption) t h) | exact res_state (by assumption) (fun t h => execQueKnotCfg_kept _ _ (by assumption) t h) | exact res_state (by assumption) (fun t h => execQueKnotCfg_kept _ (by assumption) t h) | exact res_state (by assumption) (fun t h => execQueKnotCfg_kept _ _ _ (by assumption) t h) | exact res_state (by assumption) (fun t h => execQueKnotSignal_kept _ _ (by assumption) t h) | exact res_state (by assumption) (fun t h => execQueKnotSignal_kept _ (by assumption) t h) | exact res_state (by assumption) (fun t h => execQueKnotSignal_kept _ _ _ (by assumption) t h) | exact res_state (by assumption) (fun t h => execQueKnotState_kept _ _ (by assumption) t h) | exact res_state (by assumption) (fun t h => execQueKnotState_kept _ (by assumption) t h) | exact res_state (by assumption) (fun t h => execQueKnotState_kept _ _ _ (by assumption) t h) | exact res_state (by assumption) (fun t h => execQueResume_kept _ _ (by assumption) t h) | exact res_state (by assumption) (fun t h => execQueResume_kept _ (by assumption) t h) | exact res_state (by assumption) (fun t h => execQueResume_kept _ _ _ (by assumption) t h) | apply kept_ite | apply kept_foldl | fail_if_no_progress (apply kept_upd) | intro _ | split | apply reg_clear | apply reg_write | dsimp only

theorem State.msixReg_kept (s : State) (f w : Nat) : Reg.Kept pq (State.msixReg s f w) := by
  unfold State.msixReg
  try dsimp only
  (try split) <;> repeat' with_reducible first | exact reg_ro | assumption | apply State.onFunc_kept | apply State.raisePending_kept | apply reg_ite | apply reg_mk | fail_if_no_progress (apply kept_upd) | intro _

theorem State.pbaReg_kept (s : State) (f w : Nat) : Reg.Kept pq (State.pbaReg s f w) := by
  unfold State.pbaReg
  try dsimp only
  (try split) <;> repeat' with_reducible first | exact reg_ro

theorem State.pcieReg_kept (s : State) (off : Nat) : Reg.Kept pq (State.pcieReg s off) := by
  unfold State.pcieReg
  try dsimp only
  (try split) <;> repeat' with_reducible first | assumption | apply State.onPcie_kept | apply roPair_kept | apply State.msixReg_kept | apply State.pbaReg_kept | apply reg_ite | apply reg_mk | fail_if_no_progress (apply kept_upd) | intro _

theorem State.vfReg_kept (s : State) (v off : Nat) : Reg.Kept pq (State.vfReg s v off) := by
  unfold State.vfReg
  try dsimp only
  (try split) <;> repeat' with_reducible first | exact reg_ro | assumption | apply State.msixReg_kept | apply State.pbaReg_kept | apply reg_ite | fail_if_no_progress (apply kept_upd) | intro _

theorem State.setCollEn_kept (s : State) (on : Bool) (hs : State.Kept pq s) : State.Kept pq (State.setCollEn s on) := by
  unfold State.setCollEn
  repeat' with_reducible first | assumption | apply State.onQue_kept | apply State.onAel_kept | apply State.armWait_kept | apply kept_foldl | apply kept_ite | apply keptOpt_some | intro _

theorem State.aelReg_kept (s : State) (off : Nat) : Reg.Kept pq (State.aelReg s off) := by
  unfold State.aelReg
  try dsimp only
  (try split) <;> repeat' with_reducible first | exact reg_ro | assumption | apply State.onAel_kept | apply State.onPort_kept | apply State.settleQueues_kept | apply State.armResult_kept | apply pairReg_kept | apply State.setCollEn_kept | apply reg_ite | apply reg_mk | exact res_state (by assumption) (fun t h => execAelSysReset_kept _ _ (by assumption) t h) | exact res_state (by assumption) (fun t h => execAelSysReset_kept _ (by assumption) t h) | exact res_state (by assumption) (fun t h => execAelSysReset_kept _ _ _ (by assumption) t h) | exact res_state (by assumption) (fun t h => execCollArm_kept _ _ (by assumption) t h) | exact res_state (by assumption) (fun t h => execCollArm_kept _ (by assumption) t h) | exact res_state (by assumption) (fun t h => execCollArm_kept _ _ _ (by assumption) t h) | exact res_state (by assumption) (fun t h => execCollDisarm_kept _ _ (by assumption) t h) | exact res_state (by assumption) (fun t h => execCollDisarm_kept _ (by assumption) t h) | exact res_state (by assumption) (fun t h => execCollDisarm_kept _ _ _ (by assumption) t h) | apply kept_ite | apply kept_foldl | fail_if_no_progress (apply kept_upd) | intro _ | split | apply reg_clear | apply reg_write | dsimp only

theorem State.reg_kept (s : State) (off : Nat) : Reg.Kept pq (State.reg s off) := by
  unfold State.reg
  try dsimp only
  (try split) <;> repeat' with_reducible first | exact reg_ro | assumption | apply State.leafReg_kept | apply State.boughReg_kept | apply State.standReg_kept | apply State.budReg_kept | apply State.storeReg_kept | apply State.trunkReg_kept | apply State.queReg_kept | apply State.pcieReg_kept | apply State.aelReg_kept | apply reg_ite | apply reg_mk | apply kept_ite | apply kept_foldl | fail_if_no_progress (apply kept_upd) | intro _ | split | apply reg_clear | apply reg_write | dsimp only

theorem State.regOf_kept (s : State) (fn off : Nat) : Reg.Kept pq (State.regOf s fn off) := by
  unfold State.regOf
  try dsimp only
  (try split) <;> repeat' with_reducible first | assumption | apply State.vfReg_kept | apply State.reg_kept

theorem State.readReg_kept (s : State) (fn off : Nat) (hs : State.Kept pq s) : KeptSnd pq (State.readReg s fn off) := by
  unfold State.readReg
  repeat' with_reducible first | assumption | apply State.regOf_kept | apply kept_putSome | fail_if_no_progress (apply kept_upd) | apply keptFst_mk | apply keptSnd_mk | apply keptOpt_some | intro _ | split | apply kept_snd | apply reg_clear

theorem State.completeRead_kept (s : State) (len : Nat) (d : DWord) (hs : State.Kept pq s) : State.Kept pq (State.completeRead s len d) := by
  unfold State.completeRead
  repeat' with_reducible first | assumption | apply State.emit_kept | apply kept_putSome | fail_if_no_progress (apply kept_upd)

theorem State.bar0Read_kept (s : State) (a : Bar0Acc) (hs : State.Kept pq s) : State.Kept pq (State.bar0Read s a) := by
  unfold State.bar0Read
  repeat' with_reducible first | assumption | apply State.pciError_kept | apply State.readReg_kept | apply State.completeRead_kept | apply kept_ite | apply keptOpt_some | intro _ | apply kept_fst | apply kept_snd

theorem State.bar0Write_kept (s : State) (a : Bar0Acc) (v : DWord) (hs : State.Kept pq s) : State.Kept pq (State.bar0Write s a v) := by
  unfold State.bar0Write
  repeat' with_reducible first | assumption | apply State.pciError_kept | apply State.regOf_kept | apply kept_ite | apply keptOpt_some | intro _ | apply reg_clear | apply reg_write

theorem execRegisterWrite_kept (acc : Bar0Acc) (v : DWord) (s : State) (hs : State.Kept pq s) (t' : State) (h' : execRegisterWrite acc v s = .next t') : State.Kept pq t' := by
  unfold execRegisterWrite at h'
  cases h'
  repeat' with_reducible first | assumption | apply State.bar0Write_kept | apply kept_ite | apply keptOpt_some | intro _

theorem execRegisterReadClear_kept (acc : Bar0Acc) (s : State) (hs : State.Kept pq s) (t' : State) (h' : execRegisterReadClear acc s = .next t') : State.Kept pq t' := by
  unfold execRegisterReadClear at h'
  cases h'
  repeat' with_reducible first | assumption | apply State.bar0Read_kept | apply kept_ite | apply keptOpt_some | intro _

theorem execLoRegisterRead_kept (off : Nat) (s : State) (hs : State.Kept pq s) (t' : State) (h' : execLoRegisterRead off s = .next t') : State.Kept pq t' := by
  unfold execLoRegisterRead at h'
  cases h'
  repeat' with_reducible first | assumption | apply State.reg_kept | apply State.readReg_kept | apply State.completeRead_kept | apply kept_ite | apply keptOpt_some | intro _ | apply kept_fst | apply kept_snd

theorem execBar0AccessTimeout_kept (acc : Bar0Acc) (isWrite : Bool) (s : State) (hs : State.Kept pq s) (t' : State) (h' : execBar0AccessTimeout acc isWrite s = .next t') : State.Kept pq t' := by
  unfold execBar0AccessTimeout at h'
  cases h'
  repeat' with_reducible first | assumption | apply State.pciError_kept | apply State.completeRead_kept | apply kept_ite | apply keptOpt_some | intro _

end Sys2Proof.Machine
end

