-- ==== Sys2Proof/Laws/Kept8.lean ====
section
/-! SUPPORT. Memory and the waiting commands are kept by the operations of Management. -/

namespace Sys2Proof.Machine

variable {pq : List Instr}

theorem execGetIdentity_kept (r : MReq) (s : State) (hs : State.Kept pq s) (t' : State) (h' : execGetIdentity r s = .next t') : State.Kept pq t' := by
  unfold execGetIdentity at h'
  cases h'
  repeat' with_reducible first | assumption | apply State.answer_kept | apply State.trunkServe_kept | apply kept_ite | apply keptOpt_some | intro _

theorem execGetStatus_kept (r : MReq) (s : State) (hs : State.Kept pq s) (t' : State) (h' : execGetStatus r s = .next t') : State.Kept pq t' := by
  unfold execGetStatus at h'
  cases h'
  repeat' with_reducible first | assumption | apply State.answer_kept | apply State.mgmtServe_kept | apply kept_ite | apply keptOpt_some | intro _

theorem execGetTelemetry_kept (r : MReq) (s : State) (hs : State.Kept pq s) (t' : State) (h' : execGetTelemetry r s = .next t') : State.Kept pq t' := by
  unfold execGetTelemetry at h'
  cases h'
  repeat' with_reducible first | assumption | apply State.answer_kept | apply State.mgmtServe_kept | apply kept_ite | apply keptOpt_some | intro _

theorem execReadRecords_kept (r : MReq) (s : State) (hs : State.Kept pq s) (t' : State) (h' : execReadRecords r s = .next t') : State.Kept pq t' := by
  unfold execReadRecords at h'
  cases h'
  repeat' with_reducible first | assumption | apply State.answer_kept | apply State.trunkServe_kept | apply kept_ite | apply keptOpt_some | intro _

theorem execClearAlert_kept (r : MReq) (s : State) (hs : State.Kept pq s) (t' : State) (h' : execClearAlert r s = .next t') : State.Kept pq t' := by
  unfold execClearAlert at h'
  cases h'
  repeat' with_reducible first | assumption | apply State.alert_kept | apply State.onMgmt_kept | apply State.answer_kept | apply State.mgmtServe_kept | apply kept_ite | apply keptOpt_some | intro _

theorem execMgmtStandReset_kept (r : MReq) (s : State) (hs : State.Kept pq s) (t' : State) (h' : execMgmtStandReset r s = .next t') : State.Kept pq t' := by
  unfold execMgmtStandReset at h'
  cases h'
  repeat' with_reducible first | assumption | apply State.onStand_kept | apply State.requestReset_kept | apply State.answer_kept | apply State.trunkServe_kept | apply kept_ite | apply keptOpt_some | intro _

theorem execMgmtWarmReset_kept (r : MReq) (s : State) (hs : State.Kept pq s) (t' : State) (h' : execMgmtWarmReset r s = .next t') : State.Kept pq t' := by
  unfold execMgmtWarmReset at h'
  cases h'
  repeat' with_reducible first | assumption | apply State.answer_kept | apply State.mgmtServe_kept | apply State.beginWarm_kept | apply kept_ite | apply keptOpt_some | intro _

theorem execMgmtColdReset_kept (r : MReq) (s : State) (hs : State.Kept pq s) (t' : State) (h' : execMgmtColdReset r s = .next t') : State.Kept pq t' := by
  unfold execMgmtColdReset at h'
  cases h'
  repeat' with_reducible first | assumption | apply State.answer_kept | apply State.mgmtServe_kept | apply State.selfColdReset_kept | apply kept_ite | apply keptOpt_some | intro _

theorem execMgmtPowerDormant_kept (r : MReq) (s : State) (hs : State.Kept pq s) (t' : State) (h' : execMgmtPowerDormant r s = .next t') : State.Kept pq t' := by
  unfold execMgmtPowerDormant at h'
  cases h'
  repeat' with_reducible first | assumption | apply State.answer_kept | apply State.trunkServe_kept | apply State.requestDormant_kept | apply keptOpt_some | intro _ | split

theorem execMgmtPowerWake_kept (r : MReq) (s : State) (hs : State.Kept pq s) (t' : State) (h' : execMgmtPowerWake r s = .next t') : State.Kept pq t' := by
  unfold execMgmtPowerWake at h'
  cases h'
  repeat' with_reducible first | assumption | apply State.wakeEvent_kept | apply State.answer_kept | apply State.mgmtServe_kept | apply kept_ite | apply keptOpt_some | intro _

theorem execSetPowerCap_kept (r : MReq) (s : State) (hs : State.Kept pq s) (t' : State) (h' : execSetPowerCap r s = .next t') : State.Kept pq t' := by
  unfold execSetPowerCap at h'
  cases h'
  repeat' with_reducible first | assumption | apply State.onBud_kept | apply State.answer_kept | apply State.mgmtServe_kept | apply kept_ite | apply keptOpt_some | intro _

theorem execWriteRole_kept (r : MReq) (s : State) (hs : State.Kept pq s) (t' : State) (h' : execWriteRole r s = .next t') : State.Kept pq t' := by
  unfold execWriteRole at h'
  cases h'
  repeat' with_reducible first | assumption | apply State.storeRec_kept | apply State.answer_kept | apply State.trunkServe_kept | apply State.awaitStore_kept | apply keptOpt_some | intro _ | split

theorem execGetQuote_kept (r : MReq) (s : State) (hs : State.Kept pq s) (t' : State) (h' : execGetQuote r s = .next t') : State.Kept pq t' := by
  unfold execGetQuote at h'
  cases h'
  repeat' with_reducible first | assumption | apply State.answer_kept | apply State.trunkServe_kept | apply State.quote_kept | apply kept_ite | apply keptOpt_some | intro _

theorem execGetDebugNonce_kept (r : MReq) (nonce : List Byte) (s : State) (hs : State.Kept pq s) (t' : State) (h' : execGetDebugNonce r nonce s = .next t') : State.Kept pq t' := by
  unfold execGetDebugNonce at h'
  cases h'
  repeat' with_reducible first | assumption | apply State.onTrunk_kept | apply State.answer_kept | apply State.trunkServe_kept | apply kept_ite | apply keptOpt_some | intro _

theorem State.mctp_kept (s : State) (via : Transport) (go : State → State) (hs : State.Kept pq s) (hgo : ∀ s0, State.Kept pq s0 → State.Kept pq (go s0)) : State.Kept pq (State.mctp s via go) := by
  unfold State.mctp
  repeat' with_reducible first | assumption | apply hgo | apply kept_ite | apply keptOpt_some | intro _

theorem execSetEndpointId_kept (via : Transport) (eid : Byte) (s : State) (hs : State.Kept pq s) (t' : State) (h' : execSetEndpointId via eid s = .next t') : State.Kept pq t' := by
  unfold execSetEndpointId at h'
  cases h'
  repeat' with_reducible first | assumption | apply State.onMgmt_kept | apply State.emit_kept | apply State.mctp_kept | apply kept_ite | apply keptOpt_some | intro _

theorem execGetEndpointId_kept (via : Transport) (s : State) (hs : State.Kept pq s) (t' : State) (h' : execGetEndpointId via s = .next t') : State.Kept pq t' := by
  unfold execGetEndpointId at h'
  cases h'
  repeat' with_reducible first | assumption | apply State.emit_kept | apply State.mctp_kept | apply keptOpt_some | intro _

theorem execGetEndpointUuid_kept (via : Transport) (s : State) (hs : State.Kept pq s) (t' : State) (h' : execGetEndpointUuid via s = .next t') : State.Kept pq t' := by
  unfold execGetEndpointUuid at h'
  cases h'
  repeat' with_reducible first | assumption | apply State.emit_kept | apply State.mctp_kept | apply keptOpt_some | intro _

theorem execGetMctpVersionSupport_kept (via : Transport) (s : State) (hs : State.Kept pq s) (t' : State) (h' : execGetMctpVersionSupport via s = .next t') : State.Kept pq t' := by
  unfold execGetMctpVersionSupport at h'
  cases h'
  repeat' with_reducible first | assumption | apply State.free_kept | apply State.emit_kept | apply State.mctp_kept | apply keptOpt_some | intro _ | apply kept_fst | apply kept_snd

theorem execGetMessageTypeSupport_kept (via : Transport) (s : State) (hs : State.Kept pq s) (t' : State) (h' : execGetMessageTypeSupport via s = .next t') : State.Kept pq t' := by
  unfold execGetMessageTypeSupport at h'
  cases h'
  repeat' with_reducible first | assumption | apply State.emit_kept | apply State.mctp_kept | apply keptOpt_some | intro _

theorem execGetVendorDefinedMsgSupport_kept (via : Transport) (s : State) (hs : State.Kept pq s) (t' : State) (h' : execGetVendorDefinedMsgSupport via s = .next t') : State.Kept pq t' := by
  unfold execGetVendorDefinedMsgSupport at h'
  cases h'
  repeat' with_reducible first | assumption | apply State.free_kept | apply State.emit_kept | apply State.mctp_kept | apply keptOpt_some | intro _ | apply kept_fst | apply kept_snd

theorem execSmbusAlertResponse_kept (s : State) (hs : State.Kept pq s) (t' : State) (h' : execSmbusAlertResponse s = .next t') : State.Kept pq t' := by
  unfold execSmbusAlertResponse at h'
  cases h'
  repeat' with_reducible first | assumption | apply State.emit_kept | apply kept_ite | apply keptOpt_some | intro _

end Sys2Proof.Machine
end

