-- ==== Sys2Proof/Laws/Ops.lean ====
section
/-! SUPPORT. What the shared operations of Machine/Ops.lean and StoreOps.lean can do: an error record, a raised vector and a posted write touch only the fields named here. -/

namespace Sys2Proof.Machine

/-- What writing an error record leaves alone (R336, R337): everything but the record fields of the trunk, the functions' pending bits, the alert bits, the ring's memory, what is sent out and the free values used. -/
structure RecordFrame (s t : State) : Prop where
  trunk : t.trunk = { s.trunk with recSeq := t.trunk.recSeq, onDie := t.trunk.onDie, spacing := t.trunk.spacing, lost := t.trunk.lost,
                                   recLost := t.trunk.recLost, recHead := t.trunk.recHead }
  pcie : t.pcie = { s.pcie with funcs := t.pcie.funcs }
  mgmt : t.mgmt = { s.mgmt with alert := t.mgmt.alert }
  rest : t = { s with trunk := t.trunk, pcie := t.pcie, mgmt := t.mgmt, hbm := t.hbm, hbmBad := t.hbmBad, out := t.out, freeCtr := t.freeCtr }

theorem RecordFrame.refl (s : State) : RecordFrame s s := ⟨rfl, rfl, rfl, rfl⟩

theorem RecordFrame.trans {s t u : State} (a : RecordFrame s t) (b : RecordFrame t u) : RecordFrame s u := by
  obtain ⟨a1, a2, a3, a4⟩ := a
  obtain ⟨b1, b2, b3, b4⟩ := b
  refine ⟨?_, ?_, ?_, ?_⟩
  · rw [b1, a1]
  · rw [b2, a2]
  · rw [b3, a3]
  · rw [b4, a4]

theorem RecordFrame.foldl {α : Type} (l : List α) (f : State → α → State) (s0 s : State) (h : RecordFrame s0 s)
    (hf : ∀ s a, RecordFrame s0 s → RecordFrame s0 (f s a)) : RecordFrame s0 (l.foldl f s) := by
  induction l generalizing s with
  | nil => exact h
  | cons a r ih => exact ih _ (hf s a h)

/-- A raised vector changes its function's pending bits and may send a message (R279). -/
theorem State.raise_frame (s : State) (f vec : Nat) : RecordFrame s (s.raise f vec) := by
  unfold State.raise
  dsimp only
  split <;> exact ⟨rfl, rfl, rfl, rfl⟩

/-- A posted write to host memory only sends (R287). -/
theorem State.hostPost_frame (s : State) (f a : Nat) (bs : List Byte) (p w : Bool) : RecordFrame s (s.hostPost f a bs p w) := by
  unfold State.hostPost
  split
  · exact RecordFrame.foldl _ _ s s (.refl s) fun u r h => h.trans ⟨rfl, rfl, rfl, rfl⟩
  · exact ⟨rfl, rfl, rfl, rfl⟩

/-- A write of the device to an address changes memory or sends (R287). -/
theorem State.writeAddr_frame (s : State) (f : Nat) (a : Addr) (bs : List Byte) : RecordFrame s (s.writeAddr f a bs) := by
  unfold State.writeAddr
  split
  · exact ⟨rfl, rfl, rfl, rfl⟩
  · exact s.hostPost_frame _ _ _ _ _
  · exact .refl s

theorem State.ringEntry_frame (s : State) (ring : Addr) (bs : List Byte) : RecordFrame s (s.ringEntry ring bs) :=
  (s.writeAddr_frame 0 _ bs).trans ⟨rfl, rfl, rfl, rfl⟩

theorem State.alert_frame (s : State) (m : Nat) : RecordFrame s (s.alert m) := ⟨rfl, rfl, rfl, rfl⟩

theorem State.deliverRecord_frame (s : State) (need : Nat) (bs : List Byte) : RecordFrame s (s.deliverRecord need bs) := by
  have h (ring : Addr) (l : List (List Byte)) : RecordFrame s ((l.foldl (fun s c => s.ringEntry ring c) s).onTrunk fun t => { t with lost := 0 }) :=
    (RecordFrame.foldl l _ s s (.refl s) fun u a h => h.trans (u.ringEntry_frame ring a)).trans ⟨rfl, rfl, rfl, rfl⟩
  unfold State.deliverRecord
  split
  · exact .refl s
  · split
    · exact ⟨rfl, rfl, rfl, rfl⟩
    · dsimp only
      split
      · exact (h _ _).trans (State.raise_frame _ _ _)
      · exact h _ _

theorem State.recordAlert_frame (s : State) (k : RKind) (sev : Nat) : RecordFrame s (s.recordAlert k sev) := by
  unfold State.recordAlert
  dsimp only
  split <;> split <;> exact ⟨rfl, rfl, rfl, rfl⟩

theorem State.recordGo_frame (s : State) (k : RKind) (unit : Word) (i : RecInfo) (reps : BitVec 16) (rest : List Spacing) :
    RecordFrame s (State.record.go s k unit i reps rest) := by
  unfold State.record.go
  dsimp only
  refine .trans (.trans ?_ (State.deliverRecord_frame _ _ _)) (State.recordAlert_frame _ _ _)
  exact ⟨rfl, rfl, rfl, rfl⟩

/-- An error record, or its repeat under the 1 ms spacing. -/
theorem State.record_frame (s : State) (k : RKind) (unit : Word) (i : RecInfo) : RecordFrame s (s.record k unit i) := by
  unfold State.record
  dsimp only
  split
  · split
    · exact ⟨rfl, rfl, rfl, rfl⟩
    · exact s.recordGo_frame _ _ _ _ _
  · exact s.recordGo_frame _ _ _ _ _

end Sys2Proof.Machine
end

