-- ==== Sys2Proof/Laws/SMap.lean ====
section
/-! SUPPORT. Reading a sparse table after a change of one key. -/

namespace Sys2Proof.Machine

variable {α : Type}

theorem smFind_mem (m : SMap α) (k : Nat) (v : α) (h : smFind m k = some v) : (k, v) ∈ m := by
  induction m with
  | nil => cases h
  | cons p r ih =>
    simp only [smFind] at h
    split at h
    · rename_i e
      cases h
      exact e ▸ List.mem_cons_self
    · exact List.mem_cons_of_mem _ (ih h)

theorem smFind_set_same (m : SMap α) (k : Nat) (v : α) : smFind (smSet m k v) k = some v := by
  induction m with
  | nil => simp [smSet, smFind]
  | cons p r ih =>
    obtain ⟨i, w⟩ := p
    unfold smSet
    split
    · simp [smFind]
    · split
      · simp [smFind]
      · rename_i h1 h2; simp [smFind, h2, ih]

theorem smFind_set_other (m : SMap α) (k j : Nat) (v : α) (h : j ≠ k) : smFind (smSet m k v) j = smFind m j := by
  induction m with
  | nil => simp [smSet, smFind, Ne.symm h]
  | cons p r ih =>
    obtain ⟨i, w⟩ := p
    unfold smSet
    split
    · simp [smFind, Ne.symm h]
    · split
      · rename_i h1 h2; subst h2; simp [smFind, Ne.symm h]
      · simp [smFind, ih]

@[simp] theorem smGet_upd_same (d : α) (m : SMap α) (k : Nat) (f : α → α) : smGet d (smUpd d m k f) k = f (smGet d m k) := by
  unfold smUpd
  simp [smGet, smFind_set_same]

theorem smGet_upd_other (d : α) (m : SMap α) (k j : Nat) (f : α → α) (h : j ≠ k) : smGet d (smUpd d m k f) j = smGet d m j := by
  unfold smUpd
  simp [smGet, smFind_set_other, h]

@[simp] theorem smGet_set_same (d : α) (m : SMap α) (k : Nat) (v : α) : smGet d (smSet m k v) k = v := by
  simp [smGet, smFind_set_same]

theorem smGet_set_other (d : α) (m : SMap α) (k j : Nat) (v : α) (h : j ≠ k) : smGet d (smSet m k v) j = smGet d m j := by
  simp [smGet, smFind_set_other, h]

end Sys2Proof.Machine
end

