-- ==== Sys2Proof/Tests/Slice0.lean ====
section
/-! SUPPORT. Tests: the operand checks refuse an ill-formed term each, every statement with hypotheses has a state and operands that meet them, and a few steps on small states give what the manual's examples give. -/

namespace Sys2Proof.Tests

open Sys2Proof Sys2Proof.Machine

-- One theorem after another: each may evaluate a whole step.
set_option Elab.async false

-- Operand checks: one ill-formed term for each.

theorem test_wf_bough : Instr.wf (.nop 15) = true ∧ Instr.wf (.nop 16) = false := by decide
theorem test_wf_leaf : Instr.wf (.calCommit 15 17) = true ∧ Instr.wf (.calCommit 0 18) = false := by decide
theorem test_wf_codes : Instr.wf (.refSelfCheck 0 0 ⟨List.replicate 32 192, []⟩) = true ∧ Instr.wf (.refSelfCheck 0 0 ⟨[], []⟩) = false := by decide
theorem test_wf_group : Instr.wf (.biasWindowEnd 0 0 15) = true ∧ Instr.wf (.biasWindowEnd 0 0 16) = false := by decide
theorem test_wf_levels : Instr.wf (.fullVerifyDone 0 0 [(5, 3)]) = true ∧ Instr.wf (.fullVerifyDone 0 0 [(5, 4)]) = false := by decide
theorem test_wf_working : Instr.wf (.governorInterval { power := 0, working := 288 }) = true ∧ Instr.wf (.governorInterval { power := 0, working := 289 }) = false := by decide
theorem test_wf_queue : Instr.wf (.queEnable 0xFFFFF) = true ∧ Instr.wf (.queEnable 0x100000) = false := by decide
theorem test_wf_slot : Instr.wf (.quiesceTimeout 255) = true ∧ Instr.wf (.quiesceTimeout 256) = false := by decide
theorem test_wf_knot : Instr.wf (.knotSignal 65535) = true ∧ Instr.wf (.knotSignal 65536) = false := by decide
theorem test_wf_port : Instr.wf (.linkRetrainDone 3 true) = true ∧ Instr.wf (.linkRetrainDone 4 true) = false := by decide
theorem test_wf_link : Instr.wf (.linkDown 3 16) = true ∧ Instr.wf (.linkDown 3 17) = false := by decide
theorem test_wf_ring : Instr.wf (.discoveryTimeout 3) = true ∧ Instr.wf (.discoveryTimeout 4) = false := by decide
theorem test_wf_entry : Instr.wf (.collArm 4095) = true ∧ Instr.wf (.collArm 4096) = false := by decide
theorem test_wf_device : Instr.wf (.resetNotice 64 3 true 0) = true ∧ Instr.wf (.resetNotice 65 3 true 0) = false := by decide
theorem test_wf_stand : Instr.wf (.standReset 3 0) = true ∧ Instr.wf (.standReset 4 0) = false := by decide
theorem test_wf_function : Instr.wf (.vfFlr 31) = true ∧ Instr.wf (.vfFlr 0) = false ∧ Instr.wf (.vfFlr 32) = false := by decide
theorem test_wf_vector : Instr.wf (.msixUnmask 1 (.unmask 63)) = true ∧ Instr.wf (.msixUnmask 1 (.unmask 64)) = false := by decide
theorem test_wf_vfs : Instr.wf (.configurationRequest 0 (.vfEnable true 31)) = true ∧ Instr.wf (.configurationRequest 0 (.vfEnable true 32)) = false := by decide
theorem test_wf_island : Instr.wf (.islandRestart 28) = true ∧ Instr.wf (.islandRestart 29) = false := by decide
theorem test_wf_channel : Instr.wf (.patrolScrub 31 {}) = true ∧ Instr.wf (.patrolScrub 32 {}) = false := by decide
theorem test_wf_route : Instr.wf (.xferLand 0 1023 15) = true ∧ Instr.wf (.xferLand 0 1024 15) = false ∧ Instr.wf (.xferLand 0 0 16) = false := by decide
theorem test_wf_doorbell : Instr.wf (.doorbell 0 0xFFFFFF 8 (some 0)) = true ∧ Instr.wf (.doorbell 0 0x1000000 8 none) = false := by decide
theorem test_wf_register : Instr.wf (.registerWrite { off := 0x3FFFFFC } 0) = true ∧ Instr.wf (.registerWrite { fn := 1, off := 0x10000 } 0) = false := by decide
theorem test_wf_loRead : Instr.wf (.loRegisterRead 0x3FFFFFC) = true ∧ Instr.wf (.loRegisterRead 0x4000000) = false := by decide
theorem test_wf_bar2 : Instr.wf (.bar2Read 0 1) = true ∧ Instr.wf (.bar2Read 0 0) = false ∧ Instr.wf (.bar2Write 0 []) = false := by decide
theorem test_wf_dma : Instr.wf (.dmaRequestFailed (.fetch 15) 0) = true ∧ Instr.wf (.dmaRequestFailed (.fetch 16) 0) = false := by decide
theorem test_wf_message : Instr.wf (.discoveryMessage 0 false (.discovery 1)) = true ∧ Instr.wf (.discoveryMessage 0 false .sysReset) = false := by decide
theorem test_wf_flit : Instr.wf (.aetholoFlitReceive 0 false { bytes := List.replicate 248 0, body := .credit }) = true ∧ Instr.wf (.aetholoFlitReceive 0 false { bytes := [], body := .credit }) = false := by decide +kernel

-- States that the witnesses share.

/-- A device at work: every bough enabled, firmware running, the link up. -/
def base : State :=
  { bud := { pwrGood := true, perst := false }, trunk := { boot := .ready, fwRunning := true, coreMap := 0xFFFF#16, identityOk := true, runningSlot := 1 }, store := { state := .ready },
    pcie := { ready := true, linkState := 1#3 } }

/-- `base` with leaf 0 given. -/
def withLeaf (l : Leaf) : State := { base with leaves := [(0, l)] }

/-- `base` with bough 0 given. -/
def withBough (x : Bough) : State := { base with boughs := [(0, x)] }

/-- `base` with stand 0 given. -/
def withStand (d : Stand) : State := { base with stands := [(0, d)] }

/-- `base` with queue 0 given. -/
def withQueue (r : QRun) : State := { base with que := { queues := [(0, r)], ctrl := true } }

/-- `base` with a long operation in slot 0. -/
def withOp (o : LongOp) : State := { base with trunk := { base.trunk with ops := [(0, o)] } }

/-- A command record with an opcode and its argument bytes. -/
def command (opc : Nat) (args : List Byte) : List Byte := leBytes 8 7 ++ leBytes 2 opc ++ List.replicate 54 0 ++ args ++ List.replicate (64 - args.length) 0

/-- A command queue of one record at HBM address 0. -/
def cmdQueue : QRun := { desc := { owner := 4, sqBase := .hbm 0, cqBase := .hbm 4096, sqLog2 := 1, cqLog2 := 8 }, enabled := true, sqTail := 1 }

/-- `base` with a command at the head of queue 0. -/
def withCommand (bs : List Byte) : State := { withQueue cmdQueue with hbm := (bs.zipIdx.filter fun p => p.1 != 0).map fun p => (p.2, p.1) }

theorem serves (bs : List Byte) (opc n : Nat) (used : List (Nat × Nat)) (h : (withCommand bs).takeCommand 0 n = some (parseTask bs, bs)) (h1 : (withCommand bs).cmdTurn 0 = true)
    (h2 : (withCommand bs).headUe 0 = none) (h3 : (knownOpcode (parseTask bs).program && decide ((parseTask bs).program = opc) && cmdFieldsOk bs used) = true) :
    (withCommand bs).ServesHead 0 opc n used (parseTask bs) := by
  simp only [Bool.and_eq_true, decide_eq_true_eq] at h3
  exact ⟨bs, h, h1, h2, h3.1.1, h3.1.2, h3.2⟩

-- One witness for each statement that has hypotheses, at the bounds of its clauses.

theorem wit_EmptyQueueIdlesAndNoWordSpells : State.reset.pending = [] := rfl

theorem wit_StepKeepsMemoryCanonical : ∃ s t : State, s.hbm ≠ [] ∧ s.pending ≠ [] ∧ Memory.wf s.hbm = true ∧ step s = .next t :=
  ⟨{ base with hbm := [(0, 1)], pending := [.perstNAssert] }, _, by decide, by decide, by decide +kernel, rfl⟩

theorem wit_StepTakesFrontCommand : ∃ s t : State, s.pending = [.clamp, .highz] ∧ Memory.wf s.hbm = true ∧ step s = .next t :=
  ⟨{ base with pending := [.clamp, .highz] }, _, rfl, by decide, rfl⟩

theorem wit_SupplyEvents : State.reset.trunk.boot = .off ∧ State.reset.bud.railFault = false ∧ base.trunk.boot ≠ .off := by decide

theorem wit_StoreRecoveryReleasesPower : ({ trunk := { boot := .recovering } } : State).trunk.boot = .recovering := rfl

theorem wit_PerstEdges : (base.trunk.boot ≠ .off ∧ base.trunk.boot ≠ .recovering) ∧ State.reset.trunk.boot = .off ∧
    (let s : State := { trunk := { boot := .waiting } }; s.bud.perst = true ∧ s.trunk.boot = .waiting ∧ s.store.busy = .idle) ∧
    (let s : State := { trunk := { boot := .waiting }, store := { busy := .erase 16 } }; s.bud.perst = true ∧ s.trunk.boot = .waiting ∧ s.store.busy ≠ .idle) := by decide

/-- A start-up at stage `b`. -/
def starting (b : BootStage) : State := { trunk := { boot := b, runningSlot := 1 } }

theorem wit_StartupStages : (starting .verifying).trunk.boot = .verifying ∧ (starting .verifying).slotWriteOn = false ∧ (starting .verifying).fwCheck ((starting .verifying).slotBytes (starting .verifying).trunk.runningSlot) ≠ 0 ∧
    (let s : State := { starting .verifying with store := { queue := [.record { key := slotKey, payload := .slotState {} } .none] } }; s.trunk.boot = .verifying ∧ s.slotWriteOn = true) ∧
    (starting .verifyOther).trunk.boot = .verifyOther ∧ (starting .verifyOther).fwCheck ((starting .verifyOther).slotBytes (starting .verifyOther).trunk.runningSlot) ≠ 0 ∧
    (starting .training).trunk.boot = .training ∧ (starting .readback).trunk.boot = .readback ∧ (starting .selfCheck).trunk.boot = .selfCheck ∧ (starting .calibrating).trunk.boot = .calibrating := by
  refine ⟨rfl, by decide, ?_, by decide, rfl, ?_, rfl, rfl, rfl, rfl⟩
  · rw [show (starting .verifying).fwCheck ((starting .verifying).slotBytes (starting .verifying).trunk.runningSlot) = 1 from rfl]; decide
  · rw [show (starting .verifyOther).fwCheck ((starting .verifyOther).slotBytes (starting .verifyOther).trunk.runningSlot) = 1 from rfl]; decide

/-- The clause of a slot that verifies, for any image that the signature check (an opaque function of Config) accepts. -/
theorem wit_StartupStages_good (img : List Byte) (h : (starting .verifying).fwCheck img = 0) : ∃ s : State, s.trunk.boot = .verifying ∧ s.slotWriteOn = false ∧ s.fwCheck (s.slotBytes s.trunk.runningSlot) = 0 :=
  ⟨{ starting .verifying with store := { slotA := { bytes := img } } }, rfl, rfl, h⟩

theorem wit_FirmwareConfirms :
    (let s : State := { base with trunk := { base.trunk with confirmDue := true } }; s.trunk.boot = .ready ∧ s.trunk.fwRunning = true ∧ s.trunk.warmBusy = false ∧ s.trunk.confirmDue = true ∧ s.store.state ≠ .readOnly) ∧
    (let s : State := { base with trunk := { base.trunk with confirmDue := true }, store := { state := .readOnly } }; s.trunk.boot = .ready ∧ s.trunk.confirmDue = true ∧ s.store.state = .readOnly) ∧
    (base.trunk.boot = .ready ∧ base.trunk.confirmDue = false) ∧
    (base.trunk.fwRunning = true ∧ base.trunk.warmBusy = false ∧ base.trunk.identityOk = true ∧ base.awake = true ∧ ∀ p ∈ base.mgmt.pending, p.after ≠ 6) ∧
    (let p : MgmtReq := { via := .vdm, code := 0x10, after := 6 }; let s : State := { base with mgmt := { pending := [p] }, trunk := { base.trunk with xmssNext := 1048574, xmssLimit := 1048575 } };
      s.mgmt.pending = [p] ∧ p.after = 6 ∧ s.trunk.xmssNext < s.trunk.xmssLimit ∧ s.trunk.xmssNext < 1048575) := by decide +kernel

theorem wit_WeightStorage : ((0 : BitVec 2).toNat < 3 ∧ 127 < logicals 0) ∧ ((2 : BitVec 2).toNat < 3 ∧ 511 < logicals 2) ∧ (List.replicate 128 (0x80 : Byte)).length = 128 := by decide +kernel

theorem wit_LeafEvents : (let s := withLeaf { refCheckDue := true, role := .active }; s.enabled 0 = true ∧ 0 < 18 ∧ (s.leaf (leafNo 0 0)).refCheckDue = true ∧ (s.leaf (leafNo 0 0)).role = .active ∧
      (s.leaf (leafNo 0 0)).midVector = false ∧ (∀ q < 32, (ni (nth (smGet 192 (s.leaf (leafNo 0 0)).factoryCode q) (List.replicate 32 204) q) - ni (smGet 192 (s.leaf (leafNo 0 0)).factoryCode q)).natAbs ≤ 12) ∧
      mismatchBlocks (fun _ => 960) (fun i => smGet 0 [] i) = []) ∧
    (let s := withLeaf { role := .spare, jobs := [{ epoch := 1, vec := 0, dslot := 0, second := false, twoPhase := false, digits := [], sumU := 0, sumX := 0, sumX2 := 0, aO := 0, outIdx := 0, init := true, last := true, tag := 0, cols := [], tensor := 0 }] };
      s.usable 0 = true ∧ s.awake = true ∧ s.inReset (standOf 0) = false ∧ (s.leaf (leafNo 0 0)).jobs ≠ [] ∧ (s.leaf (leafNo 0 0)).role ≠ .active) := by decide +kernel

theorem wit_GovernorInterval : (let s : State := { base with bud := { base.bud with hotLast := [0] } }; let o : GovObs := { power := 0, temps := [(0, 29440)] };
      s.trunk.fwRunning = true ∧ s.trunk.boot ≠ .off ∧ s.trunk.boot ≠ .tripped ∧ s.bud.power ≠ .bare ∧ 0 ∈ s.bud.hotLast ∧ 0 ∈ (s.sample o).bud.hotLast) ∧
    (base.trunk.boot ≠ .off ∧ base.trunk.boot ≠ .tripped ∧ base.bud.power ≠ .bare ∧ base.bud.hotLast = [] ∧ base.trunk.fwRunning = true ∧ base.trunk.warmBusy = false ∧ base.awake = true) := by decide +kernel

theorem wit_GrantAndCadence : (256 * ni (clampN 85 105 (fld base.bud.thermCtrl 7 0)) ≤ (25600 : Int) ∧ base.bud.grant * 15 / 16 ≤ base.grantMax) ∧ (8 ≤ 63 ∧ 63 < cadenceOf 256 4000000000) := by decide +kernel

/-- A device whose leaf 0 is ACTIVE at 50 °C, with a slot that was measured at 0 °C (trigger 2). -/
def drifted (ctrl : Word) : State :=
  { withLeaf { spacing := true, deferred := [2#3], role := .active, calCtrl := ctrl, cal := [{ valid := true }, {}, {}] } with bud := { base.bud with temps := [(0, 12800)] } }

theorem wit_RecalibrationTriggers :
    (let s := withLeaf { spacing := true, deferred := [3#3] }; s.leafLive 0 0 = true ∧ (s.leaf (leafNo 0 0)).spacing = true ∧ (s.leaf (leafNo 0 0)).deferred.find? (s.triggerHolds (leafNo 0 0)) = none) ∧
    (let s := drifted 0x00010A03#32; s.leafLive 0 0 = true ∧ (s.leaf (leafNo 0 0)).spacing = true ∧ (s.leaf (leafNo 0 0)).deferred.find? (s.triggerHolds (leafNo 0 0)) = some 2#3 ∧
      (s.leaf (leafNo 0 0)).role = .active ∧ bit (s.leaf (leafNo 0 0)).calCtrl 16 = true ∧ (s.leaf (leafNo 0 0)).meas = none) ∧
    (let s := drifted 0x00000A03#32; s.leafLive 0 0 = true ∧ (s.leaf (leafNo 0 0)).spacing = true ∧ (s.leaf (leafNo 0 0)).deferred.find? (s.triggerHolds (leafNo 0 0)) = some 2#3 ∧
      (s.leaf (leafNo 0 0)).role = .active ∧ bit (s.leaf (leafNo 0 0)).calCtrl 16 = false) := by decide +kernel

/-- A device whose leaf 0 has measurement `m`. -/
def measuring (m : Meas) : State := withLeaf { role := .active, meas := some m }

theorem wit_CalibrationCommit :
    (let s := measuring { cause := 1#3 }; s.leafLive 0 0 = true ∧ (s.leaf (leafNo 0 0)).meas = some { cause := 1#3 } ∧ (s.leaf (leafNo 0 0)).midVector = false ∧ (s.leaf (leafNo 0 0)).role = .active) ∧
    ∀ load ∈ [0, 42, 43, 79, 80], (let m : Meas := { cause := 1#3, done := true, load := load }; let s := measuring m; s.leafLive 0 0 = true ∧ (s.leaf (leafNo 0 0)).meas = some m ∧ m.done = true ∧ m.suspended = false ∧ m.ops = [] ∧
      (s.leaf (leafNo 0 0)).role = .active ∧ (s.leaf (leafNo 0 0)).cal.length = 3) := by decide +kernel

/-- CALIBRATE of leaf 3 in any band, with 1 ms to wait. -/
def calibrateOne : List Byte := command 3 (leBytes 4 (3 * 2 ^ 30 + 3 * 2 ^ 21) ++ [0, 0, 1, 0])

theorem wit_CalibrateCommand :
    (withCommand (command 3 [])).ServesHead 0 3 2 [(0, 4), (4, 1), (6, 2)] (parseTask (command 3 [])) ∧
    (parseUnit (le (parseTask (command 3 [])).args 0 4)).bind (withCommand (command 3 [])).scopeLeaves ≠ none ∧ le (parseTask (command 3 [])).args 4 1 ≤ 3 ∧
    (withCommand (command 3 [0, 0, 0, 0, 4])).ServesHead 0 3 2 [(0, 4), (4, 1), (6, 2)] (parseTask (command 3 [0, 0, 0, 0, 4])) ∧ 3 < le (parseTask (command 3 [0, 0, 0, 0, 4])).args 4 1 ∧
    (let s := { withCommand calibrateOne with leaves := [(3, { role := .active })] }; s.ServesHead 0 3 2 [(0, 4), (4, 1), (6, 2)] (parseTask calibrateOne) ∧
      (parseUnit (le (parseTask calibrateOne).args 0 4)).bind s.scopeLeaves = some [3] ∧ s.freeSlot = some 0 ∧ inBand (le (parseTask calibrateOne).args 4 1) s.bud.loadPct.toNat = true ∧ (s.leaf 3).role = .active ∧ (s.leaf 3).meas = none ∧
      s.inReset (3 / 72) = false) ∧
    (let c : CalibOp := { leaves := [3], sel := 3 }; let s := withOp { body := .calib c }; s.op 0 = some { body := .calib c } ∧ c.sel ≠ 0 ∧ s.trunk.fwRunning = true ∧ c.leaves = [3] ∧ c.status = [] ∧
      inBand c.sel s.bud.loadPct.toNat = false ∧ (s.leaf 3).meas = none) := by
  refine ⟨serves _ _ _ _ ?_ ?_ ?_ ?_, ?_, ?_, serves _ _ _ _ ?_ ?_ ?_ ?_, ?_, ⟨⟨calibrateOne, ?_, ?_, ?_, ?_, ?_, ?_⟩, ?_⟩, ?_⟩ <;> decide +kernel

/-- PROGRAM_LEAF of bough 15, slot 15, group of `size` leaves. -/
def programCmd (size : Nat) : List Byte := command 1 (leBytes 4 (2 * 2 ^ 30 + 15 * 2 ^ 26) ++ [15, 0, 0, 0, 0, 0] ++ leBytes 2 size)

theorem wit_ProgramLeafCommand :
    (withCommand (command 1 [1])).ServesHead 0 1 2 [(0, 4), (4, 1), (5, 1), (6, 2), (8, 2), (10, 2), (16, 8), (24, 32)] (parseTask (command 1 [1])) ∧ parseUnit (le (parseTask (command 1 [1])).args 0 4) = none ∧
    (withCommand (programCmd 289)).ServesHead 0 1 2 [(0, 4), (4, 1), (5, 1), (6, 2), (8, 2), (10, 2), (16, 8), (24, 32)] (parseTask (programCmd 289)) ∧
      parseUnit (le (parseTask (programCmd 289)).args 0 4) = some (2, 3, 3, 0) ∧ 288 < le (parseTask (programCmd 289)).args 10 2 ∧
    (withCommand (programCmd 288)).ServesHead 0 1 2 [(0, 4), (4, 1), (5, 1), (6, 2), (8, 2), (10, 2), (16, 8), (24, 32)] (parseTask (programCmd 288)) ∧
      parseUnit (le (parseTask (programCmd 288)).args 0 4) = some (2, 3, 3, 0) ∧
      (let s := withCommand (programCmd 288); let t := parseTask (programCmd 288); s.usable 15 = true ∧ le t.args 4 1 ≤ 15 ∧ le t.args 5 1 = 0 ∧ le t.args 8 2 = 0 ∧ 0 < le t.args 10 2 ∧ le t.args 10 2 ≤ 288 ∧
        s.freeSlot = some 0 ∧ (s.queue 0).flr = false) := by
  refine ⟨serves _ _ _ _ ?_ ?_ ?_ ?_, ?_, serves _ _ _ _ ?_ ?_ ?_ ?_, ?_, ?_, serves _ _ _ _ ?_ ?_ ?_ ?_, ?_, ?_⟩ <;> decide +kernel

/-- A device whose bough 0 programs leaf 16 at step `n`. -/
def programming (n : Nat) : State :=
  { base with trunk := { base.trunk with progs := [(1, { bough := 0, slot := 0, group := 1, leaf := some 16, step := n })] }, boughs := [(0, { progQueue := [1] })] }

theorem wit_ProgramSteps : (∀ n ∈ [1, 2, 3, 4, 5, 6, 8], (let p : Prog := { bough := 0, slot := 0, group := 1, leaf := some 16, step := n }; let s := programming n; s.trunk.fwRunning = true ∧ s.awake = true ∧ s.prog 1 = some p ∧
      s.memberHeld p = false ∧ s.inReset (standOf 0) = false ∧ s.pumpHead 0 = some 1 ∧ s.enabled 0 = true ∧ (s.bough 0).task = none ∧ s.shut (hbmStand p.imageAddr) = false ∧ (s.leaf 16).record.pendingRemap = [])) ∧
    ((programming 1).spareFor 0).isSome = true := by decide +kernel

/-- LEAF_SWAP at a layer boundary: a task whose next operation is LBND. -/
theorem wit_ProgramSteps_boundary : let x : Task := { id := 1, queue := 0, sqIndex := 0, trec := {}, cls := 1, hold := false, function := 0 }
    let s : State := { base with boughs := [(0, { task := some x })], stands := [(0, { canopy := some { programs := [{ ops := [OpWord.bits { opcode := 0x0F, flags := 0, a := 0, b := 0 }] }] } })] }
    s.enabled 0 = true ∧ s.awake = true ∧ s.inReset (standOf 0) = false ∧ (s.bough 0).task = some x ∧
      (match s.canopyOf 0 with | some c => ((nth ({} : Program) c.programs x.trec.program).ops[(s.bough 0).ck.pc]?.map fun w => (opWord w).opcode) == some 0x0F | none => false) = true := by decide +kernel

theorem wit_LongOperationCommands :
    (∀ c ∈ [0x10, 0x11, 0x12], (withCommand (command c [])).ServesHead 0 c 1 [(0, 2)] (parseTask (command c [])) ∧ (withCommand (command c [])).opOfHandle (parseTask (command c [])).handle = none ∧
      (let s := { withCommand (command c []) with trunk := (withOp { body := .dump }).trunk }; s.ServesHead 0 c 1 [(0, 2)] (parseTask (command c [])) ∧ s.opOfHandle (parseTask (command c [])).handle = some 0)) ∧
    (withOp { body := .dump }).op 0 = some { body := .dump } ∧ (withOp { body := .calib {}, suspended := true }).op 0 = some { body := .calib {}, suspended := true } ∧
    (withOp { body := .calib {} }).op 0 = some { body := .calib {} } := by
  have k : ∀ c, c ∈ [0x10, 0x11, 0x12] → (let s := { withCommand (command c []) with trunk := (withOp { body := .dump }).trunk };
      s.takeCommand 0 1 = some (parseTask (command c []), command c []) ∧ s.cmdTurn 0 = true ∧ s.headUe 0 = none ∧ knownOpcode (parseTask (command c [])).program = true ∧
      (parseTask (command c [])).program = c ∧ cmdFieldsOk (command c []) [(0, 2)] = true ∧ s.opOfHandle (parseTask (command c [])).handle = some 0) := by decide +kernel
  refine ⟨fun c hc => ⟨?_, ?_, ?_⟩, by decide, by decide, by decide⟩
  · have : ∀ c ∈ [0x10, 0x11, 0x12], (withCommand (command c [])).takeCommand 0 1 = some (parseTask (command c []), command c []) ∧ (withCommand (command c [])).cmdTurn 0 = true ∧ (withCommand (command c [])).headUe 0 = none := by decide +kernel
    obtain ⟨h1, h2, h3⟩ := this c hc
    obtain ⟨_, _, _, k4, k5, k6, _⟩ := k c hc
    exact ⟨_, h1, h2, h3, k4, k5, k6⟩
  · have : ∀ c ∈ [0x10, 0x11, 0x12], (withCommand (command c [])).opOfHandle (parseTask (command c [])).handle = none := by decide +kernel
    exact this c hc
  · obtain ⟨k1, k2, k3, k4, k5, k6, k7⟩ := k c hc
    exact ⟨⟨_, k1, k2, k3, k4, k5, k6⟩, k7⟩

theorem wit_LongOperationCommands_codes :
    (withOp { body := .dump }).op 0 = some { body := .dump } ∧ (withOp { body := .ftest {} }).op 0 = some { body := .ftest {} } ∧ (withOp { body := .ftest {}, suspended := true }).op 0 = some { body := .ftest {}, suspended := true } ∧
    (∀ n ∈ [8, 9, 10], (let p : Prog := { bough := 0, slot := 0, group := 1, step := n }; let s : State := { base with trunk := { base.trunk with ops := [(0, { body := .program 1 })], progs := [(1, p)], groups := [(1, {})] } };
      s.op 0 = some { body := .program 1 } ∧ s.prog 1 = some p ∧ (s.group p.group).isSome = true ∧ s.mapIssued p.group = false)) ∧
    (∀ sw ∈ [false, true], (let r : Rounds := { switching := sw }; let s := withOp { body := .load { run := r } }; let f := withOp { body := .fold { run := r } };
      s.rounds 0 = some r ∧ r.switchIssued s = sw ∧ f.rounds 0 = some r ∧ r.switchIssued f = sw)) := by decide +kernel

/-- A program operation whose group's map write is issued. -/
theorem wit_LongOperationCommands_issued : let p : Prog := { bough := 0, slot := 0, group := 1, step := 9 }
    let s : State := { base with trunk := { base.trunk with ops := [(0, { body := .program 1 })], progs := [(1, p)], groups := [(1, {})] }, store := { state := .ready, queue := [.record { key := 0, payload := .slotState {} } (.groups [1])] } }
    s.op 0 = some { body := .program 1 } ∧ s.prog 1 = some p ∧ s.mapIssued p.group = true := by decide +kernel

theorem wit_AcceptedOperation : base.freeSlot = some 0 ∧ (base.queue 0).flr = false ∧ (withOp { body := .dump }).freeSlot = some 1 := by decide +kernel

-- Twig, cambium and grafts.

/-- An operation word of Table 7-3. -/
def word (op a b : Nat) : DWord := OpWord.bits { opcode := op, flags := 0, a := a, b := b }

/-- `base` with a task that waits on bough 0 and a one-word program in its canopy. -/
def atWord (c : Canopy) (w : DWord) (x : Bough) : State :=
  { base with stands := [(0, { canopy := some { c with programs := [{ ops := [w] }] } })], boughs := [(0, { x with waiting := [{ id := 1, queue := 0, sqIndex := 0, trec := {}, cls := 1, hold := false, function := 0 }] })] }

/-- A one-level descriptor of run `n`. -/
def dsc (k : DKind) (n : Nat) (i o a : Addr) : Desc := { kind := k, inBase := i, outBase := o, auxBase := a, inTensor := 0, outTensor := 1, levels := [{ bound := .imm 1, run := n }] }

/-- A canopy of one descriptor. -/
def can (d : Desc) (f g : Fmt) : Canopy := { descs := [d], quants := [{ fmt := f }, { fmt := g }] }

def locD (n : Nat) : Desc := dsc .loc n (.sap 0) (.sap 128) (.sap 64)
def accD (n : Nat) : Desc := dsc .loc n (.acc 0) (.sap 128) .none
def oneAcc : Bough := { acc := [(0, { vals := List.replicate 16 1, valid := true })] }
/-- A canopy with one trainable graft, and its state block at HBM address 0x1000. -/
def graftCan : Canopy := { can (locD 1) .int8 .int8 with grafts := [{ trainable := true }] }

/-- `atWord` with a call record at sapwood address 128 and a task whose context names the block. -/
def atGraft (f : Nat) : State :=
  { atWord graftCan (word 8 f 2) { sapwood := [(140, 1), (145, 4)] } with
    boughs := [(0, { sapwood := [(140, 1), (145, 4)], waiting := [{ id := 1, queue := 0, sqIndex := 0, trec := {}, cls := 1, hold := false, function := 0, graftState := 0x1000 }] })],
    hbm := [(0x1000, 0x47), (0x1001, 0x52), (0x1002, 0x54), (0x1003, 0x46), (0x1004, 1), (0x1006, 1), (0x1016, 1)] }

/-- A canopy with a halo route from bough 0 to bough `r`. -/
def routeCan (r : Nat) : Canopy := { can (dsc .exchange 16 (.sap 0) (.sap 128) .none) .int8 .int8 with routes := [{ halo := true, receiver := r, bufferBytes := 4096, senders := [(0, 0)] }] }

/-- What `s` presents at bough 0 meets `p`. -/
def presents (s : State) (p : State → Task → Canopy → OpWord → Bool) : Bool := match s.present 0 with | .ok (some (s1, t, c, w)) => p s1 t c w | _ => false

/-- `State.LinesFit` on bough 0, decided. -/
def linesFit (s : State) (n : Nat) : Bool := decide (((s.bough 0).epochs.getLast?.elim 0 (·.footprint)) + n ≤ 2048 ∧ n ≤ (s.bough 0).freeLines)

/-- A transfer of 100 bytes between two addresses. -/
def moving (op : Nat) (src dst : Addr) : State :=
  { atWord (can (dsc .transfer 100 src dst .none) .int8 .int8) (word op 0 0) {} with pcie := { base.pcie with funcs := [(0, { busMaster := true })] } }

theorem wit_OperationsComplete_fetch : ∀ a ∈ [Addr.hbm (hbmSize - 100), .host 0], presents (moving 0x01 a (.sap (6 * 2 ^ 20 - 100))) (fun s1 t c w => w.opcode == 0x01 &&
    okWith (s1.iterate 0 w.a (c.desc w.a) (w.b + 1)) fun r => r.2.2.any Iter.inside && r.2.2.all fun i => !i.inside || r.1.fetchReady 0 t (c.desc w.a).lastRun i) = true := by decide +kernel

theorem wit_OperationsComplete_store : ∀ a ∈ [Addr.hbm (hbmSize - 100), .host 0], presents (moving 0x02 (.sap (6 * 2 ^ 20 - 100)) a) (fun s1 t c w => w.opcode == 0x02 &&
    okWith (s1.iterate 0 w.a (c.desc w.a) (w.b + 1)) fun r =>
      r.2.2.any Iter.inside && (r.2.2.all fun i => !i.inside || r.1.storeReady 0 t (c.desc w.a).lastRun (c.quant (c.desc w.a).outTensor).fmt.elemBytes i) && linesFit r.1 (r.1.fills 0 (r.1.storeRun 0 t c w r.2.2))) = true := by
  decide +kernel

/-- A DRIVE of slots `n` on leaf 0. -/
def driving (n : Nat) : State :=
  { atWord (can { (dsc .drive 0 (.sap 0) (.acc 0) .none) with vecGroups := 1, slots := [{ present := true }], levels := [{ bound := .imm 1 }] } .int8 .int8) (word 3 0 n) { sapwood := [(0, 3)] } with
    leaves := [(0, { role := .active, slot := 0, width := 0, checked := true, cal := [{ valid := true }, {}, {}] })] }

/-- The conditions of a DRIVE that issues, with the number of its parts. -/
def driveParts? (s : State) : Option Nat :=
  match s.present 0 with
  | .ok (some (s1, _, c, w)) =>
    match s1.iterate 0 w.a (c.desc w.a) (c.desc w.a).driveShared with
    | .ok (s0, priv, its) =>
      match (s0.atTile 0).driveForm 0 c w priv its with
      | .ok v =>
        match (s0.atTile 0).driveParts 0 c w.flags v with
        | .ok (parts, _) =>
          let n := (drivePre parts v.lc).length
          if w.opcode = 0x03 ∧ (s0.atTile 0).bareLeaves parts = [] ∧ n ≤ 2048 ∧ n ≤ ((s0.atTile 0).bough 0).freeLines ∧ ((s0.atTile 0).bough 0).canOpen n = true then some parts.length else none
        | _ => none
      | _ => none
    | _ => none
  | _ => none

theorem wit_OperationsComplete_drive : driveParts? (driving 0) = some 0 ∧ driveParts? (driving 1) = some 1 := by decide +kernel

/-- `routeCan` with a combine route in place of the halo route, whose exchange is of accumulators. -/
def combineCan (r : Nat) : Canopy :=
  { routeCan r with routes := [{ halo := false, receiver := r, bufferBytes := 4096, senders := [(0, 0)] }], descs := [dsc .exchange 64 (.acc 0) (.acc 0) .none] }

/-- `routeCan` with a private level of bound 0. -/
def stillCan (r : Nat) : Canopy := { routeCan r with descs := [{ (dsc .exchange 16 (.sap 0) (.sap 128) .none) with levels := [{ bound := .imm 1 }, { bound := .imm 0, run := 16 }] }] }

theorem wit_OperationsComplete_xsend :
    presents (atWord (stillCan 1) (word 0x0A 0 0) {}) (fun s1 _ c w => w.opcode == 0x0A && match c.routes[w.a]? with
      | some r => (r.staging 0).isSome && okWith (s1.iterate 0 0 (c.desc 0) 1) fun q => (q.2.2.filter Iter.inside).isEmpty
      | none => false) = true ∧
    ∀ k ∈ [routeCan 1, combineCan 1], presents (atWord k (word 0x0A 0 0) oneAcc) (fun s1 _ c w => w.opcode == 0x0A && match c.routes[w.a]? with
      | some r => (r.staging 0).isSome && okWith (s1.iterate 0 0 (c.desc 0) 1) fun q => !(q.2.2.filter Iter.inside).isEmpty && (c.desc 0).lastRun != 0 && decide (smGet 0 (q.1.bough 0).credits w.a < r.depth) &&
          okWith (q.1.sendData 0 r.halo (q.2.2.filter Iter.inside) (c.desc 0).lastRun) fun d => decide (64 * ceilDiv d.1.length 64 + (if r.halo then 0 else d.2.1.length) ≤ r.bufferBytes) && linesFit q.1 (ceilDiv d.1.length 64)
      | none => false) = true := by decide +kernel

theorem wit_OperationsComplete_xrecv : ∀ k ∈ [routeCan 0, combineCan 0, stillCan 0], presents (atWord k (word 0x0B 0 0) oneAcc) (fun s1 _ c w => w.opcode == 0x0B && match c.routes[w.a]? with
      | some r => decide (r.receiver = 0) && okWith (s1.iterate 0 0 (c.desc 0) 1) fun q => okWith (xrecvLines r (q.2.2.filter Iter.inside) (c.desc 0).lastRun) fun ls =>
          decide (ls.eraseDups.length ≤ 2048 ∧ 65 * ls.length ≤ r.bufferBytes ∧ ls.eraseDups.length ≤ (q.1.bough 0).freeLines) && (q.1.bough 0).canOpen ls.eraseDups.length
      | none => false) = true := by decide +kernel

theorem wit_OperationsComplete_lbnd : presents (atWord {} (word 0x0F 0 0) {}) (fun s1 _ _ w => w.opcode == 0x0F && s1.trunk.progs.isEmpty) = true := by decide +kernel

/-- The conditions of a local operation that issues. -/
def localGoes (opc : Nat) (s : State) (ready : State → Task → Canopy → OpWord → Nat → Iter → Bool) (body : Task → Canopy → OpWord → LocalBody) : Bool :=
  presents s fun s1 t c w => w.opcode == opc && okWith (s1.iterate 0 w.localDesc (c.desc w.localDesc) (w.b % 8 + 1)) fun r =>
    r.2.2.any Iter.inside && (r.2.2.all fun i => !i.inside || ready r.1 t c w (c.desc w.localDesc).lastRun i) && linesFit r.1 (r.1.fills 0 (r.1.localRun 0 c w r.2.2 (body t c w)))

theorem wit_OperationsComplete_local :
    localGoes 0x04 (atWord (can (dsc .loc 4 (.acc 0) (.acc 16) .none) .int32 .int32) (word 4 0 0) oneAcc) (fun s _ _ _ n i => s.combineReady 0 n i) (fun t _ _ => combine3Body 0 t) = true ∧
    localGoes 0x05 (atWord (can (accD 4) .int8 .int8) (word 5 1 0) oneAcc) (fun s _ c w n i => s.rescaleReady 0 c w n i) (rescaleBody 0) = true ∧
    localGoes 0x06 (atWord (can (locD 4) .int16 .int8) (word 6 0 0) { tables := [(0, { y := List.replicate 257 0, outTensor := 1 })] }) (fun s _ c w n i => (s.bough 0).tableReady c w n i) (tableBody 0) = true ∧
    localGoes 0x07 (atWord (can (locD 4) .int8 .int16) (word 7 0 0) {}) (fun s _ c w n i => (s.bough 0).cvtReady c w n i) (fun t c _ => cvtBody 0 t c) = true := by decide +kernel

/-- No word of HBM is bad and no stand is fenced for its HBM. -/
def hbmGood (s : State) : Bool := s.hbmBad.isEmpty && s.stands.all fun p => !p.2.hbmFenced

theorem good_of (s : State) (h : hbmGood s = true) : s.HbmGood := by
  simp only [hbmGood, Bool.and_eq_true, List.isEmpty_iff, List.all_eq_true, Bool.not_eq_true'] at h
  have f : ∀ i, (s.stand i).hbmFenced = false := by
    intro i
    unfold State.stand smGet
    cases e : smFind s.stands i with
    | none => rfl
    | some d => exact h.2 _ (smFind_mem _ _ _ e)
  intro a n
  simp [State.firstUe, h.1, f]

theorem wit_OperationsComplete_cone :
    let s := atWord { can { (locD 1) with extentK := .imm 32, extentM := .imm 1, auxBase := .hbm 0x1000 } .int8 .fp32 with companions := [{ desc := 0, operand := 2, compDisp := 1024, sideDisp := 2048 }] } (word 9 0 0) {}
    localGoes 0x09 s (fun s t c w n i => s.coneReady 0 t c w n i) (coneBody 0) = true ∧ presents s (fun s1 _ _ _ => hbmGood s1 && ((s1.bough 0).task.bind (·.fault)).isNone) = true := by decide +kernel

theorem wit_OperationsComplete_vec : ∀ code ∈ [0, 1, 2, 3, 4, 5, 6, 7, 8, 9, 10, 11, 12, 13, 14],
    localGoes 0x08 (atWord (can (locD 4) (if code = 10 ∨ code = 11 then .cint8 else .int8) (if code = 10 ∨ code = 11 ∨ code = 14 then .int32 else .int8)) (word 8 code 0) {})
      (fun s _ c w n i => decide (w.a = code) && (s.bough 0).vecReady c w n i) (vecBody 0) = true := by
  decide +kernel

/-- A call's parts of an issue that passes. -/
def passes (r : Issue Unit) : Bool := okWith r fun _ => true

theorem wit_OperationsComplete_grafts :
    presents (atGraft 0x80) (fun s t c w => decide (w.opcode = 0x08 ∧ w.a = 0x80) && hbmGood s && okWith (s.graftCtx 0 t c w) fun q =>
      passes ((s.bough 0).rangesReady (q.k.xRanges q.g.n)) && passes ((s.bough 0).rangesReady (q.k.dRanges q.g.m)) && (s.graftApplyRun 0 t q).2.isEmpty && linesFit s (ceilDiv (q.k.vecs * q.g.m * 4) 64)) = true ∧
    presents (atGraft 0x81) (fun s t c w => decide (w.opcode = 0x08 ∧ w.a = 0x81) && hbmGood s && okWith (s.graftCtx 0 t c w) fun q => q.g.trainable && decide (q.k.part < q.g.parts) &&
      passes ((s.bough 0).rangesReady (q.k.xRanges q.g.n)) && passes ((s.bough 0).rangesReady (q.k.dRanges q.g.m)) && (s.graftGradRun 0 t q).2.isEmpty && linesFit s (s.fills 0 (.ok (s.graftGradRun 0 t q).1))) = true ∧
    presents (atGraft 0x82) (fun s t c w => decide (w.opcode = 0x08 ∧ w.a = 0x82) && hbmGood s && okWith (s.graftCtx 0 t c w) fun q => q.g.trainable && decide (q.k.part < q.g.parts) && !q.k.last &&
      passes ((s.bough 0).hbmReady [(q.gradAt.1 + 32 * q.gradAt.2.1, 32 * q.gradAt.2.2), (q.gradAt.1 + q.g.elems (q.g.partOf q.k.part).1 + q.gradAt.2.1, q.gradAt.2.2)]) && (s.graftStepRun 0 t q).2.isEmpty &&
      linesFit s (s.fills 0 (.ok (s.graftStepRun 0 t q).1))) = true := by decide +kernel

/-- A LOOP of depth 0 whose bound is 2. -/
def looping : State :=
  let s := atWord {} 0 {}
  { s with stands := [(0, { canopy := some { descs := [{ (locD 4) with levels := [{ bound := .imm 2, run := 4 }] }], programs := [{ governMask := 1, govern := [0], ops := [word 0x0E 0 0] }] } })] }

theorem wit_TwigOwnEffects :
    presents (atWord {} (word 0 0 0) {}) (fun _ _ _ w => w.opcode == 0) = true ∧
    presents (atWord {} (word 0x0C 65535 0) {}) (fun s1 _ _ w => w.opcode == 0x0C && !(s1.bough 0).epochs.isEmpty && decide ((((s1.bough 0).epochs.getLast?.map (·.footprint)).getD 0) < 2048 ∧ 1 ≤ (s1.bough 0).freeLines)) = true ∧
    presents (atWord {} (word 0x0D 0 0) {}) (fun s1 _ _ w => w.opcode == 0x0D && w.a == 0 && (s1.bough 0).canOpen 0) = true ∧
    presents (atWord {} (word 0x10 0 0) {}) (fun s1 _ _ w => w.opcode == 0x10 && decide ((((s1.bough 0).epochs.getLast?.map (·.footprint)).getD 0) < 2048 ∧ 1 ≤ (s1.bough 0).freeLines) && s1.trunk.progs.isEmpty) = true ∧
    presents looping (fun s1 _ _ w => w.opcode == 0x0E && decide (nth 0 (s1.bough 0).ck.counters w.b + 1 < smGet 0 (s1.bough 0).ck.bounds w.b ∧ w.b < 6)) = true ∧
    presents (atWord (can (locD 4) .int8 .int8) (word 0x0E 0 5) {}) (fun s1 _ _ w => w.opcode == 0x0E && decide (smGet 0 (s1.bough 0).ck.bounds w.b ≤ nth 0 (s1.bough 0).ck.counters w.b + 1)) = true := by decide +kernel

theorem wit_IssueFrame : presents (moving 0x01 (.hbm 0) (.sap 0)) (fun s1 t c w => okWith (opFetch 0 s1 t c w) fun _ => true) = true ∧ presents (moving 0x02 (.sap 0) (.hbm 0)) (fun s1 t c w => okWith (opStore 0 s1 t c w) fun _ => true) = true ∧
    presents (driving 1) (fun s1 t c w => okWith (opDrive 0 s1 t c w) fun _ => true) = true := by decide +kernel

theorem wit_RoundedShift : 64 ≤ 64 ∧ (9223372036854775807 : Int).natAbs < 2 ^ 63 := by decide

theorem wit_CambiumElements : (Fmt.int2.int?.isSome = true ∧ Fmt.bsi8.int?.isSome = true) ∧ 63 < 64 ∧ (0 : Int) ≠ -128 := by decide

theorem wit_OperationWordRoundTrip : let w : OpWord := { opcode := 63, flags := 1023, a := 65535, b := 2 ^ 32 - 1 }; w.opcode < 64 ∧ w.flags < 1024 ∧ w.a < 65536 ∧ w.b < 2 ^ 32 := by decide

-- Retirement, integrity and tests.

theorem wit_RetirementEvents : base.boughLive 15 = true ∧ 17 < 18 ∧
    (let s := withBough { wait := .lines }; s.boughLive 0 = true ∧ (s.bough 0).wait = .lines) ∧
    (let s := withBough { wait := .ptr }; s.boughLive 0 = true ∧ (s.bough 0).wait = .ptr ∧ (((s.onBough 0 fun x => { x with ptrOk := true, wait := .none }).issueAny 0).bough 0).wait = .none) := by decide +kernel

/-- A bough whose oldest epoch has ended. -/
def ended : State := withBough { epochs := [{ num := 1, task := 1 }, { num := 2, task := 1 }], held := [{ epoch := 1, task := 1, op := 0, dest := .sap 0 }, { epoch := 2, task := 1, op := 1, dest := .sap 1 }] }

theorem wit_NormalRetirement : (ended.bough 0).epochs = [{ num := 1, task := 1 }, { num := 2, task := 1 }] ∧ ended.canRetire 0 { num := 1, task := 1 } = true := by decide +kernel

/-- A bough whose first held line has retired. -/
def releasing (d : Dest) : State := withBough { held := [{ epoch := 1, task := 1, op := 0, dest := d, bytes := [(63, 7)], retired := true }] }

theorem wit_LineRelease : ∀ d ∈ [Dest.sap 98303, .hbm 0, .hbm 805306367, .completion 1], let h : HeldLine := { epoch := 1, task := 1, op := 0, dest := d, bytes := [(63, 7)], retired := true };
    ((releasing d).bough 0).frontLine = some h ∧ Memory.wf (releasing d).hbm = true ∧ (∀ w ∈ (releasing d).hbmBad, w < 0) ∧ (releasing d).inReset 0 = false ∧ (releasing d).inReset 3 = false ∧ ((releasing d).bough 0).find 1 = none := by decide +kernel

theorem wit_IntegrityEvents : base.enabled 15 = true ∧ (smGet ({} : Bias) (base.leaf (leafNo 15 17)).bias 15).n < 4096 ∧ base.usable 0 = true ∧ base.awake = true ∧ base.inReset (standOf 0) = false ∧
    (base.inReset (31 / 8) = false ∧ (base.stand (31 / 8)).hbmFenced = false ∧ fld (base.stand (31 / 8)).hbmCtrl 7 0 ≠ 0) ∧
    (let s := withLeaf { role := .active }; s.enabled 0 = true ∧ s.awake = true ∧ (s.leaf (leafNo 0 0)).role = .active ∧ (s.leaf (leafNo 0 0)).draining = false ∧ (s.leaf (leafNo 0 0)).midVector = false) ∧
    (let r : PendRead := { epoch := 1, task := 1, op := 0, src := .hbm 4096, dst := 0, len := 64, asked := true }; let s := withBough { reads := [r] };
      ((s.bough 0).outstanding.find? fun r => (match r.src with | .hbm _ => true | _ => false)) = some r ∧ s.inReset (hbmStand 4096) = false ∧ s.firstUe 4096 r.len = none) := by decide +kernel

/-- `base` with a field test in slot 0. -/
def testing (f : FTestOp) : State := withOp { body := .ftest f }

theorem wit_FieldTestEvents :
    (let s := withLeaf { role := .active }; s.leafLive 0 0 = true ∧ s.trunk.sched.leafInterval ≠ 0 ∧ (s.leaf (leafNo 0 0)).role = .active ∧ (s.leaf (leafNo 0 0)).draining = false) ∧
    (let s := testing { unfenceLeaves := [0] }; s.leafLive 0 0 = true ∧ (s.testHeld fun f => f.leafParts.contains (leafNo 0 0) || f.unfenceLeaves.contains (leafNo 0 0)) = false ∧ s.unfencing (leafNo 0 0) = true) ∧
    (let s := withLeaf { role := .active, testRunning := true }; s.leafLive 0 0 = true ∧ (s.testHeld fun f => f.leafParts.contains (leafNo 0 0) || f.unfenceLeaves.contains (leafNo 0 0)) = false ∧ s.unfencing (leafNo 0 0) = false ∧
      (s.leaf (leafNo 0 0)).role = .active ∧ (s.leaf (leafNo 0 0)).draining = false ∧ (s.leaf (leafNo 0 0)).testRunning = true ∧ (s.leaf (leafNo 0 0)).meas = none ∧ (s.leaf (leafNo 0 0)).midVector = false) ∧
    (base.usable 15 = true ∧ base.trunk.fwRunning = true ∧ base.trunk.sched.logicInterval ≠ 0) ∧
    (let s := withBough { logicDue := true }; s.partnerOf 0 = some 1 ∧ (s.bough 0).logicDue = true ∧ (s.bough 0).logicRunning = false ∧ s.bud.power = .full ∧ s.standQuiet (standOf 0) = false ∧ s.standQuiet (standOf 1) = false) ∧
    (let s : State := { base with boughs := [(0, { logicDue := true, logicRunning := true, logicPartner := 1 }), (1, { logicRunning := true })] }; (s.bough 0).logicRunning = true ∧ (s.bough 0).logicDue = true ∧ (s.bough (s.bough 0).logicPartner).logicRunning = true) ∧
    (let s := withLeaf { verifyRunning := true }; s.leafLive 0 0 = true ∧ (s.leaf (leafNo 0 0)).verifyRunning = true) := by decide +kernel

theorem wit_FieldTestCommand : ∀ p ∈ [(0, false, false), (0x10, true, false), (1, false, true), (0x0A3C_0510, true, true)], let bs := command 4 ([0, 0, 0, 0] ++ leBytes 4 p.1);
    (withCommand bs).takeCommand 0 2 = some (parseTask bs, bs) ∧ (withCommand bs).cmdTurn 0 = true ∧ (withCommand bs).headUe 0 = none ∧ knownOpcode (parseTask bs).program = true ∧ (parseTask bs).program = 4 ∧
      cmdFieldsOk bs [(0, 4), (4, 4)] = true ∧ (withCommand bs).ftestHead 0 p.2.1 = true ∧ ((withCommand bs).ftestTarget (parseTask bs)).isSome = (p.2.2 || p.2.1) := by decide +kernel

-- Loads, folds, queues, tasks and knots.

/-- The conditions of `State.ServesHead` for a record at the head of queue 0, decided. -/
def servesB (s : State) (bs : List Byte) (opc n : Nat) (used : List (Nat × Nat)) : Bool :=
  decide (s.takeCommand 0 n = some (parseTask bs, bs)) && s.cmdTurn 0 && decide (s.headUe 0 = none) && knownOpcode (parseTask bs).program && decide ((parseTask bs).program = opc) && cmdFieldsOk bs used

theorem serves_of (s : State) (bs : List Byte) (opc n : Nat) (used : List (Nat × Nat)) (h : servesB s bs opc n used = true) : s.ServesHead 0 opc n used (parseTask bs) := by
  simp only [servesB, Bool.and_eq_true, decide_eq_true_eq] at h
  exact ⟨bs, h.1.1.1.1.1, h.1.1.1.1.2, h.1.1.1.2, h.1.1.2, h.1.2, h.2⟩

/-- LOAD_CANOPY of an image at `a` on the stands of `m`. -/
def loadCmd (a m : Nat) : List Byte := command 2 (leBytes 8 (2 ^ 60 + a) ++ leBytes 8 (2 ^ 60) ++ [byteOf m])

/-- FOLD_GRAFT of graft 0 of context 0 with its scratch at HBM address 2²⁰. -/
def foldCmd : List Byte := command 5 (leBytes 8 0 ++ leBytes 8 (2 ^ 60 + 2 ^ 20))

/-- A device whose context 0 has a graft state block for the image of stand 0. -/
def folding : State :=
  let s := withCommand foldCmd
  { s with que := { s.que with ctxBase := 0x10000 }, stands := [(0, { canopy := some { grafts := [{ foldable := true }] } })], hbm := s.hbm ++ [(0x1000, 0x47), (0x1001, 0x52), (0x1002, 0x54), (0x1003, 0x46), (0x1004, 1), (0x1006, 1), (0x1016, 1), (0x1040, 1), (0x10011, 0x10)] }

/-- A device that loads stand 0. -/
def loading (l : LoadOp) : State := withOp { body := .load { l with mask := 1 } }

theorem wit_LoadCanopyCommand : let u := [(0, 8), (8, 8), (16, 1), (17, 1), (18, 2), (32, 32)];
    (servesB (withCommand (loadCmd 0 15)) (loadCmd 0 15) 2 2 u = true ∧ (bitsSet 4 (le (parseTask (loadCmd 0 15)).args 16 1)).any (withCommand (loadCmd 0 15)).busyStands.contains = false ∧
      decodeAddr (le (parseTask (loadCmd 0 15)).args 0 8) = .hbm 0 ∧ decodeAddr (le (parseTask (loadCmd 0 15)).args 8 8) = .hbm 0 ∧ le (parseTask (loadCmd 0 15)).args 16 1 = 15) ∧
    (servesB (withCommand (loadCmd 0 16)) (loadCmd 0 16) 2 2 u = true ∧ 15 < le (parseTask (loadCmd 0 16)).args 16 1) ∧
    (let s := { withCommand (loadCmd 0 1) with trunk := (loading {}).trunk }; servesB s (loadCmd 0 1) 2 2 u = true ∧ (bitsSet 4 (le (parseTask (loadCmd 0 1)).args 16 1)).any s.busyStands.contains = true) := by decide +kernel

theorem wit_LoadAndFoldEvents :
    (let s := loading {}; s.op 0 = some { body := .load { mask := 1 } } ∧ s.inReset (hbmStand 0) = false) ∧
    (let s := loading { run := { quiescing := true } }; s.op 0 = some { body := .load { mask := 1, run := { quiescing := true } } } ∧ s.rounds 0 = some { quiescing := true }) ∧
    (servesB (withCommand (command 5 [])) (command 5 []) 5 2 [(0, 4), (4, 2), (6, 2), (8, 8)] = true ∧ (withCommand (command 5 [])).foldTarget 0 0 (.hbm 0) = none) ∧
    (let t := parseTask foldCmd; servesB folding foldCmd 5 2 [(0, 4), (4, 2), (6, 2), (8, 8)] = true ∧ decodeAddr (le t.args 8 8) = .hbm (2 ^ 20) ∧
      folding.foldTarget (le t.args 0 4) (le t.args 4 2) (.hbm (2 ^ 20)) = some ({ grafts := [{ foldable := true }] }, { foldable := true }) ∧ (({ foldable := true } : Graft).stands.any folding.busyStands.contains) = false) ∧
    (withOp { body := .fold {} }).op 0 = some { body := .fold {} } := by decide +kernel

theorem wit_Doorbells : base.live = true ∧ base.pcie.d3hot = false ∧ base.hasFunc 0 = true ∧ 0x7FFFFF < 0x800000 ∧
    (let s := withQueue { enabled := true }; (s.queue 0).enabled = true ∧ (s.queue 0).desc.function = 0 ∧ (s.queue 0).flr = false ∧ s.doorbellsActed 0 = true) ∧
    (let s := { withQueue { enabled := true } with que := { (withQueue { enabled := true }).que with ctrl := false } }; (s.queue 0).enabled = true ∧ s.doorbellsActed 0 = false) ∧
    (let r : QRun := { cqTail := 2 }; 2 ^ r.desc.sqLog2 < ((3 : Word) - r.sqHead).toNat ∧ (r.cqTail - r.cqHead).toNat < ((3 : Word) - r.cqHead).toNat ∧
      ¬ (2 ^ r.desc.sqLog2 < ((2 : Word) - r.sqHead).toNat ∨ (r.cqTail - r.cqHead).toNat < ((2 : Word) - r.cqHead).toNat) ∧ r.flushing = false) ∧
    (let r : QRun := { cqTail := 2, flushing := true }; ¬ (2 ^ r.desc.sqLog2 < ((2 : Word) - r.sqHead).toNat ∨ (r.cqTail - r.cqHead).toNat < ((2 : Word) - r.cqHead).toNat) ∧ r.flushing = true) := by decide +kernel

theorem wit_QueueCommands : base.regLive = true ∧ base.que.cmdBusy = false ∧ (base.queue 0xFFFFF).enabled = false ∧ base.flrHolds 0xFFFFF = false ∧ base.shut (hbmStand (base.descAddr 0xFFFFF)) = false ∧ 0xFFFFF < 2 ^ 20 ∧
    (let s := withStand { rstState := .stopping, rstStep := 1 }; s.regLive = true ∧ s.que.cmdBusy = false ∧ (s.queue 0).enabled = false ∧ s.shut (hbmStand (s.descAddr 0)) = true) ∧
    (let s : State := { base with pcie := { base.pcie with vfFlr := 1 } }; s.regLive = true ∧ s.flrHolds 0 = true) ∧
    (let s := withQueue { enabled := true }; s.regLive = true ∧ s.que.cmdBusy = false ∧ (s.queue 0).enabled = true ∧ (s.queue 0).idle = true ∧ (s.queue 0).flr = false) ∧
    (let s := withQueue { enabled := true, owed := 1 }; (s.queue 0).enabled = true ∧ (s.queue 0).idle = false) ∧ bit (1 : Word) 0 = true ∧ bit (0 : Word) 0 = false := by decide +kernel

theorem wit_KnotSignalCounts : (let x : Knot := { t := 2 }; x.t ≠ 0 ∧ x.l ≠ 0 ∧ x.p.toNat + 1 ≠ x.t.toNat) ∧
    (let x : Knot := { k := 65534 }; x.p.toNat + 1 = x.t.toNat ∧ x.k.toNat + x.l.toNat ≤ 65535) ∧ (let x : Knot := { k := 65535 }; x.p.toNat + 1 = x.t.toNat ∧ 65535 < x.k.toNat + x.l.toNat) := by decide

theorem wit_KnotCommands : base.trunk.fwRunning = true ∧ 65535 < 65536 ∧ base.regLive = true ∧ base.que.knotSel = 0 ∧ base.pcie.heldAcc = [] ∧
    (let s : State := { base with pcie := { base.pcie with heldAcc := [.write 0 [some 1]] } }; s.regLive = true ∧ s.pcie.heldAcc ≠ []) ∧
    (let s : State := { base with que := { knotSel := 65535 } }; s.regLive = true ∧ s.que.knotSel ≠ 0) ∧ bit (1 : Word) 0 = true := by decide

theorem wit_SyncAndTaskEvents : base.trunk.boot ≠ .off ∧ true ≠ base.que.falling ∧ base.que.syncEn = false ∧
    (let s : State := { base with que := { syncEn := true } }; s.que.syncEn = true ∧ s.trunk.warmBusy = false ∧ s.bud.power = .full) ∧
    (let s : State := { base with que := { syncEn := true }, bud := { base.bud with power := .dormant } }; s.que.syncEn = true ∧ s.bud.power ≠ .full ∧ s.bud.syncLatched = false) ∧
    (let t : Task := { id := 1, queue := 0, sqIndex := 0, trec := {}, cls := 1, hold := false, function := 0 };
     let s := withBough { ending := [t], held := [{ epoch := 1, task := 1, op := 0, dest := .completion 1, retired := true }] }; s.enabled 0 = true ∧ s.awake = true ∧ s.inReset (standOf 0) = false ∧ (s.bough 0).nextEnd = some t) ∧
    (let s := withQueue { enabled := true, desc := { irqAll := true, coalUs := 1 }, uncovered := 1 }; (s.queue 0).enabled = true ∧ (s.queue 0).desc.irqAll = true ∧ (s.queue 0).desc.coalUs ≠ 0 ∧ 0 < (s.queue 0).uncovered) := by decide +kernel

theorem wit_CompletionWrite : let s := withQueue { enabled := true, desc := { cqBase := .hbm 4096, cqLog2 := 1 }, cqTail := 0xFFFFFFFF }; (s.queue 0).flr = false ∧
    (s.queue 0).desc.cqBase.add ((32 * ((s.queue 0).cqTail.toNat % 2 ^ (s.queue 0).desc.cqLog2) : Nat) : Int) = .hbm 4128 ∧ Memory.wf s.hbm = true := by decide +kernel

-- Registers, the host, power, resets and dumps.

theorem wit_RegisterAccesses : base.bar0Live 0 = true ∧ ({ off := 0x3FFFFFC } : Bar0Acc).wellFormed = true ∧ ({ off := 8, len := 8 } : Bar0Acc).wellFormed = true ∧ ({ off := 2 } : Bar0Acc).wellFormed = false ∧
    smFind base.latches (latchKey 0 0x10) = none ∧
    (let s : State := { base with latches := [(latchKey 0 0x14, 7)] }; smFind s.latches (latchKey 0 0x14) = some 7) := by decide +kernel

theorem wit_Bar2Accesses : base.live = true ∧ base.pcie.d3hot = false ∧ base.bud.power = .full ∧ Memory.wf base.hbm = true ∧ base.hbmBad = [] ∧ base.bar2Flag (hbmSize - 1) 1 = none ∧
    base.firstUe ((hbmSize - 1) / 64 * 64) ((hbmSize - 1 + 1 - 1) / 64 * 64 + 64 - (hbmSize - 1) / 64 * 64) = none ∧ hbmSize < hbmSize - 1 + [some (0 : Byte), none].length ∧ hbmSize < hbmSize - 1 + 2 ∧
    -- A bad word beside the bytes written, in the same 64-byte word.
    (let s : State := { base with hbmBad := [1] }; ∀ w ∈ s.hbmBad, 8 * w + 8 ≤ 0 ∨ 0 + [some (7 : Byte)].length ≤ 8 * w) := by decide +kernel

/-- `base` with virtual functions on. -/
def withVfs : State := { base with pcie := { base.pcie with vfEnable := true, numVfs := 31 } }

theorem wit_HostEvents : (withVfs.live = true ∧ 1 ≤ 31 ∧ withVfs.hasFunc 31 = true ∧ withVfs.hasFunc 0 = true) ∧ bit base.pcie.vfFlr 31 = false ∧
    (let s := withQueue { enabled := true, desc := { function := 31 } }; (s.queue 0).enabled = true ∧ (s.queue 0).desc.function = 31) ∧
    (let s := withQueue { reading := true }; (s.queue 0).reading = true) ∧ (let s : State := { base with pcie := { base.pcie with refclkExt := true } }; s.pcie.refclkExt = true) ∧ base.pcie.refclkExt = false ∧
    (let s : State := { base with pcie := {} }; s.pcie.ready = false ∧ s.trunk.boot ≠ .off ∧ s.bud.perst = false) ∧
    (base.pcie.ready = true ∧ base.live = true ∧ base.hasFunc 1 = false ∧ base.hasFunc 0 = true ∧ fld base.trunk.partId 15 0 = 0) ∧
    (let s : State := { base with trunk := { base.trunk with partId := 0x2048 } }; s.pcie.ready = true ∧ fld s.trunk.partId 15 0 ≠ 0) := by decide +kernel

/-- `base` in a power state. -/
def inPower (p : PwrState) (step : Nat) : State := { base with bud := { base.bud with power := p, entryStep := step } }

theorem wit_PowerEvents : (base.live = true ∧ base.pcie.d3hot = false ∧ fld base.bud.pwrCtrl 1 0 ≠ 0) ∧
    (let s : State := { base with bud := { base.bud with pwrCtrl := 0 } }; s.live = true ∧ fld s.bud.pwrCtrl 1 0 = 0) ∧
    (let s : State := { base with pcie := { base.pcie with d3hot := true } }; s.live = true ∧ s.pcie.d3hot = true ∧ s.bud.power = .full) ∧
    (let s : State := { inPower .dormant 0 with pcie := { base.pcie with d3hot := true }, bud := { (inPower .dormant 0).bud with pwrCtrl := 2 } }; s.live = true ∧ s.bud.power = .dormant ∧ s.pcie.d3hot = true ∧ 2 ≤ fld s.bud.pwrCtrl 1 0) ∧
    base.budLive = true ∧ (inPower .dormant 0).budLive = true ∧ (inPower .entering 2).bud.entryStep = 2 ∧ (inPower .waking 0).bud.power = .waking ∧ bit base.bud.wakeEn WakeKind.syncIn.bitNo = false ∧
    (let s := withBough { newFreq := some 900 }; s.enabled 0 = true ∧ (s.bough 0).newFreq = some 900) := by decide +kernel

theorem wit_DormantRequests : (withOp { body := .dump }).trunk.ops ≠ [] ∧ (let s : State := { base with stands := [(3, { rstState := .stopping })] }; s.trunk.ops = [] ∧ (s.stand 3).rstState ≠ .normal ∧ ∀ j < 3, (s.stand j).rstState = .normal) ∧
    (let s : State := { base with trunk := { base.trunk with warmBusy := true } }; s.trunk.ops = [] ∧ (∀ j < 4, (s.stand j).rstState = .normal) ∧ s.trunk.warmBusy = true) ∧
    base.refusal = none ∧ (inPower .dormant 0).refusal = some (6, 0) ∧
    (∀ n ∈ [2, 3, 5, 6], (inPower .entering n).bud.power = .entering ∧ (inPower .entering n).bud.entryStep = n) ∧ (inPower .entering 2).quiet = true ∧ (inPower .entering 6).bud.wakeLatch = 0 ∧ (inPower .entering 6).bud.wakeOther = 0 ∧
    (let s := withBough { waiting := [{ id := 1, queue := 0, sqIndex := 0, trec := {}, cls := 1, hold := false, function := 0 }] }; s.quiet = false) ∧ (let s := withBough { epochs := [{ num := 1, task := 1 }] }; s.drainedAll = false) := by decide +kernel

theorem wit_ResetCommands : base.regLive = true ∧ 3 < 4 ∧ bit (0 : Word) 31 = false ∧ base.trunk.fwRunning = true ∧ base.trunk.warmBusy = false ∧ ((withStand { rstStep := 4 }).stand 0).rstStep = 4 ∧
    ((withStand { rstState := .replaying }).stand 0).rstState = .replaying ∧ base.budLive = true ∧ bit (0x40000000 : Word) 30 = true ∧
    (∀ n ∈ [1, 2], (let s : State := { base with trunk := { base.trunk with warmBusy := true, warmStep := n } }; s.trunk.warmBusy = true ∧ s.trunk.warmStep = n)) ∧ (inPower .dormant 0).bud.power = .dormant ∧ base.bud.power ≠ .dormant := by decide +kernel

theorem wit_StandResetKeeps : ((withStand { rstStep := 5 }).stand 0).rstStep = 5 ∧ ((withStand { rstStep := 5 }).leaf 0).marker = false ∧ ((withStand { rstStep := 6 }).stand 0).rstStep = 6 ∧ ((withStand { rstStep := 6 }).stand 0).fallback = false ∧
    (base.enabled (287 / 18) = true ∧ 287 / 18 / 4 = 3 ∧ 287 / 18 < 16) ∧ 287 / 18 / 4 ≠ 0 := by decide

theorem wit_WarmAndColdKeep : ({ base with trunk := { base.trunk with warmBusy := true } } : State).trunk.warmBusy = true ∧ base.trunk.warmBusy = false ∧ base.trunk.fwRunning = true := by decide

/-- DUMP of the stands of `m` to HBM address `a`, `n` bytes. -/
def dumpCmd (m a n : Nat) : List Byte := command 6 (leBytes 8 m ++ leBytes 8 (2 ^ 60 + a) ++ leBytes 4 n)

theorem wit_DumpCommands : (∀ p ∈ [(16, 0, 64), (15, 0, 64), (0, 32, 64), (0, 0, 63), (0, hbmSize - 64, 128)], servesB (withCommand (dumpCmd p.1 p.2.1 p.2.2)) (dumpCmd p.1 p.2.1 p.2.2) 6 2 [(0, 1), (8, 8), (16, 4)] = true ∧
      decodeAddr (le (parseTask (dumpCmd p.1 p.2.1 p.2.2)).args 8 8) = .hbm p.2.1 ∧ le (parseTask (dumpCmd p.1 p.2.1 p.2.2)).args 0 1 = p.1 ∧ le (parseTask (dumpCmd p.1 p.2.1 p.2.2)).args 16 4 = p.2.2) ∧
    (withCommand (dumpCmd 15 0 64)).dumpTakes false (.hbm 0) 64 = true ∧
    (let s := { withCommand (dumpCmd 15 0 64) with stands := [(0, { hbmFenced := true })] }; s.dumpTakes false (.hbm 0) 64 = false) ∧
    base.trunk.dumps = [] ∧ (let s : State := { base with trunk := { base.trunk with dumps := [{}] } }; s.trunk.dumps = [{}] ∧ ({} : DumpRun).kind ≠ 1) ∧
    (let d : DumpRun := { kind := 1, op := some 0, left := [.hbm 0] }; let s : State := { base with trunk := { base.trunk with dumps := [d] } }; s.trunk.dumps = [d] ∧ d.kind = 1 ∧ d.op = some 0 ∧ d.left = [.hbm 0]) := by decide +kernel

/-- A manager of rings of 16, and a worker of ring 3. -/
def manager : State := { base with ael := { role := { role := .manager, ringLen := [16, 16, 16, 16] }, ports := [{ linkA := { up := true } }, {}, {}, {}] } }
def worker : State := { base with ael := { role := { role := .worker, ring := 3, position := 15 } } }

/-- A flit of a message whose first 244 bytes are `bs`, its check off by `e`. -/
def flitOf (bs : List Byte) (e : Word) : Flit := { bytes := bs ++ leBytes 4 (crc32c bs + e).toNat, body := .part .sysReset 0 true }

/-- Link header and payload of a flit with sequence number `n`. -/
def flitHead (n : Nat) : List Byte := leBytes 4 (n * 2 ^ 20) ++ List.replicate 240 0

theorem flitHead_length (n : Nat) : (flitHead n).length = 244 := by
  rw [flitHead, List.length_append, leBytes_length, List.length_replicate]

theorem flitOf_crcOk (bs : List Byte) (e : Word) (l : bs.length = 244) : (flitOf bs e).crcOk = decide (e = 0) := by
  unfold flitOf Flit.crcOk
  have r : le (bs ++ leBytes 4 (crc32c bs + e).toNat) 244 4 = (crc32c bs + e).toNat := by
    rw [← l, le_append_leBytes]
    exact Nat.mod_eq_of_lt (crc32c bs + e).isLt
  have t : (bs ++ leBytes 4 (crc32c bs + e).toNat).take 244 = bs := by rw [← l, List.take_left]
  have q : (bs ++ leBytes 4 (crc32c bs + e).toNat).length = 248 := by rw [List.length_append, l, leBytes_length]
  simp only [r, t, q, wordOf_toNat, decide_true, Bool.true_and]
  generalize crc32c bs = c
  rw [Bool.eq_iff_iff, beq_iff_eq, decide_eq_true_eq]
  exact ⟨fun h => by bv_omega, fun h => by rw [h]; exact (BitVec.add_zero c).symm⟩

theorem flitOf_seq (n : Nat) (e : Word) : (flitOf (flitHead n) e).seq = BitVec.ofNat 12 (n * 2 ^ 20 % 256 ^ 4 / 2 ^ 20) := by
  unfold flitOf Flit.seq flitHead le sub
  simp only [List.append_assoc, List.drop_zero]
  rw [List.take_append_of_le_length (Nat.le_of_eq (leBytes_length 4 _).symm), List.take_of_length_le (Nat.le_of_eq (leBytes_length 4 _))]
  simp only [leBytes_length, Nat.sub_self, List.replicate_zero, List.append_nil, leNat_leBytes]

theorem wit_AetholoLinks : manager.aelLive = true ∧ manager.wired 3 true = true ∧ (worker.wired 1 false = true ∧ worker.isWorker = true ∧ worker.isManager = false) ∧ manager.isManager = true ∧ 16 ≤ manager.ringLen 3 ∧ 0 < manager.ringLen 3 ∧
    (let s : State := { manager with ael := { manager.ael with ports := [{ linkA := { training := true } }] } }; ((s.port 0).link false).training = true) ∧
    (0 < manager.ael.ports.length ∧ ((manager.port 0).link false).up = true ∧ ((manager.port 0).link false).training = false ∧ ((manager.port 0).link false).replays + 1 < 8) ∧
    (let s : State := { manager with ael := { manager.ael with ports := [{ linkA := { up := true, replays := 7 } }] } }; 8 ≤ ((s.port 0).link false).replays + 1) := by decide +kernel

theorem wit_AetholoLinks_flits : ((flitOf (flitHead 0) 1).corrected = false ∧ (flitOf (flitHead 0) 1).crcOk = false) ∧
    ((flitOf (flitHead 0) 0).crcOk = true ∧ (flitOf (flitHead 0) 0).body = .part .sysReset 0 true ∧ (flitOf (flitHead 0) 0).seq = ((manager.port 0).link false).rxSeq) ∧
    ((flitOf (flitHead 1) 0).crcOk = true ∧ (∀ n, (flitOf (flitHead 1) 0).body ≠ .replay n) ∧ (flitOf (flitHead 1) 0).seq ≠ ((manager.port 0).link false).rxSeq) := by
  have good : ∀ n, (flitOf (flitHead n) 0).crcOk = true := fun n => flitOf_crcOk _ _ (flitHead_length n)
  exact ⟨⟨rfl, flitOf_crcOk _ _ (flitHead_length 0)⟩, ⟨good 0, rfl, by rw [flitOf_seq]; decide⟩, good 1, fun n h => (nomatch h), by rw [flitOf_seq]; decide⟩

theorem wit_CollectiveEvents : base.regLive = true ∧ base.ael.armBusy = false ∧ 4095 < 4096 ∧ base.tableHeld 4095 = false ∧ base.armed 4095 = none ∧ base.hbmUe (base.ael.collBase.toNat + 64 * 4095) 64 = false ∧
    parseColl (base.hbmBytes (base.ael.collBase.toNat + 64 * 4095) 64) = none ∧ (withStand { rstState := .stopping }).tableHeld 0 = true ∧
    (let s : State := { base with ael := { armed := [(0, { ent := {} })] } }; s.armed 0 = some { ent := {} } ∧ ({ ent := {} } : Armed).inFlight = false) ∧
    (let a : Armed := { ent := {}, run := some {} }; let s : State := { base with ael := { armed := [(0, a)] } }; s.armed 0 = some a ∧ a.inFlight = true) ∧
    manager.aelLive = true ∧ manager.hasRole = true ∧ worker.isWorker = true ∧ manager.isManager = true ∧ manager.regLive = true := by decide +kernel

-- The store, management, security and the test port.

/-- A queued write of ring 0. -/
def storing (op : StoreOp) (st : StoreState) : State := { base with store := { state := st, busy := op, queue := [.ring 0 1], log := [(16, {}), (17, {}), (18, {}), (19, {})] } }

theorem wit_StoreEvents : (storing .idle .ready).storeUp = true ∧ ((storing .idle .ready).store.busy = .idle ∧ (storing .idle .ready).store.state = .ready ∧ (storing .idle .ready).store.nextWrites = [.ring 0 1]) ∧
    (storing .idle .readOnly).storeUp = true ∧ (storing .idle .readOnly).store.state = .readOnly ∧ (storing (.write [.ring 0 1]) .readOnly).store.busy = .write [.ring 0 1] ∧
    (storing (.compact 16) .ready).store.busy = .compact 16 ∧ (storing (.erase 16) .ready).store.busy = .erase 16 ∧ (storing .idle .ready).store.state ≠ .readOnly := by decide +kernel

theorem wit_BudMessages : base.BudServes .vdm ∧ base.BudServes .smbus ∧ base.mgmt.pending = [] ∧ le (List.replicate 8 (0 : Byte)) 0 8 < 2 ^ 40 ∧ le [0xFF, 0xFF, 0xFF, 0xFF, 0xFF, 0, 0, (0 : Byte)] 0 8 < 2 ^ 40 ∧
    resetPayload [2] 2 = true ∧ resetPayload [3, 0, 0, 0] 3 = true ∧ (127 : Byte).toNat ≤ 127 := by
  refine ⟨⟨by decide, by decide, by decide⟩, ⟨by decide, by decide, by decide⟩, ?_⟩; decide +kernel

/-- A role record payload of a standalone device. -/
def rolePayload : List Byte := List.replicate 16 0

theorem wit_TrunkMessages : base.BudServes .vdm ∧ (let s : State := { base with mgmt := { pending := [{ via := .vdm, code := 1 }] } }; ∃ p ∈ s.mgmt.pending, p.via = .vdm) ∧ base.mgmt.pending = [] ∧
    State.reset.trunk.fwRunning = false ∧ base.trunk.fwRunning = true ∧ base.trunk.warmBusy = false ∧ base.trunk.recovery = false ∧
    (1 ≤ le [0, 0, 0, 0, (1 : Byte)] 4 1 ∧ le [0, 0, 0, 0, (16 : Byte)] 4 1 ≤ 16) ∧ (le [1, 3, 0, (0 : Byte)] 0 1 = 1 ∧ le [1, 3, 0, (0 : Byte)] 1 1 ≤ 3 ∧ base.bud.power = .full) ∧
    base.refusal = none ∧ (withOp { body := .dump }).refusal = some (1, 0) ∧ parseRole rolePayload = some { systemId := 0 } ∧ base.store.state ≠ .readOnly := by
  refine ⟨⟨by decide, by decide, by decide⟩, ?_⟩; decide +kernel

theorem wit_MctpCommands : base.BudServes .vdm ∧ (8 : Byte) ≠ 0 ∧ (8 : Byte) ≠ 0xFF ∧ (let s : State := { base with mgmt := { alert := 1 } }; s.trunk.boot ≠ .off ∧ s.alertN = true) ∧ base.trunk.identityOk = true := by
  refine ⟨⟨by decide, by decide, by decide⟩, ?_⟩; decide +kernel

theorem shake256_length_32 : base.idHash.length = 32 := by decide +kernel

/-- A device in a lifecycle, with an owner key of eight bytes. -/
def owned (life : Nat) : State :=
  { base with store := { state := .ready, counters := { lifecycle := life, ownership := 1 }, index := [(ownerKeyAt 1, { key := ownerKeyAt 1, payload := .ownerKey [1, 2, 3, 4, 5, 6, 7, 8] })] }, trunk := { base.trunk with nonce := some [1] } }

/-- The hypotheses of the security messages but for a good signature, which RFC 8391 verification decides (an opaque function of Config): those that need one have it where that function answers true. -/
theorem wit_SecurityMessages : base.BudServes .vdm ∧ base.mgmt.pending = [] ∧ (owned 0).trunk.fwRunning = true ∧ (owned 0).trunk.warmBusy = false ∧ (owned 0).trunk.recovery = false ∧
    (owned 0).store.counters.lifecycle = 0 ∧ (owned 2).store.counters.lifecycle ∉ [0] ∧ (owned 2).store.counters.lifecycle ∈ [2] ∧
    (let s : State := { owned 1 with store := { (owned 1).store with counters := { lifecycle := 1 } } }; s.store.counters.lifecycle = 1 ∧ s.store.counters.ownership = 0 ∧ s.store.state ≠ .readOnly) ∧
    ((owned 2).store.counters.lifecycle = 2 ∧ (owned 2).store.counters.ownership < 8 ∧ (owned 2).policy.seq.toNat < 1 ∧ (owned 2).ownerPk = some [1, 2, 3, 4, 5, 6, 7, 8]) ∧
    ((owned 3).trunk.nonce = some [1] ∧ (owned 3).store.counters.debug < 32 ∧ 1 ≤ (owned 3).store.counters.lifecycle) := by
  refine ⟨⟨by decide, by decide, by decide⟩, ?_⟩; decide +kernel

theorem wit_SecurityMessages_signed (sig : List Byte) (h : Config.xmssVerify [1, 2, 3, 4, 5, 6, 7, 8] (shake256 []) sig = true) :
    let r : SecReq := { via := .vdm, body := [], idHash := (owned 2).idHash, bind := 1, signature := sig }
    r.signedBy (owned 2).ownerPk = true ∧ r.idHash = (owned 2).idHash ∧ r.bind = (owned 2).store.counters.ownership := by
  have e : (owned 2).ownerPk = some [1, 2, 3, 4, 5, 6, 7, 8] := by decide +kernel
  refine ⟨?_, rfl, rfl⟩
  rw [e]; exact h

/-- A firmware update under way in slot 2. -/
def updating : State := { base with trunk := { base.trunk with fwUpdate := some [] } }

theorem wit_FirmwareUpdate : base.BudServes .vdm ∧ base.mgmt.pending = [] ∧ updating.trunk.fwRunning = true ∧ updating.trunk.warmBusy = false ∧ updating.updateSlot = 2 ∧
    (0 < le [1, 0, 0, (0 : Byte)] 0 4 ∧ le [0, 0, 16, (0 : Byte)] 0 4 ≤ 2 ^ 20) ∧ (updating.trunk.fwUpdate = some [] ∧ 4 < [0, 0, 0, 0, (7 : Byte)].length ∧ le [0, 0, 0, 0, (7 : Byte)] 0 4 = 0 ∧ le [1, 0, 0, 0, (7 : Byte)] 0 4 ≠ 0) ∧
    updating.store.state ≠ .readOnly := by
  refine ⟨⟨by decide, by decide, by decide⟩, ?_⟩; decide +kernel

theorem wit_FirmwareUpdate_bad : updating.fwCheck (updating.slotBytes updating.updateSlot) ≠ 0 := by
  rw [show updating.fwCheck (updating.slotBytes updating.updateSlot) = 1 from by rfl]; decide

theorem wit_TestPortCommands : base.trunk.boot ≠ .off ∧ base.bud.perst = false ∧ (let s : State := { base with bud := { base.bud with perst := true } }; s.trunk.boot ≠ .off ∧ s.bud.perst = true) ∧
    ((0x7F : Byte).toNat < 0x80 ∧ 0x80 ≤ (0x80 : Byte).toNat ∧ (0xFE : Byte).toNat ≤ 0xFE) ∧ base.trunk.debugActive = false ∧ base.store.counters.lifecycle = 0 ∧ (owned 2).store.counters.lifecycle ≠ 0 := by decide +kernel

theorem wit_EveryCommandAnswers : (let s : State := { owned 2 with trunk := { base.trunk with debugActive := true } }; s.trunk.debugActive = true) ∧ base.store.counters.lifecycle = 0 := by decide

-- Small steps, with results from the manual's examples.

/-- Table 5-6. -/
theorem test_rounded_shift : [rshr 30 2, rshr 10 2, rshr (-6) 2, rshr (-10) 2, rshr 11 2] = [8, 2, -2, -2, 3] := by decide +kernel

/-- R425: the IDCODE of the MGD-2048, of the MGD-1536 and with an invalid factory record. -/
theorem test_idcode : [idcodeOf 0x2048, idcodeOf 0x1536, idcodeOf 0] = [0x12048B47#32, 0x11536B47#32, 0x10000B47#32] := by decide

/-- SHAKE256 of the empty message (FIPS 202): the first four bytes. -/
theorem test_shake256 : (shake256 []).take 4 = [0x46, 0xB9, 0xDD, 0x2B] := by decide +kernel

/-- CRC-32C of the digits 1 to 9 (the check value of its definition). -/
theorem test_crc32c : crc32c ([0x31, 0x32, 0x33, 0x34, 0x35, 0x36, 0x37, 0x38, 0x39] : List Byte) = 0xE3069283#32 := by decide +kernel

/-- R262: a knot with threshold 1 and release 3 fires at each signal. -/
theorem test_knot_fires : ({ l := 3 } : Knot).signal = { l := 3, k := 3, f := 1 } := by decide

/-- R9 and Table 16-7: a write of BUD_PWR_CAP takes its low seven bits alone. -/
theorem test_cap : (match exec (.budPwrCap 0xFFFFFF3C) base with | .next t => t.bud.capW | _ => 0) = 0x3C#7 := by decide

/-- R425: HIGHZ acts as BYPASS while PERST_N is high. -/
theorem test_highz : (match exec .highz base with | .next t => (t.tap.instr, t.tap.highz) | _ => (.extest, true)) = (.bypass, false) := by decide

/-- R283: a BAR2 write stores only its enabled bytes. -/
theorem test_bar2 : (match exec (.bar2Write 62 [some 1, none, some 3]) base with | .next t => t.hbm | _ => []) = [(62, 1), (64, 3)] := by decide +kernel

/-- R421: the SMBus address is 0x64 plus the straps. -/
theorem test_straps : (match exec (.vinApplied 2) State.reset with | .next t => (t.mgmt.smbAddr, t.trunk.boot) | _ => (0, .off)) = (0x66#7, .recovering) := by decide

end Sys2Proof.Tests
end

section
/-! SUPPORT. Accesses of BAR0: what a table without a key answers, what one register read, a completed read, a write of 4 or 8 bytes and a timed-out access leave (R9, R10, R281, R282), and from these O43. -/

namespace Sys2Proof.Machine

theorem smFind_erase_same {α : Type} (m : SMap α) (k : Nat) : smFind (smErase m k) k = none := by
  induction m with
  | nil => rfl
  | cons p r ih =>
    obtain ⟨i, w⟩ := p
    unfold smErase at ih ⊢
    by_cases e : i = k
    · simpa [e] using ih
    · simpa [e, smFind] using ih

theorem smFind_erase_other {α : Type} (m : SMap α) (k j : Nat) (h : j ≠ k) : smFind (smErase m k) j = smFind m j := by
  induction m with
  | nil => rfl
  | cons p r ih =>
    obtain ⟨i, w⟩ := p
    unfold smErase at ih ⊢
    by_cases e : i = k
    · simpa [e, smFind, Ne.symm h] using ih
    · simp [e, smFind, ih]

-- One register read.

theorem State.readReg_latched {s : State} {fn off : Nat} {v : Word} (h : smFind s.latches (latchKey fn off) = some v) :
    s.readReg fn off = (v, { s with latches := smErase s.latches (latchKey fn off) }) := by
  simp only [State.readReg, h]

theorem State.readReg_unlatched {s : State} {fn off : Nat} (h : smFind s.latches (latchKey fn off) = none) :
    s.readReg fn off = ((s.regOf fn off).value,
      if (s.regOf fn off).lo then
        { (s.regOf fn off).clear s with latches := smSet ((s.regOf fn off).clear s).latches (latchKey fn (off + 4)) (s.regOf fn (off + 4)).value }
      else (s.regOf fn off).clear s) := by
  simp only [State.readReg, h]

/-- R9: the value of the _HI register is the one before the read clears anything. -/
theorem State.readReg_lo_latches_hi {s : State} {fn off : Nat} (h : smFind s.latches (latchKey fn off) = none) (hlo : (s.regOf fn off).lo = true) :
    smFind (s.readReg fn off).2.latches (latchKey fn (off + 4)) = some (s.regOf fn (off + 4)).value := by
  simp only [State.readReg_unlatched h, hlo, if_true, smFind_set_same]

-- A read that completes; its data in `rdata` is log entry 135 (DESIGN CHOICE).

@[simp] theorem State.completeRead_rdata (s : State) (len : Nat) (d : DWord) : (s.completeRead len d).rdata = d := rfl
@[simp] theorem State.completeRead_latches (s : State) (len : Nat) (d : DWord) : (s.completeRead len d).latches = s.latches := rfl

theorem State.completeRead_frame (s : State) (len : Nat) (d : DWord) :
    s.completeRead len d = { s with rdata := d, out := (s.completeRead len d).out } := rfl

/-- A register's value fits the read data. -/
theorem dwordOfWord_toNat (w : Word) : (BitVec.ofNat 64 w.toNat).toNat = w.toNat := by
  rw [BitVec.toNat_ofNat]; omega

-- An access by its form.

theorem State.bar0Read_malformed {s : State} {acc : Bar0Acc} (h : acc.wellFormed = false) :
    s.bar0Read acc = (s.pciError 0 acc.fn acc.off).completeRead acc.len 0 := by
  simp [State.bar0Read, h]

theorem State.bar0Read_four {s : State} {acc : Bar0Acc} (h : acc.wellFormed = true) (h4 : acc.len = 4) :
    s.bar0Read acc = (s.readReg acc.fn acc.off).2.completeRead 4 (BitVec.ofNat 64 (s.readReg acc.fn acc.off).1.toNat) := by
  simp [State.bar0Read, h, h4]

theorem State.bar0Write_malformed {s : State} {acc : Bar0Acc} {v : DWord} (h : acc.wellFormed = false) :
    s.bar0Write acc v = s.pciError 0 acc.fn acc.off := by
  simp [State.bar0Write, h]

theorem State.bar0Write_four {s : State} {acc : Bar0Acc} {v : DWord} (h : acc.wellFormed = true) (h4 : acc.len = 4) :
    s.bar0Write acc v = (s.regOf acc.fn acc.off).write (loOf v) s := by
  simp [State.bar0Write, h, h4]

theorem State.bar0Write_eight {s : State} {acc : Bar0Acc} {v : DWord} (h : acc.wellFormed = true) (h8 : acc.len = 8) :
    s.bar0Write acc v =
      (((s.regOf acc.fn acc.off).write (loOf v) s).regOf acc.fn (acc.off + 4)).write (hiOf v) ((s.regOf acc.fn acc.off).write (loOf v) s) := by
  simp [State.bar0Write, h, h8]

-- The four commands where accesses reach the device.

theorem exec_registerWrite_live {acc : Bar0Acc} {v : DWord} {s : State} (hl : s.bar0Live acc.fn = true) :
    exec (.registerWrite acc v) s = .next (s.bar0Write acc v) :=
  congrArg ok (if_pos hl)

theorem exec_registerReadClear_live {acc : Bar0Acc} {s : State} (hl : s.bar0Live acc.fn = true) :
    exec (.registerReadClear acc) s = .next (s.bar0Read acc) :=
  congrArg ok (if_pos hl)

theorem exec_loRegisterRead_live {off : Nat} {s : State} (hl : s.bar0Live 0 = true) (hlo : (s.reg off).lo = true) (ha : off % 4 = 0) :
    exec (.loRegisterRead off) s = .next ((s.readReg 0 off).2.completeRead 4 (BitVec.ofNat 64 (s.readReg 0 off).1.toNat)) :=
  congrArg ok (if_pos ⟨hl, hlo, ha⟩)

/-- R282: the write is discarded, the read completes with all ones. -/
theorem exec_bar0AccessTimeout_live {acc : Bar0Acc} {isWrite : Bool} {s : State} (hl : s.bar0Live acc.fn = true) (h : acc.wellFormed = true) :
    exec (.bar0AccessTimeout acc isWrite) s = .next (if isWrite then s.pciError 1 acc.fn acc.off
      else (s.pciError 1 acc.fn acc.off).completeRead acc.len (if acc.len = 4 then 0xFFFFFFFF#64 else 0xFFFFFFFFFFFFFFFF#64)) :=
  congrArg ok (if_neg (by simp [hl, h]))

-- The clauses of O43 on reads.

theorem exec_registerReadClear_four {acc : Bar0Acc} {s : State} (hl : s.bar0Live acc.fn = true) (h : acc.wellFormed = true) (h4 : acc.len = 4)
    (hn : smFind s.latches (latchKey acc.fn acc.off) = none) :
    ∃ u, exec (.registerReadClear acc) s = .next u ∧ u.rdata.toNat = (s.regOf acc.fn acc.off).value.toNat ∧
      ((s.regOf acc.fn acc.off).lo = false → u = { (s.regOf acc.fn acc.off).clear s with rdata := u.rdata, out := u.out }) := by
  refine ⟨_, (exec_registerReadClear_live hl).trans (congrArg _ (State.bar0Read_four h h4)), ?_, fun hlo => ?_⟩
  · rw [State.completeRead_rdata, State.readReg_unlatched hn, dwordOfWord_toNat]
  · have hs : (s.readReg acc.fn acc.off).2 = (s.regOf acc.fn acc.off).clear s := by
      simp [State.readReg_unlatched hn, hlo]
    rw [hs]
    exact State.completeRead_frame _ _ _

theorem exec_registerReadClear_malformed {acc : Bar0Acc} {s : State} (hl : s.bar0Live acc.fn = true) (h : acc.wellFormed = false) :
    ∃ u, exec (.registerReadClear acc) s = .next u ∧ u.rdata = 0 ∧ u = { s.pciError 0 acc.fn acc.off with rdata := 0, out := u.out } :=
  ⟨_, (exec_registerReadClear_live hl).trans (congrArg _ (State.bar0Read_malformed h)), State.completeRead_rdata _ _ _, State.completeRead_frame _ _ _⟩

theorem exec_bar0AccessTimeout_read {acc : Bar0Acc} {s : State} (hl : s.bar0Live acc.fn = true) (h : acc.wellFormed = true) :
    ∃ u, exec (.bar0AccessTimeout acc false) s = .next u ∧ u = { s.pciError 1 acc.fn acc.off with rdata := u.rdata, out := u.out } ∧
      (acc.len = 4 → u.rdata = 0xFFFFFFFF#64) ∧ (acc.len = 8 → u.rdata = 0xFFFFFFFFFFFFFFFF#64) := by
  refine ⟨_, exec_bar0AccessTimeout_live hl h, State.completeRead_frame _ _ _, fun h4 => ?_, fun h8 => ?_⟩
  · simp [h4]
  · simp [h8]

theorem exec_loRegisterRead_latches_hi {off : Nat} {s : State} (hl : s.bar0Live 0 = true) (hlo : (s.reg off).lo = true) (ha : off % 4 = 0)
    (hn : smFind s.latches (latchKey 0 off) = none) :
    ∃ u, exec (.loRegisterRead off) s = .next u ∧ u.rdata.toNat = (s.reg off).value.toNat ∧
      smFind u.latches (latchKey 0 (off + 4)) = some (s.reg (off + 4)).value := by
  refine ⟨_, exec_loRegisterRead_live hl hlo ha, ?_, State.readReg_lo_latches_hi hn hlo⟩
  rw [State.completeRead_rdata, State.readReg_unlatched hn, dwordOfWord_toNat]
  rfl

/-- R9; that one read consumes the latch is log entry 10 (DEDUCED). -/
theorem State.readReg_consumes_latch {s : State} {fn off : Nat} {v : Word} (h : smFind s.latches (latchKey fn off) = some v) :
    (s.readReg fn off).1 = v ∧ smFind (s.readReg fn off).2.latches (latchKey fn off) = none ∧
      ∀ k, k ≠ latchKey fn off → smFind (s.readReg fn off).2.latches k = smFind s.latches k := by
  rw [State.readReg_latched h]
  exact ⟨rfl, smFind_erase_same _ _, fun k hk => smFind_erase_other _ _ k hk⟩

/-- Settles O43, by the form of the access: malformed, 4 or 8 bytes, timed out; and by whether the register read has a latched value. -/
theorem registerAccesses : Obligations.RegisterAccesses := by
  unfold Obligations.RegisterAccesses
  refine ⟨fun acc v s hl => ⟨fun h h4 => ?_, fun h h8 => ?_, exec_registerReadClear_four hl, fun h => ⟨?_, exec_registerReadClear_malformed hl h⟩,
      fun h => ⟨exec_bar0AccessTimeout_live hl h, exec_bar0AccessTimeout_read hl h⟩⟩,
    fun _ _ => exec_loRegisterRead_latches_hi, fun _ _ _ _ => State.readReg_consumes_latch⟩
  · rw [exec_registerWrite_live hl, State.bar0Write_four h h4]
  · rw [exec_registerWrite_live hl, State.bar0Write_eight h h8]
  · rw [exec_registerWrite_live hl, State.bar0Write_malformed h]

end Sys2Proof.Machine
end

section
/-! SUPPORT. Weights in storage: the digits of a number, an integer and its two's complement field, the fields of a packed row, the stored values of a row (R32, R90), and from these O12. -/

namespace Sys2Proof.Machine

theorem nsum_eq_sum (l : List Nat) : nsum l = l.sum :=
  List.sum_eq_foldl.symm

/-- The low `m` digits of `x` in base `B`. -/
theorem nsum_digits (B x m : Nat) : nsum ((List.range m).map fun t => B ^ t * (x / B ^ t % B)) = x % B ^ m := by
  rw [nsum_eq_sum]
  induction m with
  | zero => simp [Nat.mod_one]
  | succ m ih => rw [List.range_succ, List.map_append, List.sum_append, ih, Nat.mod_pow_succ]; simp

theorem nth_map_range {α : Type} (d : α) (f : Nat → α) {n j : Nat} (h : j < n) : nth d ((List.range n).map f) j = f j := by
  simp [nth, h]

-- Two's complement fields.

theorem toBits_lt (b : Nat) (i : Int) : toBits b i < 2 ^ b := by
  have hpos : (0 : Int) < ((2 ^ b : Nat) : Int) := by positivity
  have hlt := Int.emod_lt_of_pos i hpos
  unfold toBits
  omega

/-- An integer that fits is its own low bits. -/
theorem toBits_of_fits {b : Nat} {i : Int} (h0 : 0 ≤ i) (hlt : i < ((2 ^ b : Nat) : Int)) : ((toBits b i : Nat) : Int) = i := by
  rw [toBits, Int.emod_eq_of_lt h0 hlt, Int.toNat_of_nonneg h0]

/-- The signed reading of `b` bits lies from −2^(b−1) to 2^(b−1) − 1. -/
theorem sext_range {b : Nat} (hb : 0 < b) (n : Nat) : -((2 ^ (b - 1) : Nat) : Int) ≤ sext b n ∧ sext b n < ((2 ^ (b - 1) : Nat) : Int) := by
  have hpow : 2 ^ (b - 1) * 2 = 2 ^ b := Nat.two_pow_pred_mul_two hb
  have hlt : n % 2 ^ b < 2 ^ b := Nat.mod_lt _ (by positivity)
  simp only [sext]
  split <;> omega

/-- A field written from its signed reading is the field again. -/
theorem toBits_sext (b n : Nat) : toBits b (sext b n) = n % 2 ^ b := by
  have hlt : n % 2 ^ b < 2 ^ b := Nat.mod_lt _ (by positivity)
  simp only [sext, toBits]
  split
  · rw [← Int.natCast_emod, Int.toNat_natCast, Nat.mod_eq_of_lt hlt]
  · rw [Int.sub_emod_right, ← Int.natCast_emod, Int.toNat_natCast, Nat.mod_eq_of_lt hlt]

-- The widths of Table 2-3.

/-- A byte holds a whole number of weights, a row 128 bytes of them, and a weight a whole number of slices. -/
theorem weight_widths : ∀ w : BitVec 2, w.toNat < 3 →
    0 < weightBits w ∧ 8 / weightBits w * weightBits w = 8 ∧ logicals w = 128 * (8 / weightBits w) ∧ 4 ^ (weightBits w / 2) = 2 ^ weightBits w := by
  decide

/-- Field `j` of a packed row. -/
def rowField (w : BitVec 2) (row : List Byte) (j : Nat) : Nat :=
  (nth 0 row (j * weightBits w / 8)).toNat / 2 ^ (j * weightBits w % 8) % 2 ^ weightBits w

/-- Field `t` of byte `i` is digit `t` of the byte in base 2^b. -/
theorem rowField_of_byte {w : BitVec 2} (hw : w.toNat < 3) (row : List Byte) (i : Nat) {t : Nat} (ht : t < 8 / weightBits w) :
    rowField w row (8 / weightBits w * i + t) = (nth 0 row i).toNat / (2 ^ weightBits w) ^ t % 2 ^ weightBits w := by
  obtain ⟨hpos, hper, -, -⟩ := weight_widths w hw
  have hfit : t * weightBits w < 8 := hper ▸ Nat.mul_lt_mul_of_pos_right ht hpos
  have hpos8 : (8 / weightBits w * i + t) * weightBits w = 8 * i + t * weightBits w := by
    rw [Nat.add_mul, Nat.mul_right_comm, hper]
  rw [rowField, hpos8, Nat.mul_add_div (by omega), Nat.mul_add_mod, Nat.div_eq_of_lt hfit, Nat.mod_eq_of_lt hfit, Nat.add_zero,
    ← Nat.pow_mul, Nat.mul_comm t]

/-- R32: the stored value of a logical column. -/
theorem nth_rowStored {w : BitVec 2} {j : Nat} (row : List Byte) (hj : j < logicals w) :
    nth 0 (rowStored w row) j = toBits (weightBits w) (sext (weightBits w) (rowField w row j) + (weightOffset w : Int)) :=
  nth_map_range _ _ hj

/-- R32: w′ = w + w_o, with nothing lost to the width. -/
theorem rowStored_eq_add_offset {w : BitVec 2} {j : Nat} (row : List Byte) (hw : w.toNat < 3) (hj : j < logicals w) :
    ((nth 0 (rowStored w row) j : Nat) : Int) = sext (weightBits w) (rowField w row j) + ((weightOffset w : Nat) : Int) := by
  obtain ⟨hpos, -, -, -⟩ := weight_widths w hw
  have hpow : weightOffset w * 2 = 2 ^ weightBits w := Nat.two_pow_pred_mul_two hpos
  obtain ⟨hlo, hhi⟩ := sext_range hpos (rowField w row j)
  have hoff : 2 ^ (weightBits w - 1) = weightOffset w := rfl
  rw [nth_rowStored row hj]
  apply toBits_of_fits <;> omega

/-- R32: w′ is the sum of 4^k times its slices. -/
theorem nsum_slices_rowStored {w : BitVec 2} {j : Nat} (row : List Byte) (hw : w.toNat < 3) (hj : j < logicals w) :
    nsum ((List.range (weightBits w / 2)).map fun k => 4 ^ k * sliceOf (nth 0 (rowStored w row) j) k) = nth 0 (rowStored w row) j := by
  obtain ⟨-, -, -, hslices⟩ := weight_widths w hw
  have hlt : nth 0 (rowStored w row) j < 4 ^ (weightBits w / 2) := by
    rw [hslices, nth_rowStored row hj]
    exact toBits_lt _ _
  exact (nsum_digits 4 _ _).trans (Nat.mod_eq_of_lt hlt)

theorem sliceOf_le (v k : Nat) : sliceOf v k ≤ 3 :=
  Nat.le_of_lt_succ (Nat.mod_lt _ (by decide))

/-- R90: a stored value less the offset is the packed field again. -/
theorem toBits_rowStored_sub_offset {w : BitVec 2} {j : Nat} (row : List Byte) (hw : w.toNat < 3) (hj : j < logicals w) :
    toBits (weightBits w) (ni (nth 0 (rowStored w row) j) - (weightOffset w : Int)) = rowField w row j := by
  rw [ni, rowStored_eq_add_offset row hw hj, Int.add_sub_cancel, toBits_sext]
  exact Nat.mod_mod _ _

/-- The fields of a byte make up the byte. -/
theorem nsum_rowFields {w : BitVec 2} (row : List Byte) (hw : w.toNat < 3) (i : Nat) :
    nsum ((List.range (8 / weightBits w)).map fun t => rowField w row (8 / weightBits w * i + t) * 2 ^ (weightBits w * t)) = (nth 0 row i).toNat := by
  obtain ⟨-, hper, -, -⟩ := weight_widths w hw
  calc _ = nsum ((List.range (8 / weightBits w)).map fun t => (2 ^ weightBits w) ^ t * ((nth 0 row i).toNat / (2 ^ weightBits w) ^ t % 2 ^ weightBits w)) := by
        refine congrArg nsum (List.map_congr_left fun t ht => ?_)
        rw [rowField_of_byte hw row i (List.mem_range.mp ht), Nat.mul_comm, Nat.pow_mul]
    _ = (nth 0 row i).toNat % (2 ^ weightBits w) ^ (8 / weightBits w) := nsum_digits _ _ _
    _ = (nth 0 row i).toNat := by
        rw [← Nat.pow_mul, Nat.mul_comm, hper]
        exact Nat.mod_eq_of_lt (BitVec.isLt _)

/-- Every field of a row's 128 bytes is a logical column. -/
theorem field_lt_logicals {w : BitVec 2} (hw : w.toNat < 3) {i t : Nat} (hi : i < 128) (ht : t < 8 / weightBits w) : 8 / weightBits w * i + t < logicals w := by
  obtain ⟨-, -, hlog, -⟩ := weight_widths w hw
  calc 8 / weightBits w * i + t < 8 / weightBits w * (i + 1) := by rw [Nat.mul_succ]; omega
    _ ≤ 8 / weightBits w * 128 := Nat.mul_le_mul_left _ hi
    _ = logicals w := by rw [hlog, Nat.mul_comm]

/-- R90: byte `i` of a row from the row's stored values. -/
theorem byteOf_storedFields {w : BitVec 2} (row : List Byte) (hw : w.toNat < 3) {i : Nat} (hi : i < 128) :
    byteOf (nsum ((List.range (8 / weightBits w)).map fun t =>
      toBits (weightBits w) (ni (nth 0 (rowStored w row) (8 / weightBits w * i + t)) - (weightOffset w : Int)) * 2 ^ (weightBits w * t))) = nth 0 row i := by
  rw [List.map_congr_left fun t ht => by rw [toBits_rowStored_sub_offset row hw (field_lt_logicals hw hi (List.mem_range.mp ht))],
    nsum_rowFields row hw i, byteOf, BitVec.ofNat_toNat, BitVec.setWidth_eq]

theorem rowBytes_rowStored {w : BitVec 2} {row : List Byte} (hw : w.toNat < 3) (hrow : row.length = 128) : rowBytes w (rowStored w row) = row := by
  refine List.ext_getElem (by simp [rowBytes, hrow]) fun i hi hi' => ?_
  calc (rowBytes w (rowStored w row))[i] = nth 0 row i := by
        simp only [rowBytes, List.getElem_map, List.getElem_range]
        exact byteOf_storedFields row hw (hrow ▸ hi')
    _ = row[i] := by rw [nth, List.getElem?_eq_getElem hi', Option.getD_some]

/-- Settles O12: the signed reading plus the offset fits the width, so it is stored whole, and its base-4 digits are the slices; back, the fields are the base-2^b digits of each byte. -/
theorem weightStorage : Obligations.WeightStorage := by
  unfold Obligations.WeightStorage
  refine ⟨fun w row j hw hj => ?_, fun w row => rowBytes_rowStored⟩
  exact ⟨rowStored_eq_add_offset row hw hj, rfl, by decide, nsum_slices_rowStored row hw hj, sliceOf_le _⟩

end Sys2Proof.Machine
end

section
/-! SUPPORT. Leaf events: what one leaf's trunk phases, its refused phases and a tried XRECV leave (R44, R54, R78, R210), and from these O13. -/

namespace Sys2Proof.Machine

@[simp] theorem State.onLeaf_leaf_same (s : State) (k : Nat) (f : Leaf → Leaf) : (s.onLeaf k f).leaf k = f (s.leaf k) :=
  smGet_upd_same _ _ _ _

theorem State.onLeaf_leaf_other (s : State) (f : Leaf → Leaf) {k j : Nat} (h : j ≠ k) : (s.onLeaf k f).leaf j = s.leaf j :=
  smGet_upd_other _ _ _ _ _ h

/-- From `s` to `t` only leaf `k` and boughs change, and the leaf's fence and error flags are kept. -/
structure QuietFrame (k : Nat) (s t : State) : Prop where
  fence : (t.leaf k).groupFence = (s.leaf k).groupFence
  err : (t.leaf k).errStatus = (s.leaf k).errStatus
  other : ∀ j, j ≠ k → t.leaf j = s.leaf j
  rest : t = { s with leaves := t.leaves, boughs := t.boughs }

section
variable {k : Nat} {s t : State}

theorem QuietFrame.refl (k : Nat) (s : State) : QuietFrame k s s := ⟨rfl, rfl, fun _ _ => rfl, rfl⟩

theorem QuietFrame.onBough (h : QuietFrame k s t) (b : Nat) (f : Bough → Bough) : QuietFrame k s (t.onBough b f) :=
  ⟨h.fence, h.err, h.other, by rw [h.rest]; rfl⟩

theorem QuietFrame.onLeaf (h : QuietFrame k s t) {f : Leaf → Leaf} (hf : ∀ l, (f l).groupFence = l.groupFence) (he : ∀ l, (f l).errStatus = l.errStatus) :
    QuietFrame k s (t.onLeaf k f) where
  fence := by rw [State.onLeaf_leaf_same, hf, h.fence]
  err := by rw [State.onLeaf_leaf_same, he, h.err]
  other j hj := (t.onLeaf_leaf_other f hj).trans (h.other j hj)
  rest := by rw [h.rest]; rfl

theorem State.startMeas_quiet (h : QuietFrame k s t) (cause : Nat) : QuietFrame k s (t.startMeas k cause) := by
  refine (h.onBough _ _).onLeaf (fun l => ?_) (fun l => ?_) <;>
  · dsimp only
    split
    · split <;> rfl
    · rfl

theorem State.trigger_quiet (h : QuietFrame k s t) (cause : Nat) : QuietFrame k s (t.trigger k cause) := by
  unfold State.trigger
  dsimp only
  split
  · exact h.onLeaf (fun _ => rfl) (fun _ => rfl)
  · split
    · exact h.onLeaf (fun _ => rfl) (fun _ => rfl)
    · exact (State.startMeas_quiet h cause).onLeaf (fun _ => rfl) (fun _ => rfl)

theorem State.endDriftBlock_quiet (h : QuietFrame k s t) : QuietFrame k s (t.endDriftBlock k) := by
  have hnew : QuietFrame k s (t.onLeaf k fun l => { l with driftN := 0, driftSum := [], driftLast := l.driftSum }) :=
    h.onLeaf (fun _ => rfl) (fun _ => rfl)
  unfold State.endDriftBlock
  dsimp only
  split
  · exact h
  · split
    · exact State.trigger_quiet hnew 3
    · exact hnew

theorem State.trunkPhases_quiet (codes : List (List Nat)) (h : QuietFrame k s t) : QuietFrame k s (t.trunkPhases k codes) := by
  unfold State.trunkPhases
  induction codes generalizing t with
  | nil => exact h
  | cons c cs ih => exact ih ((State.endDriftBlock_quiet h).onLeaf (fun _ => rfl) (fun _ => rfl))

/-- R52: trunk phases whose monitors all agree are no more than phases. -/
theorem State.trunkDrive_of_agree (s : State) (k : Nat) {codes : List (List Nat)} {sum : Nat → Nat → Nat} {dev : Nat → Nat → Int}
    (h : ∀ i, mismatchBlocks (sum i) (dev i) = []) : s.trunkDrive k codes sum dev = s.trunkPhases k codes := by
  simp [State.trunkDrive, h]

end

/-- R44: codes in their windows and monitors that agree. -/
theorem State.selfCheck_pass (s : State) (k : Nat) {codes : List Nat} {mon : SMap Int}
    (hcodes : ∀ q < 32, (ni (nth (smGet 192 (s.leaf k).factoryCode q) codes q) - ni (smGet 192 (s.leaf k).factoryCode q)).natAbs ≤ 12)
    (hmon : mismatchBlocks (fun _ => 960) (fun i => smGet 0 mon i) = []) :
    ((s.selfCheck k codes mon).leaf k).refCheckPass = true ∧ ((s.selfCheck k codes mon).leaf k).refCheckDue = false ∧
      QuietFrame k s (s.selfCheck k codes mon) := by
  have hout : ((List.range 32).filter fun q =>
      decide (12 < (ni (nth (smGet 192 (s.leaf k).factoryCode q) codes q) - ni (smGet 192 (s.leaf k).factoryCode q)).natAbs)) = [] := by
    simpa using hcodes
  have hcheck : s.selfCheck k codes mon = (s.trunkPhases k [(List.range 32).map fun q => nth (smGet 192 (s.leaf k).factoryCode q) codes q]).onLeaf k
      fun l => { l with outOfWindow := wordOf 0, refCheckPass := true, checked := true, refCheckDue := false } := by
    rw [State.selfCheck, hout, State.trunkDrive_of_agree _ _ fun _ => hmon]
    rfl
  rw [hcheck]
  exact ⟨by rw [State.onLeaf_leaf_same], by rw [State.onLeaf_leaf_same], (State.trunkPhases_quiet _ (.refl k s)).onLeaf (fun _ => rfl) (fun _ => rfl)⟩

-- A leaf-phase on a leaf that has left ACTIVE.

theorem State.foldl_onBough_frame {α : Type} (l : List α) (b : Nat) (f : α → Bough → Bough) (s : State) :
    l.foldl (fun s a => s.onBough b (f a)) s = { s with boughs := (l.foldl (fun s a => s.onBough b (f a)) s).boughs } := by
  induction l generalizing s with
  | nil => rfl
  | cons a r ih => rw [List.foldl_cons, ih]; rfl

theorem State.tryXrecv_frame (s : State) (b : Nat) : s.tryXrecv b = { s with boughs := (s.tryXrecv b).boughs } := by
  unfold State.tryXrecv
  split
  · split <;> rfl
  · rfl

/-- R54: the leaf after its waiting phases are refused. -/
def Leaf.refused (l : Leaf) : Leaf := { l with jobs := [], errStatus := l.errStatus ||| 4#5 }

theorem State.refusePhases_frame (s : State) (b k : Nat) : s.refusePhases b k = { s.onLeaf k Leaf.refused with boughs := (s.refusePhases b k).boughs } :=
  State.foldl_onBough_frame _ b _ (s.onLeaf k Leaf.refused)

theorem State.runPhase_refused {s : State} {b k : Nat} {o : PhaseObs} (hjobs : (s.leaf k).jobs ≠ []) (hrole : (s.leaf k).role ≠ .active) :
    s.runPhase b k o = s.refusePhases b k := by
  unfold State.runPhase
  dsimp only
  split
  · contradiction
  · exact if_pos hrole

/-- R54, R210: after a refused phase and the XRECV that is tried then, only the leaf and boughs differ. -/
theorem State.refusePhases_tryXrecv_frame (s : State) (b k : Nat) : ((s.refusePhases b k).tryXrecv b) =
    { s.onLeaf k Leaf.refused with boughs := ((s.refusePhases b k).tryXrecv b).boughs } := by
  rw [State.tryXrecv_frame, State.refusePhases_frame]

-- The two commands.

theorem exec_refSelfCheck_due {b l : Nat} {codes : List Nat} {mon : SMap Int} {s : State} (hb : s.enabled b = true) (hl : l < 18)
    (hdue : (s.leaf (leafNo b l)).refCheckDue = true) (hrole : (s.leaf (leafNo b l)).role = .active) (hmid : (s.leaf (leafNo b l)).midVector = false) :
    exec (.refSelfCheck b l ⟨codes, mon⟩) s = .next (s.selfCheck (leafNo b l) codes mon) :=
  congrArg ok (if_pos (by simp [hb, hl, hdue, hrole, hmid]))

theorem exec_leafPhase_live {b l : Nat} {o : PhaseObs} {s : State} (hb : s.usable b = true) (hl : l < 18) (hawake : s.awake = true)
    (hstand : s.inReset (standOf b) = false) : exec (.leafPhase b l o) s = .next ((s.runPhase b (leafNo b l) o).tryXrecv b) :=
  congrArg ok (if_pos (by simp [hb, hl, hawake, hstand]))

theorem exec_leafPhase_refused {b l : Nat} {o : PhaseObs} {s : State} (hb : s.usable b = true) (hl : l < 18) (hawake : s.awake = true)
    (hstand : s.inReset (standOf b) = false) (hjobs : (s.leaf (leafNo b l)).jobs ≠ []) (hrole : (s.leaf (leafNo b l)).role ≠ .active) :
    ∃ t, exec (.leafPhase b l o) s = .next t ∧ t.leaf (leafNo b l) = (s.leaf (leafNo b l)).refused ∧
      (∀ k, k ≠ leafNo b l → t.leaf k = s.leaf k) ∧ t = { s with leaves := t.leaves, boughs := t.boughs } := by
  refine ⟨_, exec_leafPhase_live hb hl hawake hstand, ?_⟩
  rw [State.runPhase_refused hjobs hrole, State.refusePhases_tryXrecv_frame]
  exact ⟨State.onLeaf_leaf_same _ _ _, fun k hk => State.onLeaf_leaf_other _ _ hk, rfl⟩

/-- Settles O13: a self-check that passes is one trunk phase and its flags; the refused phases change the leaf and its bough's epochs alone. -/
theorem leafEvents : Obligations.LeafEvents := by
  unfold Obligations.LeafEvents
  refine ⟨fun b l codes mon s hb hl hdue hrole hmid => ?_, fun b l o s hb hl hawake hstand => ?_⟩
  · have hexec := exec_refSelfCheck_due (codes := codes) (mon := mon) hb hl hdue hrole hmid
    refine ⟨hexec, fun hcodes hmon => ?_⟩
    obtain ⟨hpass, hclear, hframe⟩ := s.selfCheck_pass (leafNo b l) hcodes hmon
    exact ⟨_, hexec, hpass, hclear, hframe.fence, hframe.err, hframe.other, hframe.rest⟩
  · refine ⟨exec_leafPhase_live hb hl hawake hstand, fun hjobs hrole => ?_⟩
    obtain ⟨t, hexec, hleaf, hother, hrest⟩ := exec_leafPhase_refused (o := o) hb hl hawake hstand hjobs hrole
    exact ⟨t, hexec, by rw [hleaf]; rfl, by rw [hleaf]; rfl, by rw [hleaf]; rfl, hother, hrest⟩

end Sys2Proof.Machine
end

section
/-! SUPPORT. Commands and their completions: what serving a queue's head comes to, and what a completion, the end of a queue and the acceptance and end of a long operation leave (R251, R266, R267, R271, R272). -/

namespace Sys2Proof.Machine

/-- R271: a head that can be served in its turn runs its command. -/
theorem State.ServesHead.serve {s : State} {q opc n : Nat} {used : List (Nat × Nat)} {t : TaskRec} (h : s.ServesHead q opc n used t)
    (go : TaskRec → State → State) : s.serveCommand q opc n used go = go t s := by
  obtain ⟨bs, htake, hturn, hgood, hknown, rfl, hfields⟩ := h
  simp [State.serveCommand, htake, hturn, hgood, hknown, hfields]

@[simp] theorem State.onStand_stand_same (s : State) (i : Nat) (f : Stand → Stand) : (s.onStand i f).stand i = f (s.stand i) :=
  smGet_upd_same _ _ _ _

theorem State.onStand_stand_other (s : State) (f : Stand → Stand) {i j : Nat} (h : j ≠ i) : (s.onStand i f).stand j = s.stand j :=
  smGet_upd_other _ _ _ _ _ h

/-- What a completion and the end of a queue leave alone: the trunk, the bud, boughs and leaves among the rest, and whether a stand is in reset. -/
structure CompletionFrame (s t : State) : Prop where
  inReset : ∀ i, t.inReset i = s.inReset i
  rest : t = { s with que := t.que, pcie := t.pcie, stands := t.stands, hbm := t.hbm, hbmBad := t.hbmBad, out := t.out }

namespace CompletionFrame
variable {s t u : State}

theorem refl (s : State) : CompletionFrame s s := ⟨fun _ => rfl, rfl⟩

theorem trans (a : CompletionFrame s t) (b : CompletionFrame t u) : CompletionFrame s u :=
  ⟨fun i => (b.inReset i).trans (a.inReset i), by rw [b.rest, a.rest]⟩

theorem trunk (h : CompletionFrame s t) : t.trunk = s.trunk := by rw [h.rest]
theorem bud (h : CompletionFrame s t) : t.bud = s.bud := by rw [h.rest]
theorem leaves (h : CompletionFrame s t) : t.leaves = s.leaves := by rw [h.rest]
theorem leaf (h : CompletionFrame s t) (k : Nat) : t.leaf k = s.leaf k := by rw [State.leaf, h.leaves, State.leaf]
theorem op (h : CompletionFrame s t) (i : Nat) : t.op i = s.op i := by rw [State.op, h.trunk, State.op]

theorem onQue (h : CompletionFrame s t) (f : Que → Que) : CompletionFrame s (t.onQue f) := h.trans ⟨fun _ => rfl, rfl⟩
theorem onQueue (h : CompletionFrame s t) (q : Nat) (f : QRun → QRun) : CompletionFrame s (t.onQueue q f) := h.onQue _
theorem poke (h : CompletionFrame s t) (a : Nat) (bs : List Byte) : CompletionFrame s (t.poke a bs) := h.trans ⟨fun _ => rfl, rfl⟩
theorem emit (h : CompletionFrame s t) (e : OutEv) : CompletionFrame s (t.emit e) := h.trans ⟨fun _ => rfl, rfl⟩

theorem foldl_emit {α : Type} (h : CompletionFrame s t) (l : List α) (e : State → α → OutEv) :
    CompletionFrame s (l.foldl (fun s a => s.emit (e s a)) t) := by
  induction l generalizing t with
  | nil => exact h
  | cons a r ih => exact ih (h.emit _)

theorem hostPost (h : CompletionFrame s t) (f a : Nat) (bs : List Byte) (p w : Bool) : CompletionFrame s (t.hostPost f a bs p w) := by
  unfold State.hostPost
  split
  · exact h.foldl_emit _ _
  · exact h

theorem writeAddr (h : CompletionFrame s t) (f : Nat) (a : Addr) (bs : List Byte) : CompletionFrame s (t.writeAddr f a bs) := by
  unfold State.writeAddr
  split
  · exact h.poke _ _
  · exact h.hostPost _ _ _ _ _
  · exact h

theorem raise (h : CompletionFrame s t) (f vec : Nat) : CompletionFrame s (t.raise f vec) := by
  unfold State.raise
  dsimp only
  split <;> exact h.trans ⟨fun _ => rfl, rfl⟩

/-- R267: the interrupt, where it is due. -/
theorem queueIrq (h : CompletionFrame s t) (p : Prop) [Decidable p] (q : Nat) : CompletionFrame s (if p then t.queueIrq q else t) := by
  split
  · exact (h.raise _ _).onQueue _ _
  · exact h

/-- A stand, where it is the owner, counts a completion in its heartbeat. -/
theorem hbComplete (h : CompletionFrame s t) (p : Prop) [Decidable p] (i : Nat) :
    CompletionFrame s (if p then t.onStand i fun d => { d with hbComplete := d.hbComplete + 1 } else t) := by
  split
  · refine h.trans ⟨fun j => ?_, rfl⟩
    by_cases hj : j = i
    · subst hj
      simp only [State.inReset, State.onStand_stand_same]
    · simp only [State.inReset, State.onStand_stand_other _ _ hj]
  · exact h

/-- R266, R267: a completion with its interrupt. -/
theorem complete (h : CompletionFrame s t) (q : Nat) (c : Compl) : CompletionFrame s (t.complete q c) := by
  unfold State.complete
  dsimp only
  split
  · exact h
  · exact (((h.writeAddr _ _ _).onQueue _ _).hbComplete _ _).queueIrq _ _

/-- R251: a DISABLE that takes effect where nothing of the queue is in flight. -/
theorem endDisable (h : CompletionFrame s t) (q : Nat) : CompletionFrame s (t.endDisable q) := by
  unfold State.endDisable
  split
  · unfold State.finishDisable State.writeBack
    exact (((h.onQueue _ _).poke _ _).onQue _).onQue _
  · exact h

end CompletionFrame

-- Long operations.

/-- R272: the operation that is accepted into slot `h`. -/
def State.newOp (s : State) (h q : Nat) (t : TaskRec) (sqIndex : Word) (body : OpBody) : LongOp :=
  { gen := smGet 0 s.trunk.opGen h, opcode := BitVec.ofNat 16 t.program, queue := q, sqIndex := sqIndex, userTag := t.userTag, irq := bit t.flags 0, body := body }

/-- R272: an accepted operation stands in the lowest free slot; its ACCEPTED completion changes no more of the trunk. -/
theorem State.acceptOp_frame {s : State} {h : Nat} (hfree : s.freeSlot = some h) (q : Nat) (t : TaskRec) (sqIndex : Word) (body : OpBody) :
    (s.acceptOp q t sqIndex body).2 = h ∧
      CompletionFrame (s.onTrunk fun x => { x with ops := smSet x.ops h (s.newOp h q t sqIndex body), opGen := smSet x.opGen h (smGet 0 s.trunk.opGen h + 1) })
        (s.acceptOp q t sqIndex body).1 := by
  unfold State.acceptOp
  rw [hfree]
  exact ⟨rfl, ((CompletionFrame.refl _).onQueue _ _).complete _ _⟩

/-- R272: what the end of a CALIBRATE is kept as. -/
def LongOp.calibDone (o : LongOp) (h code : Nat) (c : CalibOp) : OpDone := { handle := o.handle h, code := code, leaves := c.status }

theorem State.endOp_calib_frame {s : State} {h : Nat} {o : LongOp} {c : CalibOp} (hop : s.op h = some o) (hbody : o.body = .calib c) (code : Nat) :
    CompletionFrame (s.onTrunk fun t => { t with ops := smErase t.ops h, opDone := smSet t.opDone h (o.calibDone h code c) }) (s.endOp h code) := by
  unfold State.endOp
  rw [hop]
  dsimp only
  rw [hbody]
  exact (((CompletionFrame.refl _).onQueue _ _).complete _ _).endDisable _

theorem State.endOp_leaves (s : State) (h code : Nat) : (s.endOp h code).leaves = s.leaves := by
  unfold State.endOp
  split
  · rfl
  · exact ((((CompletionFrame.refl _).onQueue _ _).complete _ _).endDisable _).leaves

end Sys2Proof.Machine
end

section
/-! SUPPORT. Recalibration triggers: a trigger that measures or is only noted, and the end of the measurement spacing (R78), and from these O16. -/

namespace Sys2Proof.Machine

variable {s : State} {k : Nat}

/-- R78, R82: what a leaf that nothing measures begins for an automatic trigger. -/
theorem State.startMeas_leaf_idle (hidle : (s.leaf k).meas = none) (c : CalCause) :
    (s.startMeas k c.toNat).leaf k = { s.leaf k with meas := some { cause := c, gen := (s.leaf k).generation, auto := some c } } := by
  have hbough : ((s.onBough (k / 18) fun x => { x with clockStopped := false }).leaf k).meas = none := hidle
  rw [State.startMeas, State.onLeaf_leaf_same]
  simp only [hbough, BitVec.ofNat_toNat, BitVec.setWidth_eq]
  rfl

/-- R78: with auto_recal_en 0 a trigger is only noted. -/
theorem State.trigger_noted (hauto : bit (s.leaf k).calCtrl 16 = false) (c : CalCause) :
    s.trigger k c.toNat = s.onLeaf k fun l => { l with recalWanted := true, wantedCause := c } := by
  simp [State.trigger, hauto]

/-- R78: outside the spacing a trigger measures at once, and the spacing begins. -/
theorem State.trigger_measures (hauto : bit (s.leaf k).calCtrl 16 = true) (hfree : (s.leaf k).spacing = false) (cause : Nat) :
    s.trigger k cause = (s.startMeas k cause).onLeaf k fun l => { l with spacing := true } := by
  simp [State.trigger, hauto, hfree]

-- The end of the spacing.

/-- The leaf as the spacing ends. -/
def Leaf.endSpacing (l : Leaf) : Leaf := { l with spacing := false, deferred := [] }

theorem exec_refDriftBlockEnd_live {b l : Nat} (hlive : s.leafLive b l = true) :
    exec (.refDriftBlockEnd b l) s = .next (s.endDriftBlock (leafNo b l)) :=
  congrArg ok (if_pos hlive)

theorem exec_recalSpacingEnd_quiet {b l : Nat} (hlive : s.leafLive b l = true) (hspacing : (s.leaf (leafNo b l)).spacing = true)
    (hnone : (s.leaf (leafNo b l)).deferred.find? (s.triggerHolds (leafNo b l)) = none) :
    exec (.recalSpacingEnd b l) s = .next (s.onLeaf (leafNo b l) Leaf.endSpacing) :=
  congrArg ok ((if_neg (by simp [hlive, hspacing])).trans (by rw [hnone]; rfl))

theorem exec_recalSpacingEnd_trigger {b l : Nat} {c : CalCause} (hlive : s.leafLive b l = true) (hspacing : (s.leaf (leafNo b l)).spacing = true)
    (hsome : (s.leaf (leafNo b l)).deferred.find? (s.triggerHolds (leafNo b l)) = some c) (hrole : (s.leaf (leafNo b l)).role = .active) :
    exec (.recalSpacingEnd b l) s = .next ((s.onLeaf (leafNo b l) Leaf.endSpacing).trigger (leafNo b l) c.toNat) :=
  congrArg ok ((if_neg (by simp [hlive, hspacing])).trans (by rw [hsome]; exact if_pos hrole))

/-- Settles O16: the first deferred trigger whose condition still holds is taken after the spacing, by auto_recal_en. -/
theorem recalibrationTriggers : Obligations.RecalibrationTriggers := by
  unfold Obligations.RecalibrationTriggers
  intro b l s hlive
  have hleaf : (s.onLeaf (leafNo b l) Leaf.endSpacing).leaf (leafNo b l) = (s.leaf (leafNo b l)).endSpacing := State.onLeaf_leaf_same _ _ _
  refine ⟨exec_refDriftBlockEnd_live hlive, exec_recalSpacingEnd_quiet hlive, fun c hspacing hsome hrole hauto hidle => ?_,
    fun c hspacing hsome hrole hauto => ?_⟩
  · refine ⟨_, exec_recalSpacingEnd_trigger hlive hspacing hsome hrole, ?_⟩
    rw [State.trigger_measures (by rw [hleaf]; exact hauto) (by rw [hleaf]; rfl), State.onLeaf_leaf_same,
      State.startMeas_leaf_idle (by rw [hleaf]; exact hidle), hleaf]
    exact ⟨rfl, rfl, rfl, rfl⟩
  · refine ⟨_, exec_recalSpacingEnd_trigger hlive hspacing hsome hrole, ?_⟩
    rw [State.trigger_noted (by rw [hleaf]; exact hauto), State.onLeaf_leaf_same, hleaf]
    exact ⟨rfl, rfl, rfl, rfl⟩

end Sys2Proof.Machine
end

section
/-! SUPPORT. Calibration commits: what a commit leaves in the leaf's slots and in the rest of the device, and that a CALIBRATE's status leaves the leaves alone (R68, R70, R75, R80), and from these O17. -/

namespace Sys2Proof.Machine

theorem slotOfLoad_lt (load : Nat) : slotOfLoad load < 3 := by
  unfold slotOfLoad
  split
  · decide
  · split <;> decide

/-- What a measurement leaves in its slot. -/
def Meas.slot (m : Meas) : CalSlot := { valid := true, load := m.load, temp := m.temp, refs := m.refs, trims := m.trims }

/-- R68: the slot is replaced as a whole. -/
theorem Leaf.commit_slot_same (l : Leaf) (m : Meas) {p : Nat} (hp : p < l.cal.length) : nth {} (l.commit m p).cal p = m.slot := by
  simp [nth, Leaf.commit, modAt, Meas.slot, hp]

theorem Leaf.commit_slot_other (l : Leaf) (m : Meas) {p p' : Nat} (h : p' ≠ p) : nth {} (l.commit m p).cal p' = nth {} l.cal p' := by
  simp [nth, Leaf.commit, modAt, Ne.symm h]

/-- R76: beyond the leaf's commit there is at most the REPROGRAM_DUE record. -/
theorem State.commitMeas_frame (s : State) (k : Nat) (m : Meas) (p : Nat) : RecordFrame (s.onLeaf k fun l => l.commit m p) (s.commitMeas k m p) := by
  unfold State.commitMeas
  dsimp only
  split
  · exact State.record_frame _ _ _ _
  · exact .refl _

theorem RecordFrame.leaves {s t : State} (h : RecordFrame s t) : t.leaves = s.leaves := by rw [h.rest]

theorem State.commitMeas_leaf (s : State) (k : Nat) (m : Meas) (p j : Nat) : (s.commitMeas k m p).leaf j = (s.onLeaf k fun l => l.commit m p).leaf j := by
  rw [State.leaf, (s.commitMeas_frame k m p).leaves, State.leaf]

-- A CALIBRATE's status.

theorem State.onOp_leaves (s : State) (h : Nat) (f : LongOp → LongOp) : (s.onOp h f).leaves = s.leaves := by
  unfold State.onOp
  split <;> rfl

theorem State.calibLeaf_leaves (s : State) (h k code : Nat) : (s.calibLeaf h k code).leaves = s.leaves := by
  unfold State.calibLeaf
  split
  · split
    · rfl
    · dsimp only
      split
      · exact s.onOp_leaves _ _
      · exact (State.endOp_leaves _ _ _).trans (s.onOp_leaves _ _)
  · rfl

theorem State.calibEnd_leaves (s : State) (k code : Nat) : (s.calibEnd k code).leaves = s.leaves := by
  unfold State.calibEnd
  generalize (s.leaf k).calibs = hs
  induction hs generalizing s with
  | nil => rfl
  | cons h r ih => exact (ih _).trans (s.calibLeaf_leaves h k code)

theorem State.calibEnd_leaf (s : State) (k code j : Nat) : (s.calibEnd k code).leaf j = s.leaf j := by
  rw [State.leaf, s.calibEnd_leaves, State.leaf]

/-- A measurement that serves no CALIBRATE ends none. -/
theorem State.calibEnd_no_ops {s : State} {k : Nat} {m : Meas} (hmeas : (s.leaf k).meas = some m) (hops : m.ops = []) (code : Nat) :
    s.calibEnd k code = s := by
  simp [State.calibEnd, Leaf.calibs, hmeas, hops]

-- The two commands.

section
variable {b l : Nat} {m : Meas} {s : State}

/-- R75: what leaf `k` has when its last phase has run. -/
def State.measured (s : State) (k : Nat) (m : Meas) (o : MeasObs) : Meas × List Nat :=
  (s.leaf k).measure (s.leaf k).width (s.leaf k).remap m.cause s.bud.loadPct.toNat o

theorem exec_calMeasurementDone_active {o : MeasObs} (hlive : s.leafLive b l = true) (hmeas : (s.leaf (leafNo b l)).meas = some m) (hdone : m.done = false)
    (hsusp : m.suspended = false) (hmid : (s.leaf (leafNo b l)).midVector = false) (hrole : (s.leaf (leafNo b l)).role = .active) :
    exec (.calMeasurementDone b l o) s = .next (((s.onLeaf (leafNo b l) fun f =>
      { f with meas := some { (s.measured (leafNo b l) m o).1 with gen := m.gen, auto := m.auto, ops := m.ops } }).measPhases (leafNo b l) o).fenceColumns
        (leafNo b l) (s.measured (leafNo b l) m o).2 11) := by
  change execCalMeasurementDone b l o s = _
  simp only [execCalMeasurementDone, hmeas]
  rw [if_neg (by simp [hlive, hdone, hsusp, hmid]), if_neg (by simp [hrole])]
  rfl

theorem exec_calCommit_active (hlive : s.leafLive b l = true) (hmeas : (s.leaf (leafNo b l)).meas = some m) (hdone : m.done = true)
    (hsusp : m.suspended = false) (hrole : (s.leaf (leafNo b l)).role = .active) :
    exec (.calCommit b l) s = .next ((s.calibEnd (leafNo b l) 0).commitMeas (leafNo b l) m (slotOfLoad m.load)) := by
  change execCalCommit b l s = _
  simp only [execCalCommit, hmeas]
  rw [if_neg (by simp [hlive, hdone, hsusp]), if_neg (by simp [hrole])]

end

/-- Settles O17: the commit changes its leaf alone, since neither the CALIBRATE that ends nor the record touches one. -/
theorem calibrationCommit : Obligations.CalibrationCommit := by
  unfold Obligations.CalibrationCommit
  refine ⟨fun b l o m s hlive hmeas hdone hsusp hmid hrole => ⟨exec_calMeasurementDone_active hlive hmeas hdone hsusp hmid hrole, rfl, rfl⟩,
    fun b l m s hlive hmeas hdone hsusp hrole hcal => ?_⟩
  have hleaf : ((s.calibEnd (leafNo b l) 0).commitMeas (leafNo b l) m (slotOfLoad m.load)).leaf (leafNo b l) =
      (s.leaf (leafNo b l)).commit m (slotOfLoad m.load) := by
    rw [State.commitMeas_leaf, State.onLeaf_leaf_same, State.calibEnd_leaf]
  refine ⟨_, exec_calCommit_active hlive hmeas hdone hsusp hrole, ?_⟩
  rw [hleaf]
  refine ⟨rfl, Leaf.commit_slot_same _ m (hcal ▸ slotOfLoad_lt m.load), fun p' hp' => Leaf.commit_slot_other _ m hp', rfl, fun k hk => ?_, fun hops => ?_⟩
  · rw [State.commitMeas_leaf, State.onLeaf_leaf_other _ _ hk, State.calibEnd_leaf]
  · rw [State.calibEnd_no_ops hmeas hops, (s.commitMeas_frame _ m _).rest]
    exact ⟨rfl, rfl, rfl, rfl, rfl⟩

end Sys2Proof.Machine
end

section
/-! SUPPORT. CALIBRATE: its acceptance and its refusals, the turn of a single leaf that can be measured or that waits too long, and the end of its operation (R79, R80), and from these O18. -/

namespace Sys2Proof.Machine

section
variable {s : State} {h k : Nat} {o : LongOp} {c : CalibOp}

theorem Leaf.calibs_idle {l : Leaf} (hidle : l.meas = none) : l.calibs = [] := by
  simp [Leaf.calibs, hidle]

/-- R82: a leaf that nothing measures begins a measurement of cause 5 for the operation. -/
theorem State.startCalib_leaf_idle (hidle : (s.leaf k).meas = none) :
    (s.startCalib h k).leaf k = { s.leaf k with meas := some { cause := 5, gen := (s.leaf k).generation, ops := [h] } } := by
  have hbough : ((s.onBough (k / 18) fun x => { x with clockStopped := false }).leaf k).meas = none := hidle
  rw [State.startCalib, State.onLeaf_leaf_same]
  simp only [hbough]
  rfl

theorem State.startCalib_leaf_other {j : Nat} (hj : j ≠ k) : (s.startCalib h k).leaf j = s.leaf j :=
  State.onLeaf_leaf_other _ _ hj

/-- R79: an operation has no patterns to discard on a leaf that nothing measures. -/
theorem State.leaveMeas_leaf_idle (hidle : (s.leaf k).meas = none) (j : Nat) : (s.leaveMeas h k).leaf j = s.leaf j := by
  unfold State.leaveMeas
  by_cases hj : j = k
  · subst hj
    rw [State.onLeaf_leaf_same, hidle]
  · exact State.onLeaf_leaf_other _ _ hj

theorem State.calibFinished_idle (hidle : (s.leaf k).meas = none) : s.calibFinished h k = false := by
  simp [State.calibFinished, hidle]

-- The turn of an operation of one leaf, which has no status yet.

theorem State.calibTurn_in_band (hop : s.op h = some o) (hbody : o.body = .calib c) (hsusp : o.suspended = false) (hleaves : c.leaves = [k])
    (hstatus : c.status = []) (hband : inBand c.sel s.bud.loadPct.toNat = true) (hrole : (s.leaf k).role = .active)
    (hidle : (s.leaf k).meas = none) (hreset : s.inReset (k / 72) = false) : s.calibTurn h = s.startCalib h k := by
  obtain ⟨gen, opcode, queue, sqIndex, userTag, irq, suspended, body⟩ := o
  subst hbody hsusp
  simp [State.calibTurn, hop, hleaves, CalibOp.waits, hstatus, smFind, hband, hrole, Leaf.calibs_idle hidle, hreset]

theorem State.calibTurn_late (hop : s.op h = some o) (hbody : o.body = .calib c) (hsusp : o.suspended = false) (hleaves : c.leaves = [k])
    (hstatus : c.status = []) (hband : inBand c.sel s.bud.loadPct.toNat = false) (hlate : c.timedOut = true)
    (hidle : (s.leaf k).meas = none) : s.calibTurn h = (s.leaveMeas h k).calibLeaf h k 3 := by
  obtain ⟨gen, opcode, queue, sqIndex, userTag, irq, suspended, body⟩ := o
  subst hbody hsusp
  simp [State.calibTurn, hop, hleaves, CalibOp.waits, hstatus, smFind, hband, hlate, State.calibFinished_idle hidle,
    State.leaveMeas_leaf_idle hidle, Leaf.calibs_idle hidle]

theorem State.onOp_op_same (hop : s.op h = some o) (f : LongOp → LongOp) : (s.onOp h f).op h = some (f o) := by
  rw [State.onOp, hop]
  exact smFind_set_same _ _ _

/-- R80: LOAD_NOT_REACHED of the only leaf ends the operation with its code. -/
theorem State.calibLeaf_last_late (hop : s.op h = some o) (hbody : o.body = .calib c) (hleaves : c.leaves = [k]) (hstatus : c.status = []) :
    s.calibLeaf h k 3 = (s.onOp h fun o => { o with body := .calib { c with status := [(k, 3)] } }).endOp h 3 := by
  obtain ⟨gen, opcode, queue, sqIndex, userTag, irq, suspended, body⟩ := o
  subst hbody
  simp [State.calibLeaf, hop, CalibOp.waits, CalibOp.code, hleaves, hstatus, smFind, smSet]

/-- R272: the slot is free, and the end keeps the handle, the code and the leaf's status. -/
theorem State.calibLeaf_last_late_done (hop : s.op h = some o) (hbody : o.body = .calib c) (hleaves : c.leaves = [k]) (hstatus : c.status = []) :
    smFind (s.calibLeaf h k 3).trunk.ops h = none ∧
      smFind (s.calibLeaf h k 3).trunk.opDone h = some { handle := o.handle h, code := 3, leaves := [(k, 3)] } := by
  rw [State.calibLeaf_last_late hop hbody hleaves hstatus, (State.endOp_calib_frame (State.onOp_op_same hop _) rfl 3).trunk]
  exact ⟨smFind_erase_same _ _, smFind_set_same _ _ _⟩

end

-- The two commands.

/-- R79: the operation that a CALIBRATE of leaves `ls` begins; the clamp of its timeout is the model's choice (log entry 54). -/
def TaskRec.calibOp (t : TaskRec) (ls : List Nat) : CalibOp := { leaves := ls, sel := le t.args 4 1, timeoutMs := clampN 1 1000 (le t.args 6 2) }

section
variable {q : Nat} {t : TaskRec} {s : State}

theorem exec_calibrate_accepted {ls : List Nat} (hserve : s.ServesHead q 3 2 [(0, 4), (4, 1), (6, 2)] t)
    (hscope : (parseUnit (le t.args 0 4)).bind s.scopeLeaves = some ls) (hsel : le t.args 4 1 ≤ 3) :
    exec (.calibrate q) s = .next (((s.popCommand q).acceptOp q t (s.queue q).sqHead (.calib (t.calibOp ls))).1.calibTurn
      ((s.popCommand q).acceptOp q t (s.queue q).sqHead (.calib (t.calibOp ls))).2) := by
  refine congrArg ok ((hserve.serve _).trans ?_)
  simp only [hscope]
  rw [if_neg (by omega)]
  rfl

theorem exec_calibrate_refused (hserve : s.ServesHead q 3 2 [(0, 4), (4, 1), (6, 2)] t)
    (hbad : (parseUnit (le t.args 0 4)).bind s.scopeLeaves = none ∨ 3 < le t.args 4 1) :
    exec (.calibrate q) s = .next (s.refuseCommand q t 1 0) := by
  refine congrArg ok ((hserve.serve _).trans ?_)
  cases hscope : (parseUnit (le t.args 0 4)).bind s.scopeLeaves with
  | none => rfl
  | some ls => exact if_pos (hbad.resolve_left (by simp [hscope]))

/-- R79, R80: acceptance writes the operation and its completion, and then the one leaf is measured. -/
theorem exec_calibrate_measures {h k : Nat} (hserve : s.ServesHead q 3 2 [(0, 4), (4, 1), (6, 2)] t)
    (hscope : (parseUnit (le t.args 0 4)).bind s.scopeLeaves = some [k]) (hsel : le t.args 4 1 ≤ 3) (hfree : s.freeSlot = some h)
    (hband : inBand (le t.args 4 1) s.bud.loadPct.toNat = true) (hrole : (s.leaf k).role = .active) (hidle : (s.leaf k).meas = none)
    (hreset : s.inReset (k / 72) = false) :
    ∃ u, exec (.calibrate q) s = .next u ∧ (u.leaf k).meas = some { cause := 5, gen := (s.leaf k).generation, ops := [h] } ∧
      (∀ k', k' ≠ k → u.leaf k' = s.leaf k') ∧
      ∃ o, smFind u.trunk.ops h = some o ∧ o.body = .calib (t.calibOp [k]) ∧ o.queue = q ∧ o.userTag = t.userTag := by
  obtain ⟨hslot, hframe⟩ := State.acceptOp_frame (s := s.popCommand q) hfree q t (s.queue q).sqHead (.calib (t.calibOp [k]))
  have hexec := exec_calibrate_accepted hserve hscope hsel
  generalize (s.popCommand q).acceptOp q t (s.queue q).sqHead (.calib (t.calibOp [k])) = r at hslot hframe hexec
  have hop : r.1.op h = some ((s.popCommand q).newOp h q t (s.queue q).sqHead (.calib (t.calibOp [k]))) :=
    (hframe.op h).trans (smFind_set_same _ _ _)
  have hleaf (j : Nat) : r.1.leaf j = s.leaf j := hframe.leaf j
  rw [hslot, State.calibTurn_in_band hop rfl rfl rfl rfl (by rw [hframe.bud]; exact hband) (by rw [hleaf]; exact hrole) (by rw [hleaf]; exact hidle)
    ((hframe.inReset _).trans hreset)] at hexec
  refine ⟨_, hexec, ?_, fun k' hk' => ?_, _, hop, rfl, rfl, rfl⟩
  · rw [State.startCalib_leaf_idle (by rw [hleaf]; exact hidle), hleaf]
  · rw [State.startCalib_leaf_other hk', hleaf]

end

section
variable {h k : Nat} {o : LongOp} {c : CalibOp} {s : State}

/-- Slot `h` holds operation `o` with the CALIBRATE `c` in its place. -/
def State.setCalib (s : State) (h : Nat) (o : LongOp) (c : CalibOp) : State :=
  { s with trunk := { s.trunk with ops := smSet s.trunk.ops h { o with body := .calib c } } }

theorem exec_calibrateLoadTimeout_served (hop : s.op h = some o) (hbody : o.body = .calib c) (hsusp : o.suspended = false) (hsel : c.sel ≠ 0)
    (hfw : s.trunk.fwRunning = true) : exec (.calibrateLoadTimeout h) s = .next ((s.setCalib h o { c with timedOut := true }).calibTurn h) := by
  obtain ⟨gen, opcode, queue, sqIndex, userTag, irq, suspended, body⟩ := o
  subst hbody hsusp
  change execCalibrateLoadTimeout h s = _
  simp [execCalibrateLoadTimeout, hop, hsel, hfw, State.onOp, State.setCalib, State.onTrunk]

/-- R79, R80: the load never came into the band. -/
theorem exec_calibrateLoadTimeout_unreached (hop : s.op h = some o) (hbody : o.body = .calib c) (hsusp : o.suspended = false) (hsel : c.sel ≠ 0)
    (hfw : s.trunk.fwRunning = true) (hleaves : c.leaves = [k]) (hstatus : c.status = []) (hband : inBand c.sel s.bud.loadPct.toNat = false)
    (hidle : (s.leaf k).meas = none) :
    ∃ u, exec (.calibrateLoadTimeout h) s = .next u ∧ smFind u.trunk.ops h = none ∧
      smFind u.trunk.opDone h = some { handle := o.handle h, code := 3, leaves := [(k, 3)] } ∧ ∀ k', u.leaf k' = s.leaf k' := by
  refine ⟨_, exec_calibrateLoadTimeout_served hop hbody hsusp hsel hfw, ?_⟩
  have hlate : (s.setCalib h o { c with timedOut := true }).op h = some { o with body := .calib { c with timedOut := true } } := smFind_set_same _ _ _
  have hleft : ((s.setCalib h o { c with timedOut := true }).leaveMeas h k).op h = some { o with body := .calib { c with timedOut := true } } := hlate
  rw [State.calibTurn_late hlate rfl hsusp hleaves hstatus hband rfl hidle]
  obtain ⟨herased, hended⟩ := State.calibLeaf_last_late_done hleft rfl hleaves hstatus
  refine ⟨herased, hended, fun j => ?_⟩
  rw [State.leaf, State.calibLeaf_leaves]
  exact State.leaveMeas_leaf_idle (s := s.setCalib h o { c with timedOut := true }) hidle j

end

/-- Settles O18: acceptance and the ended operation touch no leaf, so the one leaf in scope decides the turn. -/
theorem calibrateCommand : Obligations.CalibrateCommand := by
  unfold Obligations.CalibrateCommand
  refine ⟨fun q t s hserve => ⟨fun ls hscope hsel => ⟨exec_calibrate_accepted hserve hscope hsel, ?_⟩, exec_calibrate_refused hserve⟩,
    fun h o c s hop hbody hsusp hsel hfw => ⟨exec_calibrateLoadTimeout_served hop hbody hsusp hsel hfw, ?_⟩⟩
  · rintro h k hfree rfl hband hrole hidle hreset
    exact exec_calibrate_measures hserve hscope hsel hfree hband hrole hidle hreset
  · intro k hleaves hstatus hband hidle
    exact exec_calibrateLoadTimeout_unreached hop hbody hsusp hsel hfw hleaves hstatus hband hidle

end Sys2Proof.Machine
end

section
/-! SUPPORT. The program sequence: what a changed member and a step of one leaf leave, the step that PROG_STEP_DONE ends, the leaf that a freed spare becomes and the swaps of LEAF_SWAP (R91, R94, R97, R102, R107), and from these O20. -/

namespace Sys2Proof.Machine

section
variable {s : State} {pid k : Nat} {p : Prog}

theorem State.onProg_eq (hprog : s.prog pid = some p) (f : Prog → Prog) :
    s.onProg pid f = s.onTrunk fun t => { t with progs := smSet t.progs pid (f p) } := by
  rw [State.onProg, hprog]

theorem State.onProg_prog_same (hprog : s.prog pid = some p) (f : Prog → Prog) : (s.onProg pid f).prog pid = some (f p) := by
  rw [State.onProg_eq hprog]
  exact smFind_set_same _ _ _

theorem State.onProg_leaf (s : State) (pid : Nat) (f : Prog → Prog) (k : Nat) : (s.onProg pid f).leaf k = s.leaf k := by
  unfold State.onProg
  split <;> rfl

theorem State.setStep_leaf_same (s : State) (pid k n : Nat) :
    (s.setStep pid k n).leaf k = { s.leaf k with progStep := BitVec.ofNat 4 n } := by
  rw [State.setStep, State.onLeaf_leaf_same, State.onProg_leaf]

/-- From `s` to `t` only leaf `k` and the members of the program sequence change. -/
structure MemberFrame (k : Nat) (s t : State) : Prop where
  other : ∀ j, j ≠ k → t.leaf j = s.leaf j
  rest : t = { s with trunk := { s.trunk with progs := t.trunk.progs }, leaves := t.leaves }

namespace MemberFrame
variable {t : State}

theorem refl (k : Nat) (s : State) : MemberFrame k s s := ⟨fun _ _ => rfl, rfl⟩

theorem onLeaf (h : MemberFrame k s t) (f : Leaf → Leaf) : MemberFrame k s (t.onLeaf k f) :=
  ⟨fun j hj => (t.onLeaf_leaf_other f hj).trans (h.other j hj), by rw [h.rest]; rfl⟩

theorem onProg (h : MemberFrame k s t) (pid : Nat) (f : Prog → Prog) : MemberFrame k s (t.onProg pid f) := by
  refine ⟨fun j hj => (t.onProg_leaf pid f j).trans (h.other j hj), ?_⟩
  unfold State.onProg
  split
  · rw [h.rest]; rfl
  · exact h.rest

theorem setStep (h : MemberFrame k s t) (pid n : Nat) : MemberFrame k s (t.setStep pid k n) := (h.onProg _ _).onLeaf _

end MemberFrame

-- The steps of Table 4-3.

/-- R91, R107: member `pid`, in the state `p`, can end its present step: nothing holds it, its image can be read where the step reads it, and in steps 1 to 5 the charge pump serves it. -/
structure State.EndsStep (s : State) (pid : Nat) (p : Prog) : Prop where
  prog : s.prog pid = some p
  held : s.memberHeld p = false
  reset : s.inReset (standOf p.bough) = false
  readable : p.step = 1 ∨ p.step = 4 → s.shut (hbmStand p.imageAddr) = false
  pump : p.step ≤ 5 → s.pumpHead p.bough = some pid

theorem State.EndsStep.not_stopped (h : s.EndsStep pid p) :
    ¬(s.memberHeld p ∨ s.inReset (standOf p.bough) ∨ ((p.step = 1 ∨ p.step = 4) ∧ s.shut (hbmStand p.imageAddr))) := by
  simpa [h.held, h.reset] using h.readable

theorem State.EndsStep.not_queued (h : s.EndsStep pid p) : ¬(p.step ≤ 5 ∧ s.pumpHead p.bough ≠ some pid) :=
  fun hwait => hwait.2 (h.pump hwait.1)

/-- Step 2: the marker is set before anything is erased (R94). -/
def State.markStep (s : State) (pid k : Nat) : State := (s.onLeaf k fun l => { l with marker := true }).setStep pid k 3

/-- Step 3 begins: the cells are erased and the member's counts start anew. -/
def State.eraseCells (s : State) (pid k : Nat) : State :=
  (s.onLeaf k fun l => { l with cells := [] }).onProg pid fun p =>
    { p with row := 0, pass := 0, read := [], failed := [], newSpares := [], iterSum := 0, iterMax := 0, newFence := 0 }

/-- Step 3 ends where no column waits for a spare. -/
def State.eraseStep (s : State) (pid k : Nat) : State :=
  (((s.eraseCells pid k).onProg pid fun p => { p with failed := [], newSpares := [] }).setStep pid k 4).onLeaf k fun l => { l with progRow := 0 }

/-- Step 8: the marker is cleared and the member waits for its group (R94, R100). -/
def State.unmarkStep (s : State) (pid k : Nat) : State := (s.onLeaf k fun l => { l with marker := false }).stageMember pid

section
variable {o : ProgObs} (h : s.EndsStep pid p)
include h

theorem State.progStep_accept (hstep : p.step = 1) : s.progStep pid o = s.acceptStep pid := by
  simp only [State.progStep, h.prog, if_neg h.not_stopped, if_neg h.not_queued]
  simp only [hstep]

theorem State.progStep_mark (hstep : p.step = 2) (hleaf : p.leaf = some k) : s.progStep pid o = s.markStep pid k := by
  simp only [State.progStep, h.prog, if_neg h.not_stopped, if_neg h.not_queued]
  simp only [hstep, hleaf, State.markStep]

theorem State.progStep_erase (hstep : p.step = 3) (hleaf : p.leaf = some k) (hpending : (s.leaf k).record.pendingRemap = []) :
    s.progStep pid o = s.eraseStep pid k := by
  simp only [State.progStep, h.prog, if_neg h.not_stopped, if_neg h.not_queued]
  simp only [hstep, hleaf, hpending, List.filter_nil, State.takeSpares,
    if_true, List.foldl_nil, State.eraseStep, State.eraseCells]

theorem State.progStep_row (hstep : p.step = 4) (hleaf : p.leaf = some k) : s.progStep pid o = s.rowStep pid k p o := by
  simp only [State.progStep, h.prog, if_neg h.not_stopped, if_neg h.not_queued]
  simp only [hstep, hleaf]

theorem State.progStep_repair (hstep : p.step = 5) (hleaf : p.leaf = some k) : s.progStep pid o = s.repairStep pid k p o := by
  simp only [State.progStep, h.prog, if_neg h.not_stopped, if_neg h.not_queued]
  simp only [hstep, hleaf]

theorem State.progStep_calibrate (hstep : p.step = 6) (hleaf : p.leaf = some k) : s.progStep pid o = s.calibrateStep pid k p o := by
  simp only [State.progStep, h.prog, if_neg h.not_stopped, if_neg h.not_queued]
  simp only [hstep, hleaf]

theorem State.progStep_unmark (hstep : p.step = 8) (hleaf : p.leaf = some k) : s.progStep pid o = s.unmarkStep pid k := by
  simp only [State.progStep, h.prog, if_neg h.not_stopped, if_neg h.not_queued]
  simp only [hstep, hleaf, State.unmarkStep]

end

theorem State.markStep_frame (s : State) (pid k : Nat) : MemberFrame k s (s.markStep pid k) := ((MemberFrame.refl k s).onLeaf _).setStep pid 3

theorem State.markStep_leaf (s : State) (pid k : Nat) : (s.markStep pid k).leaf k = { s.leaf k with marker := true, progStep := 3 } := by
  rw [State.markStep, State.setStep_leaf_same, State.onLeaf_leaf_same]
  rfl

theorem State.markStep_prog (hprog : s.prog pid = some p) : (s.markStep pid k).prog pid = some { p with step := 3 } :=
  State.onProg_prog_same (s := s.onLeaf k fun l => { l with marker := true }) hprog _

theorem State.eraseStep_frame (s : State) (pid k : Nat) : MemberFrame k s (s.eraseStep pid k) :=
  (((((MemberFrame.refl k s).onLeaf _).onProg _ _).onProg _ _).setStep pid 4).onLeaf _

theorem State.eraseStep_leaf (s : State) (pid k : Nat) :
    (s.eraseStep pid k).leaf k = { s.leaf k with cells := [], progStep := 4, progRow := 0 } := by
  rw [State.eraseStep, State.onLeaf_leaf_same, State.setStep_leaf_same, State.onProg_leaf, State.eraseCells, State.onProg_leaf, State.onLeaf_leaf_same]
  rfl

-- Step 1 with a spare leaf.

/-- R91, R97: the member as it takes spare leaf `k`, with the width of its image. -/
def State.memberOn (s : State) (p : Prog) (k : Nat) : Prog := { p with leaf := some k, step := 2, width := BitVec.ofNat 2 (s.hbmNat (p.imageAddr + 6) 1) }

/-- R91: the spare leaf as an accepted image takes it. -/
def Leaf.takenBy (l : Leaf) (p : Prog) (g : Group) : Leaf :=
  { (l.setRole .programming).beginAttempt with
      cal := [{}, {}, {}], remapTaken := [], progStep := 2, progRow := 0, progPass := 0, releaseKnot := g.knotMode,
      progGroup := BitVec.ofNat 16 g.gid, progKnot := BitVec.ofNat 16 (if g.knotMode then g.knot else 0), targetDigest := p.expected, draining := false }

theorem State.acceptStep_accepted (hprog : s.prog pid = some p) (hspare : s.spareFor p.bough = some k)
    (himage : s.leafImageCode p.imageAddr p.expected = 0) :
    s.acceptStep pid = (s.onProg pid fun p => s.memberOn p k).onLeaf k fun l => l.takenBy p ((s.group p.group).getD {}) := by
  simp only [State.acceptStep, hprog, hspare, himage, ne_eq, not_true_eq_false, if_false, State.onProg_eq hprog]
  rfl

end

-- The three commands.

section
variable {s : State}

theorem exec_progStepDone_awake {pid : Nat} {o : ProgObs} (hfw : s.trunk.fwRunning = true) (hawake : s.awake = true) :
    exec (.progStepDone pid o) s = .next (s.progStep pid o) :=
  congrArg ok (if_pos ⟨hfw, hawake⟩)

section
variable {b pid : Nat} {p : Prog} (hfw : s.trunk.fwRunning = true) (hawake : s.awake = true) (hreset : s.inReset (standOf b) = false)
  (hpump : s.pumpHead b = some pid) (hprog : s.prog pid = some p) (hstep : p.step = 1)
include hfw hawake hreset hpump hprog hstep

theorem exec_spareLeafFreed_first : exec (.spareLeafFreed b) s = .next (s.acceptStep pid) := by
  change execSpareLeafFreed b s = _
  simp only [execSpareLeafFreed, hpump, hprog]
  rw [if_pos (by simp [hfw, hawake, hreset, hstep])]

/-- R91, R97, R107: the freed spare is taken for the head operation's image. -/
theorem exec_spareLeafFreed_takes {k : Nat} (hbough : p.bough = b) (hspare : s.spareFor b = some k)
    (himage : s.leafImageCode p.imageAddr p.expected = 0) :
    ∃ t, exec (.spareLeafFreed b) s = .next t ∧ t.leaf k = (s.leaf k).takenBy p ((s.group p.group).getD {}) ∧
      t.prog pid = some (s.memberOn p k) ∧ ∀ j, j ≠ k → t.leaf j = s.leaf j := by
  refine ⟨_, exec_spareLeafFreed_first hfw hawake hreset hpump hprog hstep, ?_⟩
  rw [State.acceptStep_accepted hprog (hbough ▸ hspare) himage]
  refine ⟨?_, State.onProg_prog_same hprog _, (((MemberFrame.refl k s).onProg _ _).onLeaf _).other⟩
  rw [State.onLeaf_leaf_same, State.onProg_leaf]

end

section
variable {b : Nat} (henabled : s.enabled b = true) (hawake : s.awake = true) (hreset : s.inReset (standOf b) = false)
include henabled hawake hreset

theorem exec_leafSwap_idle (htask : (s.bough b).task = none) : exec (.leafSwap b) s = .next (s.applySwaps b) := by
  change execLeafSwap b s = _
  simp only [execLeafSwap, htask]
  rw [if_pos (by simp [henabled, hawake, hreset])]

/-- R102: the task's next operation is LBND. -/
theorem exec_leafSwap_boundary {x : Task} {c : Canopy} {w : DWord} (htask : (s.bough b).task = some x) (hcanopy : s.canopyOf b = some c)
    (hword : (nth ({} : Program) c.programs x.trec.program).ops[(s.bough b).ck.pc]? = some w) (hlbnd : (opWord w).opcode = 0x0F) :
    exec (.leafSwap b) s = .next (s.applySwaps b) := by
  change execLeafSwap b s = _
  simp only [execLeafSwap, htask, hcanopy, hword]
  rw [if_pos (by simp [henabled, hawake, hreset, hlbnd])]

end

end

/-- Settles O20: each step of Table 4-3 is one equation of the program sequence, and steps 2 and 3 change only their member and its leaf. -/
theorem programSteps : Obligations.ProgramSteps := by
  unfold Obligations.ProgramSteps
  refine ⟨fun pid o p s hfw hawake hprog hheld hreset => ?_, fun b pid p s hfw hawake hreset hpump hprog hstep hbough => ?_, fun b s henabled hawake hreset => ?_⟩
  · have hexec := exec_progStepDone_awake (pid := pid) (o := o) hfw hawake
    refine ⟨fun hpump => ⟨fun hstep hshut => ?_, fun k hleaf hstep => ?_, fun k hleaf hstep hpending => ?_, fun k hleaf hstep hshut => ?_, fun k hleaf hstep => ?_⟩,
      fun k hleaf hstep => ?_, fun k hleaf hstep => ?_⟩
    · rw [hexec, State.progStep_accept ⟨hprog, hheld, hreset, fun _ => hshut, fun _ => hpump⟩ hstep]
    · rw [hexec, State.progStep_mark ⟨hprog, hheld, hreset, by omega, fun _ => hpump⟩ hstep hleaf]
      have hframe := s.markStep_frame pid k
      refine ⟨_, rfl, ?_, ?_, ?_, State.markStep_prog hprog, hframe.other, hframe.rest⟩ <;> rw [State.markStep_leaf]
    · rw [hexec, State.progStep_erase ⟨hprog, hheld, hreset, by omega, fun _ => hpump⟩ hstep hleaf hpending]
      have hframe := s.eraseStep_frame pid k
      refine ⟨_, rfl, ?_, ?_, ?_, hframe.other, hframe.rest⟩ <;> rw [State.eraseStep_leaf]
    · rw [hexec, State.progStep_row ⟨hprog, hheld, hreset, fun _ => hshut, fun _ => hpump⟩ hstep hleaf]
    · rw [hexec, State.progStep_repair ⟨hprog, hheld, hreset, by omega, fun _ => hpump⟩ hstep hleaf]
    · rw [hexec, State.progStep_calibrate ⟨hprog, hheld, hreset, by omega, by omega⟩ hstep hleaf]
    · rw [hexec, State.progStep_unmark ⟨hprog, hheld, hreset, by omega, by omega⟩ hstep hleaf]
      rfl
  · refine ⟨exec_spareLeafFreed_first hfw hawake hreset hpump hprog hstep, fun k hspare himage => ?_⟩
    obtain ⟨t, hexec, hleaf, hmember, hother⟩ := exec_spareLeafFreed_takes hfw hawake hreset hpump hprog hstep hbough hspare himage
    refine ⟨t, hexec, ?_, ?_, ?_, ?_, hmember, hother⟩ <;> rw [hleaf] <;> rfl
  · exact ⟨exec_leafSwap_idle henabled hawake hreset, fun _ _ _ => exec_leafSwap_boundary henabled hawake hreset⟩

end Sys2Proof.Machine
end

section
/-! SUPPORT. PROGRAM_LEAF: the open group that an identifier names and the conflicts with it, the command by its target, and what a member that joins its group and its bough's order leaves (R99, R106, R272), and from these O19. -/

namespace Sys2Proof.Machine

/-- R99: the open group that `gid` names, with its key; 0 names none. -/
def State.openGroup (s : State) (gid : Nat) : Option (Nat × Group) :=
  if gid = 0 then none else s.trunk.groups.find? fun (p : Nat × Group) => p.2.gid == gid && !p.2.released

/-- Member `m` programs a leaf of another bough than `b`. -/
def State.memberElsewhere (s : State) (b m : Nat) : Bool := match s.prog m with | some p => p.bough != b | none => false

/-- R99, R106: command `t` on bough `b` conflicts with group `g`: another release, another knot, a full group, or a member of another bough without a knot. -/
def State.groupConflict (s : State) (t : TaskRec) (b : Nat) (g : Group) : Bool :=
  g.knotMode != (le t.args 5 1 == 1) || ((le t.args 5 1 == 1) && g.knot != le t.args 6 2) || decide (g.size ≤ g.members.length)
    || (!(le t.args 5 1 == 1) && g.members.any fun m => s.memberElsewhere b m)

/-- R106: command `t` on bough `b` conflicts with the open group that its identifier names. -/
def State.conflicts (s : State) (t : TaskRec) (b : Nat) : Bool :=
  match s.openGroup (le t.args 8 2) with
  | some (_, g) => s.groupConflict t b g
  | none => false

/-- R99: the group that command `t` opens; one without an identifier takes one member. -/
def TaskRec.newGroup (t : TaskRec) : Group :=
  { gid := le t.args 8 2, size := if le t.args 8 2 = 0 then 1 else le t.args 10 2, knotMode := le t.args 5 1 == 1,
    knot := if le t.args 5 1 == 1 then le t.args 6 2 else 0 }

/-- R99: a group is opened under the next key. -/
def State.addGroup (s : State) (g : Group) : State :=
  s.onTrunk fun x => { x with groups := smSet x.groups s.trunk.nextGroup g, nextGroup := s.trunk.nextGroup + 1 }

/-- R99: the group of command `t`, with its key: the open one of its identifier, else a new one. -/
def State.groupFor (s : State) (t : TaskRec) : State × Nat :=
  match s.openGroup (le t.args 8 2) with
  | some (k, _) => (s, k)
  | none => (s.addGroup t.newGroup, s.trunk.nextGroup)

/-- R106: the image address of command `t`; one outside HBM stands for BAD_IMAGE (log entry 79). -/
def TaskRec.imageAddr (t : TaskRec) : Nat := match decodeAddr (le t.args 16 8) with | .hbm x => x | _ => hbmSize

/-- R106: the member that command `t` begins on bough `b` in the group with key `k`, behind load `w` where there is one. -/
def TaskRec.member (t : TaskRec) (b k : Nat) (w : Option Nat) : Prog :=
  { bough := b, slot := le t.args 4 1, group := k, imageAddr := t.imageAddr, expected := sub t.args 24 32, waitsFor := w }

/-- R99, R107: member `p` joins its group and the end of its bough's order. -/
def State.join (s : State) (p : Prog) : State :=
  ((s.newProg p).1.onGroup p.group fun g => { g with members := g.members ++ [s.trunk.nextProg] }).onBough p.bough fun x =>
    { x with progQueue := x.progQueue ++ [s.trunk.nextProg] }

/-- R272: member `p` joins, and its operation is accepted from the head of command queue `q`, record `i`. -/
def State.acceptMember (s : State) (q : Nat) (t : TaskRec) (i : Word) (p : Prog) : State :=
  let r := ((s.join p).popCommand q).acceptOp q t i (.program s.trunk.nextProg)
  r.1.onProg s.trunk.nextProg fun p => { p with op := some r.2 }

/-- R99, R106, R272: from `s` to `u` member `p` has joined group `g` and its bough's order, its operation for command `t` of queue `q` stands in slot `h`, and leaves, store and test port are left alone. -/
structure State.Joined (s u : State) (q h : Nat) (t : TaskRec) (p : Prog) (g : Group) : Prop where
  order : (u.bough p.bough).progQueue = (s.bough p.bough).progQueue ++ [s.trunk.nextProg]
  next : u.trunk.nextProg = s.trunk.nextProg + 1
  group : u.group p.group = some { g with members := g.members ++ [s.trunk.nextProg] }
  member : u.prog s.trunk.nextProg = some { p with op := some h }
  op : ∃ o, u.op h = some o ∧ o.body = .program s.trunk.nextProg ∧ o.queue = q ∧ o.userTag = t.userTag
  leaves : u.leaves = s.leaves
  store : u.store = s.store
  tap : u.tap = s.tap

-- Conflicts.

section
variable {s : State} {t : TaskRec} {b : Nat}

theorem State.memberElsewhere_iff {m : Nat} : s.memberElsewhere b m = true ↔ ∃ p, s.prog m = some p ∧ p.bough ≠ b := by
  unfold State.memberElsewhere
  cases s.prog m <;> simp

theorem State.groupConflict_iff {g : Group} : s.groupConflict t b g = true ↔
    g.knotMode ≠ decide (le t.args 5 1 = 1) ∨ (le t.args 5 1 = 1 ∧ g.knot ≠ le t.args 6 2) ∨ g.size ≤ g.members.length ∨
      (le t.args 5 1 ≠ 1 ∧ ∃ m ∈ g.members, ∃ p, s.prog m = some p ∧ p.bough ≠ b) := by
  simp only [← State.memberElsewhere_iff]
  simp [State.groupConflict, or_assoc, beq_eq_decide]

theorem State.conflicts_none (hopen : s.openGroup (le t.args 8 2) = none) : s.conflicts t b = false := by
  rw [State.conflicts, hopen]

theorem State.conflicts_some {k : Nat} {g : Group} (hopen : s.openGroup (le t.args 8 2) = some (k, g)) : s.conflicts t b = s.groupConflict t b g := by
  rw [State.conflicts, hopen]

theorem State.conflicts_iff : s.conflicts t b = true ↔ ∃ k g, s.openGroup (le t.args 8 2) = some (k, g) ∧ s.groupConflict t b g = true := by
  cases hopen : s.openGroup (le t.args 8 2) with
  | none => simp [State.conflicts_none hopen]
  | some x => simp [State.conflicts_some (k := x.1) hopen, Prod.ext_iff]

theorem TaskRec.newGroup_eq (t : TaskRec) : t.newGroup =
    { gid := le t.args 8 2, size := if le t.args 8 2 = 0 then 1 else le t.args 10 2, knotMode := decide (le t.args 5 1 = 1),
      knot := if le t.args 5 1 = 1 then le t.args 6 2 else 0 } := by
  simp [TaskRec.newGroup, beq_eq_decide]

theorem State.addGroup_group (s : State) (g : Group) : (s.addGroup g).group s.trunk.nextGroup = some g := smFind_set_same _ _ _

theorem State.groupFor_none (hopen : s.openGroup (le t.args 8 2) = none) : s.groupFor t = (s.addGroup t.newGroup, s.trunk.nextGroup) := by
  rw [State.groupFor, hopen]

theorem State.groupFor_some {k : Nat} {g : Group} (hopen : s.openGroup (le t.args 8 2) = some (k, g)) : s.groupFor t = (s, k) := by
  rw [State.groupFor, hopen]

end

/-- The group of a command changes the groups alone. -/
theorem State.groupFor_same (s : State) (t : TaskRec) : ∃ gs n, (s.groupFor t).1 = s.onTrunk fun x => { x with groups := gs, nextGroup := n } := by
  unfold State.groupFor
  split <;> exact ⟨_, _, rfl⟩

-- A member that joins.

theorem CompletionFrame.onTrunk {s t : State} (h : CompletionFrame s t) (f : Trunk → Trunk) : CompletionFrame (s.onTrunk f) (t.onTrunk f) :=
  ⟨h.inReset, by rw [State.onTrunk, h.rest]; rfl⟩

theorem CompletionFrame.boughs {s t : State} (h : CompletionFrame s t) : t.boughs = s.boughs := by rw [h.rest]

theorem CompletionFrame.popCommand {s t : State} (h : CompletionFrame s t) (q : Nat) : CompletionFrame s (t.popCommand q) := (h.onQueue _ _).onQue _

section
variable {s : State} {g : Group} {p : Prog} (hgroup : s.group p.group = some g)
include hgroup

/-- The joined member stands in the trunk's tables and in its bough's order. -/
theorem State.join_eq :
    s.join p = (s.onTrunk fun x => { x with
        progs := smSet x.progs x.nextProg p, nextProg := x.nextProg + 1,
        groups := smSet x.groups p.group { g with members := g.members ++ [x.nextProg] } }).onBough p.bough fun x =>
      { x with progQueue := x.progQueue ++ [s.trunk.nextProg] } := by
  have hjoined : (s.newProg p).1.group p.group = some g := hgroup
  rw [State.join, State.onGroup, hjoined]
  rfl

theorem State.join_bough : ((s.join p).bough p.bough).progQueue = (s.bough p.bough).progQueue ++ [s.trunk.nextProg] := by
  rw [State.join_eq hgroup, State.bough, State.onBough_boughs, smGet_upd_same]
  rfl

theorem State.join_group : (s.join p).group p.group = some { g with members := g.members ++ [s.trunk.nextProg] } := by
  rw [State.join_eq hgroup]
  exact smFind_set_same _ _ _

theorem State.join_prog : (s.join p).prog s.trunk.nextProg = some p := by
  rw [State.join_eq hgroup]
  exact smFind_set_same _ _ _

/-- R272: the member has its operation in the lowest free slot; beside the command's completion nothing else of the device changes. -/
theorem State.acceptMember_frame {h : Nat} (hfree : s.freeSlot = some h) (q : Nat) (t : TaskRec) (i : Word) :
    CompletionFrame (((s.join p).onTrunk fun x => { x with
          ops := smSet x.ops h ((s.join p).newOp h q t i (.program s.trunk.nextProg)), opGen := smSet x.opGen h (smGet 0 (s.join p).trunk.opGen h + 1) }).onTrunk
        fun x => { x with progs := smSet x.progs s.trunk.nextProg { p with op := some h } })
      (s.acceptMember q t i p) := by
  have hslot : ((s.join p).popCommand q).freeSlot = some h := by rw [State.join_eq hgroup]; exact hfree
  obtain ⟨hsame, haccept⟩ := State.acceptOp_frame hslot q t i (.program s.trunk.nextProg)
  have hmember : (((s.join p).popCommand q).acceptOp q t i (.program s.trunk.nextProg)).1.prog s.trunk.nextProg = some p := by
    rw [State.prog, haccept.trunk]
    exact State.join_prog hgroup
  simp only [State.acceptMember, hsame, State.onProg_eq hmember]
  exact ((((CompletionFrame.refl (s.join p)).popCommand q).onTrunk _).trans haccept).onTrunk fun x =>
    { x with progs := smSet x.progs s.trunk.nextProg { p with op := some h } }

theorem State.acceptMember_joined {h : Nat} (hfree : s.freeSlot = some h) (q : Nat) (t : TaskRec) (i : Word) :
    s.Joined (s.acceptMember q t i p) q h t p g := by
  have hframe := State.acceptMember_frame hgroup hfree q t i
  generalize s.acceptMember q t i p = u at hframe
  have hjoin := State.join_eq hgroup
  have hboughs : u.boughs = (s.join p).boughs := hframe.boughs
  refine ⟨?_, ?_, ?_, ?_, ⟨(s.join p).newOp h q t i (.program s.trunk.nextProg), ?_, rfl, rfl, rfl⟩, ?_, ?_, ?_⟩
  · rw [State.bough, hboughs]
    exact State.join_bough hgroup
  · rw [hframe.trunk, State.onTrunk_trunk, State.onTrunk_trunk, hjoin]
    rfl
  · rw [State.group, hframe.trunk]
    exact State.join_group hgroup
  · rw [State.prog, hframe.trunk]
    exact smFind_set_same _ _ _
  · rw [hframe.op]
    exact smFind_set_same _ _ _
  all_goals rw [hframe.rest, hjoin]; rfl

end

-- The command.

section
variable {s : State} {q : Nat} {t : TaskRec} (hserve : s.ServesHead q 1 2 [(0, 4), (4, 1), (5, 1), (6, 2), (8, 2), (10, 2), (16, 8), (24, 32)] t)
include hserve

/-- R106: the target is no bough. -/
theorem exec_programLeaf_no_bough (hunit : ∀ st bo l, parseUnit (le t.args 0 4) ≠ some (2, st, bo, l)) :
    exec (.programLeaf q) s = .next (s.refuseCommand q t 1 0) := by
  refine congrArg ok ((hserve.serve _).trans ?_)
  dsimp only
  split
  · exact absurd ‹_› (hunit _ _ _)
  · rfl

/-- R99, R106: the command on a bough. The size is checked for group identifier 0 too, which is the model's choice: log entry 76 has it ignored there. -/
theorem exec_programLeaf_bough {st bo l : Nat} (hunit : parseUnit (le t.args 0 4) = some (2, st, bo, l)) :
    exec (.programLeaf q) s = .next (
      if !s.usable (4 * st + bo) ∨ 15 < le t.args 4 1 ∨ 1 < le t.args 5 1 ∨ le t.args 10 2 = 0 ∨ 288 < le t.args 10 2 ∨ s.conflicts t (4 * st + bo)
      then s.refuseCommand q t 1 0
      else (s.groupFor t).1.acceptMember q t (s.queue q).sqHead (t.member (4 * st + bo) (s.groupFor t).2 (s.loadOn (4 * st + bo)))) := by
  refine congrArg ok ((hserve.serve _).trans ?_)
  simp only [hunit]
  rfl

/-- R106: a bough that cannot be programmed so. -/
theorem exec_programLeaf_refused {st bo l : Nat} (hunit : parseUnit (le t.args 0 4) = some (2, st, bo, l))
    (hbad : s.usable (4 * st + bo) = false ∨ 15 < le t.args 4 1 ∨ 1 < le t.args 5 1 ∨ le t.args 10 2 = 0 ∨ 288 < le t.args 10 2 ∨
      s.conflicts t (4 * st + bo) = true) :
    exec (.programLeaf q) s = .next (s.refuseCommand q t 1 0) := by
  rw [exec_programLeaf_bough hserve hunit, if_pos]
  simpa using hbad

section
variable {st bo l : Nat} (hunit : parseUnit (le t.args 0 4) = some (2, st, bo, l)) (husable : s.usable (4 * st + bo) = true)
  (hslot : le t.args 4 1 ≤ 15) (hmode : le t.args 5 1 ≤ 1) (hpos : 0 < le t.args 10 2) (hsize : le t.args 10 2 ≤ 288)
  (hfine : s.conflicts t (4 * st + bo) = false)
include hunit husable hslot hmode hpos hsize hfine

theorem exec_programLeaf_accepted :
    exec (.programLeaf q) s = .next ((s.groupFor t).1.acceptMember q t (s.queue q).sqHead
      (t.member (4 * st + bo) (s.groupFor t).2 (s.loadOn (4 * st + bo)))) := by
  rw [exec_programLeaf_bough hserve hunit, if_neg]
  simp only [husable, hfine, Bool.not_true, Bool.false_eq_true, false_or, or_false]
  omega

/-- R99, R106, R272: the effect on the device, by the group that the command finds or opens. -/
theorem exec_programLeaf_joins {h k : Nat} {old : Group} (hkey : (s.groupFor t).2 = k)
    (hgroup : (s.groupFor t).1.group k = some old) (hfree : s.freeSlot = some h) :
    ∃ u, exec (.programLeaf q) s = .next u ∧ s.Joined u q h t (t.member (4 * st + bo) k (s.loadOn (4 * st + bo))) old := by
  have hexec := exec_programLeaf_accepted hserve hunit husable hslot hmode hpos hsize hfine
  obtain ⟨gs, n, hsame⟩ := s.groupFor_same t
  rw [hkey, hsame] at hexec
  rw [hsame] at hgroup
  obtain ⟨horder, hnext, hjoined, hmember, hop, hleaves, hstore, htap⟩ :=
    State.acceptMember_joined (p := t.member (4 * st + bo) k (s.loadOn (4 * st + bo))) hgroup hfree q t (s.queue q).sqHead
  exact ⟨_, hexec, horder, hnext, hjoined, hmember, hop, hleaves, hstore, htap⟩

end

end

/-- Settles O19: the open group and a new one are served alike, by the state in which the member's group stands. -/
theorem programLeafCommand : Obligations.ProgramLeafCommand := by
  unfold Obligations.ProgramLeafCommand
  intro q t s hserve
  refine ⟨fun hnone => exec_programLeaf_no_bough hserve (by simp [hnone]), fun d st bo l hunit hbad => ?_,
    fun st bo l h hunit husable hslot hmode hpos hsize hfree k old hgroup => ?_⟩
  · by_cases hdepth : d = 2
    · subst hdepth
      simp only [← State.groupConflict_iff] at hbad
      refine exec_programLeaf_refused hserve hunit ?_
      rw [State.conflicts_iff]
      exact hbad.resolve_left (not_not_intro rfl)
    · exact exec_programLeaf_no_bough hserve (by simp [hunit, hdepth])
  · simp only [← State.groupConflict_iff] at hgroup
    obtain ⟨hfine, hkey, hfound⟩ : s.conflicts t (4 * st + bo) = false ∧ (s.groupFor t).2 = k ∧ (s.groupFor t).1.group k = some old := by
      rcases hgroup with ⟨hopen, rfl, rfl⟩ | ⟨hopen, hfound, hfine⟩
      · rw [State.conflicts_none hopen, State.groupFor_none hopen, ← TaskRec.newGroup_eq]
        exact ⟨rfl, rfl, State.addGroup_group _ _⟩
      · rw [State.conflicts_some hopen, State.groupFor_some hopen]
        exact ⟨Bool.eq_false_of_not_eq_true hfine, rfl, hfound⟩
    obtain ⟨u, hexec, hu⟩ := exec_programLeaf_joins hserve hunit husable hslot hmode hpos hsize hfine hkey hfound hfree
    exact ⟨u, hexec, hu.order, hu.next, hu.group, ⟨_, hu.member, rfl, rfl, rfl, rfl, rfl, rfl, rfl⟩, hu.op, hu.leaves, hu.store, hu.tap⟩

end Sys2Proof.Machine
end

section
/-! SUPPORT. Integer number formats: rounding half to even of an integer and of a quotient by a power of two (R129), the value of a finite number through the element functions (Table 7-14), and its storage in an integer format (Table 5-7); from these O26 and O27. -/

namespace Sys2Proof.Machine

-- Rounding half to even.

@[simp] theorem rhe_intCast (i : Int) : rhe (i : Rat) = i := by
  have hfloor : (i : Rat).floor = i := Int.floor_intCast (R := Rat) i
  simp [rhe, hfloor]

@[simp] theorem rhe_zero : rhe 0 = 0 := rhe_intCast 0

/-- R129 with the remainder doubled, so that no place is taken off the shift. -/
theorem rshr_eq (p : Int) (t : Nat) :
    rshr p t = if 2 ^ t < 2 * (p % 2 ^ t) ∨ (2 * (p % 2 ^ t) = 2 ^ t ∧ p / 2 ^ t % 2 = 1) then p / 2 ^ t + 1 else p / 2 ^ t := by
  have hpos : (0 : Rat) < 2 ^ t := by positivity
  have hfloor : ((p : Rat) / ((2 ^ t : Nat) : Rat)).floor = p / 2 ^ t := by
    exact_mod_cast Rat.floor_intCast_div_natCast p (2 ^ t)
  have hfrac : (p : Rat) / ((2 ^ t : Nat) : Rat) - ((p / 2 ^ t : Int) : Rat) = ((p % 2 ^ t : Int) : Rat) / 2 ^ t := by
    have hp : ((p % 2 ^ t : Int) : Rat) = p - 2 ^ t * ((p / 2 ^ t : Int) : Rat) := by
      rw [Int.emod_def]; push_cast; rfl
    rw [hp]; push_cast; field_simp
  have hbelow : ((p % 2 ^ t : Int) : Rat) / 2 ^ t < 1 / 2 ↔ 2 * (p % 2 ^ t) < 2 ^ t := by
    rw [div_lt_div_iff₀ hpos two_pos, one_mul, mul_comm]; exact_mod_cast Iff.rfl
  have habove : 1 / 2 < ((p % 2 ^ t : Int) : Rat) / 2 ^ t ↔ 2 ^ t < 2 * (p % 2 ^ t) := by
    rw [div_lt_div_iff₀ two_pos hpos, one_mul, mul_comm]; exact_mod_cast Iff.rfl
  simp only [rshr, rhe, hfloor, hfrac, hbelow, habove]
  split_ifs <;> omega

/-- The rounded shift is a nearest integer to the quotient, and the even one of two. -/
theorem rshr_nearest (p : Int) (k : Nat) :
    2 * (2 ^ k * rshr p k - p).natAbs ≤ 2 ^ k ∧ (2 * (2 ^ k * rshr p k - p).natAbs = 2 ^ k → rshr p k % 2 = 0) := by
  have hcast : ((2 ^ k : Nat) : Int) = 2 ^ k := by push_cast; rfl
  have hpos : (0 : Int) < 2 ^ k := by positivity
  have hdiv := Int.mul_ediv_add_emod p (2 ^ k)
  have hlow := Int.emod_nonneg p hpos.ne'
  have hhigh := Int.emod_lt_of_pos p hpos
  rw [rshr_eq]
  split_ifs with hup
  · rw [mul_add, mul_one]; omega
  · omega

/-- R129: more places than a 64-bit value has leave less than half. -/
theorem rshr_eq_zero {p : Int} {t : Nat} (ht : 64 ≤ t) (hp : p.natAbs < 2 ^ 63) : rshr p t = 0 := by
  have hbig : (2 : Int) ^ 64 ≤ 2 ^ t := pow_le_pow_right₀ (by norm_num) ht
  rw [rshr_eq]
  rcases le_or_gt 0 p with hsign | hsign
  · rw [Int.ediv_eq_zero_of_lt hsign (by omega), Int.emod_eq_of_lt hsign (by omega), if_neg (by omega)]
  · have hquot : p / 2 ^ t = -1 := by
      rw [Int.ediv_eq_iff_of_pos (by omega)]; omega
    have hrem := Int.mul_ediv_add_emod p (2 ^ t)
    rw [hquot] at hrem ⊢
    rw [if_pos (by omega)]; rfl

/-- Settles O26, from the shift with the remainder doubled. -/
theorem roundedShift : Obligations.RoundedShift := by
  unfold Obligations.RoundedShift
  intro p t q r
  have hq : q = p / 2 ^ t := rfl
  have hr : r = p % 2 ^ t := by rw [Int.emod_def, mul_comm]
  have hpos : (0 : Int) < 2 ^ t := by positivity
  refine ⟨hr ▸ Int.emod_nonneg p hpos.ne', hr ▸ Int.emod_lt_of_pos p hpos, ?_, rshr_eq_zero⟩
  rw [rshr_eq, ← hr, ← hq]
  cases t with
  | zero => simp [hq, hr]
  | succ t =>
    refine if_congr ?_ rfl rfl
    rw [pow_succ', Nat.add_sub_cancel]
    omega

-- The value of a finite number, through the functions on one element.

/-- A finite number has this value; a zero of either sign has the value 0. -/
inductive Num.Is : Num → Rat → Prop
  | zero (neg : Bool) : Is (.zero neg) 0
  | fin (q : Rat) : Is (.fin q) q

theorem numOf_is (q : Rat) : (numOf q).Is q := by
  unfold numOf
  split
  · subst q; exact .zero _
  · exact .fin q

namespace Num.Is

variable {x y z : Num} {a b c : Rat}

theorem val_eq (h : x.Is a) : x.val = a := by
  cases h <;> rfl

theorem ne_nan (h : x.Is a) : x ≠ .nan := by
  rintro rfl; cases h

theorem add (hx : x.Is a) (hy : y.Is b) : (numAdd x y).Is (a + b) := by
  cases hx <;> cases hy
  case zero.zero => simpa [numAdd] using Is.zero _
  all_goals exact numOf_is _

theorem neg (hx : x.Is a) : (numNeg x).Is (-a) := by
  cases hx
  case zero => simpa [numNeg] using Is.zero _
  case fin => exact .fin _

theorem mul (hx : x.Is a) (hy : y.Is b) : (numMul x y).Is (a * b) := by
  cases hx <;> cases hy
  case fin.fin => exact .fin _
  all_goals simpa [numMul] using Is.zero _

theorem numLt_iff (hx : x.Is a) (hy : y.Is b) : numLt x y = true ↔ a < b := by
  have hval : numLt x y = decide (x.val < y.val) := by cases hx <;> cases hy <;> rfl
  rw [hval, decide_eq_true_iff, hx.val_eq, hy.val_eq]

theorem ite_max (hx : x.Is a) (hy : y.Is b) : (if numLt x y then y else x).Is (max a b) := by
  rw [if_congr (hx.numLt_iff hy) rfl rfl]
  split
  case isTrue h => rwa [max_eq_right h.le]
  case isFalse h => rwa [max_eq_left (not_lt.mp h)]

theorem ite_min (hx : x.Is a) (hy : y.Is b) : (if numLt y x then y else x).Is (min a b) := by
  rw [if_congr (hy.numLt_iff hx) rfl rfl]
  split
  case isTrue h => rwa [min_eq_right h.le]
  case isFalse h => rwa [min_eq_left (not_lt.mp h)]

theorem scale (hx : x.Is a) (r : Rat) : (x.scale r).Is (a * r) := by
  cases hx
  case zero => simpa [Num.scale] using Is.zero _
  case fin => exact .fin _

end Num.Is

/-- R130, R131: the exact value before the one rounding, for a partial whose tag is not −128. -/
theorem rescaled_is (sc : Scale) (a : Int) {e : Int} (he : e ≠ -128) :
    (rescaled sc (a, e)).Is ((a : Rat) * ((sc.mult : Nat) : Rat) * pow2 (e - ((sc.shift : Nat) : Int))) := by
  simpa only [rescaled, if_neg he, Int.cast_mul, Int.cast_natCast] using numOf_is (((a * ni sc.mult : Int) : Rat) * pow2 (e - ni sc.shift))

@[simp] theorem pow2_natCast (n : Nat) : pow2 (n : Int) = 2 ^ n := by
  simp [pow2]

theorem rabs_eq_abs (q : Rat) : rabs q = |q| := by
  unfold rabs
  split
  · exact (abs_of_neg ‹_›).symm
  · exact (abs_of_nonneg (not_lt.mp ‹_›)).symm

-- Each function of Table 7-14 on finite values.

section
variable {x y z : Num} {a b c : Rat}

theorem vecElem_add (hx : x.Is a) (hy : y.Is b) (n : Nat) : (vecElem 0 x y z n).Is (a + b) := hx.add hy

theorem vecElem_sub (hx : x.Is a) (hy : y.Is b) (n : Nat) : (vecElem 1 x y z n).Is (a - b) :=
  sub_eq_add_neg a b ▸ hx.add hy.neg

theorem vecElem_mul (hx : x.Is a) (hy : y.Is b) (n : Nat) : (vecElem 2 x y z n).Is (a * b) := hx.mul hy

theorem vecElem_fma (hx : x.Is a) (hy : y.Is b) (hz : z.Is c) (n : Nat) : (vecElem 3 x y z n).Is (a * b + c) := (hx.mul hy).add hz

theorem vecElem_mac (hx : x.Is a) (hy : y.Is b) (hz : z.Is c) (n : Nat) : (vecElem 14 x y z n).Is (a * b + c) := (hx.mul hy).add hz

theorem vecElem_min (hx : x.Is a) (hy : y.Is b) (n : Nat) : (vecElem 4 x y z n).Is (min a b) := by
  simpa [vecElem, pick, hx.ne_nan, hy.ne_nan] using hx.ite_min hy

theorem vecElem_max (hx : x.Is a) (hy : y.Is b) (n : Nat) : (vecElem 5 x y z n).Is (max a b) := by
  simpa [vecElem, pick, hx.ne_nan, hy.ne_nan] using hx.ite_max hy

theorem vecElem_select (hx : x.Is a) (hy : y.Is b) (n : Nat) : (vecElem 7 x y z n).Is (max a b) := by
  simpa [vecElem, hx.ne_nan, hy.ne_nan] using hx.ite_max hy

theorem vecElem_abs (hx : x.Is a) (n : Nat) : (vecElem 6 x y z n).Is |a| := by
  cases hx
  case zero => simpa [vecElem] using Num.Is.zero _
  case fin => simpa [vecElem, rabs_eq_abs] using Num.Is.fin _

theorem vecElem_shl (hx : x.Is a) {n : Nat} (hn : n < 64) : (vecElem 8 x y z n).Is (a * 2 ^ n) := by
  simpa [vecElem, hn.not_ge] using hx.scale (2 ^ n)

theorem vecElem_shr {i : Int} (hx : x.Is i) {n : Nat} (hn : n < 64) : (vecElem 9 x y z n).Is (rshr i n) := by
  have hfloor : x.val.floor = i := by rw [hx.val_eq]; exact Int.floor_intCast (R := Rat) i
  simpa [vecElem, hn.not_ge, hfloor] using numOf_is (rshr i n)

end

-- Storage in an integer format.

/-- What an integer format keeps of an integer result (Table 5-7): bits, clipped, no nonfinite event. -/
def Fmt.stored (f : Fmt) (v : Int) : Nat × Bool × Bool :=
  (toBits f.bits (clampI f.range.1 f.range.2 v), decide (v < f.range.1 ∨ f.range.2 < v), false)

theorem clampI_bne (lo hi v : Int) : (clampI lo hi v != v) = decide (v < lo ∨ hi < v) := by
  rw [Bool.eq_iff_iff, bne_iff_ne, decide_eq_true_iff]
  unfold clampI
  split_ifs <;> omega

/-- Every integer format holds 0. -/
theorem Fmt.range_zero {f : Fmt} (hf : f.int?.isSome = true) : f.range.1 ≤ 0 ∧ 0 ≤ f.range.2 := by
  revert hf; cases f <;> decide

theorem Fmt.fp?_of_int {f : Fmt} (hf : f.int?.isSome = true) : f.fp? = none := by
  revert hf; cases f <;> decide

theorem Fmt.stored_zero {f : Fmt} (hf : f.int?.isSome = true) : f.stored 0 = (0, false, false) := by
  obtain ⟨hlo, hhi⟩ := f.range_zero hf
  simp [Fmt.stored, clampI, toBits, hlo.not_gt, hhi.not_gt]

/-- Table 5-7: a finite value is rounded half to even and saturated. -/
theorem Fmt.encode_is {f : Fmt} (hf : f.int?.isSome = true) {x : Num} {q : Rat} (hx : x.Is q) : f.encode x = f.stored (rhe q) := by
  cases hx
  case zero => simp only [Fmt.encode, f.fp?_of_int hf, rhe_zero, f.stored_zero hf]
  case fin => simp only [Fmt.encode, f.fp?_of_int hf, Fmt.sat, clampI_bne, Fmt.stored]

/-- A whole result needs no rounding. -/
theorem Fmt.encode_int {f : Fmt} (hf : f.int?.isSome = true) {x : Num} {q : Rat} (hx : x.Is q) {v : Int} (hv : q = v) : f.encode x = f.stored v := by
  rw [f.encode_is hf hx, hv, rhe_intCast]

/-- Settles O27: each function's exact value on its finite sources, stored by the one rule of integer formats. -/
theorem cambiumElements : Obligations.CambiumElements := by
  unfold Obligations.CambiumElements
  refine ⟨fun f x y z n hf => ?_, rshr_nearest, fun f sc a e hf he => congrArg Prod.fst (f.encode_is hf (rescaled_is sc a he))⟩
  have hx := numOf_is x
  have hy := numOf_is y
  have hz := numOf_is z
  exact ⟨f.encode_int hf (vecElem_add hx hy n) (by push_cast; rfl),
    f.encode_int hf (vecElem_sub hx hy n) (by push_cast; rfl),
    f.encode_int hf (vecElem_mul hx hy n) (by push_cast; rfl),
    f.encode_int hf (vecElem_fma hx hy hz n) (by push_cast; rfl),
    f.encode_int hf (vecElem_mac hx hy hz n) (by push_cast; rfl),
    f.encode_int hf (vecElem_min hx hy n) (by push_cast; rfl),
    f.encode_int hf (vecElem_max hx hy n) (by push_cast; rfl),
    f.encode_int hf (vecElem_abs hx n) (by push_cast; rfl),
    f.encode_int hf (vecElem_select hx hy n) (by push_cast; rfl),
    fun hn => f.encode_int hf (vecElem_shl hx hn) (by push_cast; rfl),
    fun hn => f.encode_int hf (vecElem_shr hx hn) rfl⟩

end Sys2Proof.Machine
end

section
/-! SUPPORT. The events of run-ahead and retirement on a bough that works: what each answers (R146, R177 to R180, R186, R200, R209), and from these O29. -/

namespace Sys2Proof.Machine

section

variable {b : Nat} {s : State} (hlive : s.boughLive b = true)
include hlive

-- What a stalled twig waited for arrives.

/-- R200: the pointer counts as read and the operation issues again, unless the pointer's word is uncorrectable. -/
theorem exec_pointerValueArrival_live (hwait : (s.bough b).wait = .ptr)
    (hue : ∀ a, (((s.onBough b fun x => { x with ptrOk := true, wait := .none }).issueAny b).bough b).wait ≠ .ue a) :
    exec (.pointerValueArrival b) s = .next ((s.onBough b fun x => { x with ptrOk := true, wait := .none }).issueAny b) := by
  have harrives : ¬ ((!s.boughLive b) = true ∨ (s.bough b).wait ≠ .ptr) := by simp [hlive, hwait]
  refine (congrArg ok (if_neg harrives)).trans (congrArg ok ?_)
  dsimp only
  split
  case h_1 a hread => exact absurd hread (hue a)
  case h_2 => rfl

theorem exec_holdLinesFreed_live (hwait : (s.bough b).wait = .lines) : exec (.holdLinesFreed b) s = .next (s.issueAny b) :=
  congrArg ok (if_pos ⟨hlive, hwait⟩)

-- Retirement, release and drain.

theorem exec_epochRetire_live : exec (.epochRetire b) s = .next (s.judgeOldest b).settleQueues := congrArg ok (if_pos hlive)

theorem exec_heldLineRelease_live (acc bad : Bool) : exec (.heldLineRelease b acc bad) s = .next (s.releaseLine b acc bad).settleQueues :=
  congrArg ok (if_pos hlive)

theorem exec_drainEnd_live : exec (.drainEnd b) s = .next (s.endDrain b).settleTests := congrArg ok (if_pos hlive)

-- Range windows and transfers.

theorem exec_rangeRestoreWindow_live {l : Nat} (hl : l < 18) (second : Bool) :
    exec (.rangeRestoreWindow b l second) s = .next (s.endRangeWindow b (leafNo b l) second) :=
  congrArg ok (if_pos ⟨hlive, hl⟩)

theorem exec_xferLand_live (route sender : Nat) : exec (.xferLand b route sender) s = .next (s.landXfer b route sender) :=
  congrArg ok (if_pos hlive)

end

/-- Settles O29: on a bough that works each event runs its operation, and a pointer's value that is not uncorrectable ends with the operation issued again. -/
theorem retirementEvents : Obligations.RetirementEvents := by
  intro b s hlive
  exact ⟨exec_pointerValueArrival_live hlive, exec_holdLinesFreed_live hlive, exec_epochRetire_live hlive, exec_heldLineRelease_live hlive,
    exec_drainEnd_live hlive, fun l second hl => exec_rangeRestoreWindow_live hlive hl second, exec_xferLand_live hlive⟩

end Sys2Proof.Machine
end

section
/-! SUPPORT. Reading a bough after it was changed, and the frame that only one bough's own record changed: what keeps it, and what it gives. -/

namespace Sys2Proof.Machine

@[simp] theorem State.onBough_bough_same (s : State) (b : Nat) (f : Bough → Bough) : (s.onBough b f).bough b = f (s.bough b) :=
  smGet_upd_same _ _ _ _

theorem State.onBough_bough_other (s : State) (f : Bough → Bough) {b b' : Nat} (h : b' ≠ b) : (s.onBough b f).bough b' = s.bough b' :=
  smGet_upd_other _ _ _ _ _ h

theorem State.onBough_congr {s : State} {b : Nat} {f g : Bough → Bough} (h : f (s.bough b) = g (s.bough b)) : s.onBough b f = s.onBough b g :=
  congrArg (fun v => { s with boughs := smSet s.boughs b v }) h

@[simp] theorem State.onBough_leaf (s : State) (b : Nat) (f : Bough → Bough) (k : Nat) : (s.onBough b f).leaf k = s.leaf k := rfl
@[simp] theorem State.onBough_stand (s : State) (b : Nat) (f : Bough → Bough) (i : Nat) : (s.onBough b f).stand i = s.stand i := rfl
@[simp] theorem State.onLeaf_bough (s : State) (k : Nat) (f : Leaf → Leaf) (b : Nat) : (s.onLeaf k f).bough b = s.bough b := rfl

namespace OnlyBough

variable {b : Nat} {s t u : State}

theorem refl (b : Nat) (s : State) : OnlyBough b s s := ⟨rfl, fun _ _ => rfl⟩

theorem trans (h : OnlyBough b s t) (k : OnlyBough b t u) : OnlyBough b s u :=
  ⟨by rw [k.1, h.1], fun b' hb => (k.2 b' hb).trans (h.2 b' hb)⟩

theorem onBough (h : OnlyBough b s t) (f : Bough → Bough) : OnlyBough b s (t.onBough b f) :=
  h.trans ⟨rfl, fun _ hb => t.onBough_bough_other f hb⟩

theorem foldl {α : Type} (h : OnlyBough b s t) (l : List α) {f : State → α → State} (hf : ∀ u a, OnlyBough b s u → OnlyBough b s (f u a)) :
    OnlyBough b s (l.foldl f t) := by
  induction l generalizing t with
  | nil => exact h
  | cons a r ih => exact ih (hf t a h)

theorem leaf (h : OnlyBough b s t) (k : Nat) : t.leaf k = s.leaf k := by rw [h.1]; rfl
theorem stand (h : OnlyBough b s t) (i : Nat) : t.stand i = s.stand i := by rw [h.1]; rfl
theorem func (h : OnlyBough b s t) (f : Nat) : t.func f = s.func f := by rw [h.1]; rfl
theorem hbm (h : OnlyBough b s t) : t.hbm = s.hbm := by rw [h.1]
theorem hbmBad (h : OnlyBough b s t) : t.hbmBad = s.hbmBad := by rw [h.1]

end OnlyBough

end Sys2Proof.Machine
end

section
/-! SUPPORT. The operation word: its bits and its fields determine each other (R167), and from these O28. -/

namespace Sys2Proof.Machine

theorem fld_toNat {w : Nat} (x : BitVec w) (hi lo : Nat) : fld x hi lo = x.toNat / 2 ^ lo % 2 ^ (hi + 1 - lo) := by
  rw [fld, Nat.shiftRight_eq_div_pow]

theorem OpWord.bits_toNat {w : OpWord} (hop : w.opcode < 64) (hflags : w.flags < 1024) (ha : w.a < 65536) (hb : w.b < 2 ^ 32) :
    w.bits.toNat = w.opcode * 2 ^ 58 + w.flags * 2 ^ 48 + w.a * 2 ^ 32 + w.b := by
  rw [OpWord.bits, BitVec.toNat_ofNat, Nat.mod_eq_of_lt]
  omega

/-- R167: the fields of a word that was put together from them. -/
theorem opWord_bits {w : OpWord} (hop : w.opcode < 64) (hflags : w.flags < 1024) (ha : w.a < 65536) (hb : w.b < 2 ^ 32) : opWord w.bits = w := by
  simp only [opWord, fld_toNat, OpWord.bits_toNat hop hflags ha hb]
  obtain ⟨opcode, flags, a, b⟩ := w
  simp only [OpWord.mk.injEq] at hop hflags ha hb ⊢
  omega

/-- R167: the fields cover the word. -/
theorem bits_opWord (d : DWord) : (opWord d).bits = d := by
  apply BitVec.eq_of_toNat_eq
  have hd := d.isLt
  simp only [OpWord.bits, opWord, fld_toNat, BitVec.toNat_ofNat]
  omega

/-- Settles O28: the four fields are the digits of the word in the mixed base that their widths give. -/
theorem operationWordRoundTrip : Obligations.OperationWordRoundTrip :=
  ⟨fun _ => opWord_bits, bits_opWord⟩

end Sys2Proof.Machine
end

section
/-! SUPPORT. The release of the first retired line (R180): the runs that a line's bytes form, what they write to HBM, and what the line's release leaves for each of its destinations; from these O31. -/

namespace Sys2Proof.Machine

-- Bytes of a line, run by run.

/-- The byte that a line writes at offset `o`: its last one there. -/
def HeldLine.byteAt (h : HeldLine) (o : Nat) : Option Byte := (h.bytes.reverse.find? fun p => p.1 == o).map (·.2)

/-- The bytes that a line writes, in rising order, each offset once. -/
def HeldLine.cells (h : HeldLine) : List (Nat × Byte) := (List.range 64).filterMap fun o => (h.byteAt o).map fun v => (o, v)

/-- A byte joined to the last run, or a run of its own. -/
def addCell (rs : List (Nat × List Byte)) (p : Nat × Byte) : List (Nat × List Byte) :=
  match rs.getLast? with
  | some r => if r.1 + r.2.length = p.1 then rs.dropLast ++ [(r.1, r.2 ++ [p.2])] else rs ++ [(p.1, [p.2])]
  | none => [(p.1, [p.2])]

/-- The bytes of a run with their offsets. -/
def runCells (r : Nat × List Byte) : List (Nat × Byte) := (r.2.zipIdx r.1).map Prod.swap

theorem HeldLine.runs_eq (h : HeldLine) : h.runs = h.cells.foldl addCell [] := by
  simp only [HeldLine.runs, HeldLine.cells, HeldLine.byteAt, Option.map_map]
  rfl

theorem runCells_append (o : Nat) (bs : List Byte) (v : Byte) : runCells (o, bs ++ [v]) = runCells (o, bs) ++ [(o + bs.length, v)] := by
  simp [runCells, List.zipIdx_append]

theorem addCell_cells (rs : List (Nat × List Byte)) (p : Nat × Byte) : (addCell rs p).flatMap runCells = rs.flatMap runCells ++ [p] := by
  unfold addCell
  split
  case h_2 hnil => rw [List.getLast?_eq_none_iff.mp hnil]; rfl
  case h_1 r hlast =>
    split
    · rename_i hnext
      conv_rhs => rw [← List.dropLast_append_getLast? r hlast]
      simp [runCells_append, hnext]
    · simp [runCells]

theorem addCell_ne_nil {rs : List (Nat × List Byte)} (hrs : ∀ r ∈ rs, r.2 ≠ []) (p : Nat × Byte) : ∀ r ∈ addCell rs p, r.2 ≠ [] := by
  unfold addCell
  split
  · split
    · intro r hr
      rcases List.mem_append.mp hr with h | h
      · exact hrs r (List.mem_of_mem_dropLast h)
      · rw [List.mem_singleton.mp h]; simp
    · intro r hr
      rcases List.mem_append.mp hr with h | h
      · exact hrs r h
      · rw [List.mem_singleton.mp h]; simp
  · simp

theorem foldl_addCell (ps : List (Nat × Byte)) (rs : List (Nat × List Byte)) (hrs : ∀ r ∈ rs, r.2 ≠ []) :
    (ps.foldl addCell rs).flatMap runCells = rs.flatMap runCells ++ ps ∧ ∀ r ∈ ps.foldl addCell rs, r.2 ≠ [] := by
  induction ps generalizing rs with
  | nil => simpa using hrs
  | cons p ps ih => simpa [addCell_cells] using ih (addCell rs p) (addCell_ne_nil hrs p)

/-- The runs of a line hold its bytes, each once. -/
theorem HeldLine.runs_cells (h : HeldLine) : h.runs.flatMap runCells = h.cells := by
  simpa [h.runs_eq] using (foldl_addCell h.cells [] (by simp)).1

theorem HeldLine.mem_cells {h : HeldLine} {p : Nat × Byte} (hp : p ∈ h.cells) : p.1 < 64 := by
  obtain ⟨o, ho, hv⟩ := List.mem_filterMap.mp hp
  obtain ⟨v, -, rfl⟩ := Option.map_eq_some_iff.mp hv
  exact List.mem_range.mp ho

/-- A run lies in the line. -/
theorem HeldLine.runs_fit (h : HeldLine) : ∀ r ∈ h.runs, r.1 + r.2.length ≤ 64 := by
  intro r hr
  have hne : r.2 ≠ [] := (foldl_addCell h.cells [] (by simp)).2 r (h.runs_eq ▸ hr)
  have hlen : 0 < r.2.length := List.length_pos_iff.mpr hne
  have hlast : (r.1 + (r.2.length - 1), r.2[r.2.length - 1]'(by omega)) ∈ h.cells := by
    rw [← h.runs_cells]
    refine List.mem_flatMap.mpr ⟨r, hr, List.mem_map.mpr ⟨(r.2[r.2.length - 1]'(by omega), r.1 + (r.2.length - 1)), ?_, rfl⟩⟩
    exact List.mk_mem_zipIdx_iff_le_and_getElem?_sub.mpr ⟨by omega, by simp⟩
  have := HeldLine.mem_cells hlast
  dsimp only at this
  omega

-- Cells written to a memory.

/-- Bytes written at offsets from `a`. -/
def memPutCells (m : List Host.Cell) (a : Nat) (ps : List (Nat × Byte)) : List Host.Cell := ps.foldl (fun m p => memPut m (a + p.1) p.2) m

theorem memPutAll_runCells (m : List Host.Cell) (a o : Nat) (bs : List Byte) : memPutAll m (a + o) bs = memPutCells m a (runCells (o, bs)) := by
  induction bs generalizing m o with
  | nil => rfl
  | cons v r ih => exact ih (memPut m (a + o) v) (o + 1)

theorem memPutCells_append (m : List Host.Cell) (a : Nat) (ps qs : List (Nat × Byte)) :
    memPutCells m a (ps ++ qs) = memPutCells (memPutCells m a ps) a qs := List.foldl_append

theorem foldl_memPutAll (m : List Host.Cell) (a : Nat) (rs : List (Nat × List Byte)) :
    rs.foldl (fun m r => memPutAll m (a + r.1) r.2) m = memPutCells m a (rs.flatMap runCells) := by
  induction rs generalizing m with
  | nil => rfl
  | cons r rs ih => rw [List.foldl_cons, ih, memPutAll_runCells, List.flatMap_cons, memPutCells_append]

theorem memGet_putCells_other (m : List Host.Cell) {a x : Nat} (ps : List (Nat × Byte)) (hx : ∀ p ∈ ps, x ≠ a + p.1) : memGet (memPutCells m a ps) x = memGet m x := by
  induction ps generalizing m with
  | nil => rfl
  | cons p ps ih =>
    obtain ⟨hp, hps⟩ := List.forall_mem_cons.mp hx
    exact (ih _ hps).trans (memGet_put_other m _ _ _ hp)

/-- A byte reads as the offset's last write, or as it was. -/
theorem memGet_putCells_filterMap {m : List Host.Cell} (hm : Memory.wf m = true) (a : Nat) (f : Nat → Option Byte) {os : List Nat} (hos : os.Nodup) {o : Nat} (ho : o ∈ os) :
    memGet (memPutCells m a (os.filterMap fun o => (f o).map fun v => (o, v))) (a + o) = (f o).getD (memGet m (a + o)) := by
  induction os generalizing m with
  | nil => cases ho
  | cons i r ih =>
    obtain ⟨hi, hr⟩ := List.nodup_cons.mp hos
    by_cases heq : o = i
    · subst heq
      have hrest (m' : List Host.Cell) : memGet (memPutCells m' a (r.filterMap fun o => (f o).map fun v => (o, v))) (a + o) = memGet m' (a + o) := by
        refine memGet_putCells_other m' _ fun p hp => ?_
        obtain ⟨j, hj, hv⟩ := List.mem_filterMap.mp hp
        obtain ⟨v, -, rfl⟩ := Option.map_eq_some_iff.mp hv
        have : o ≠ j := fun e => hi (e ▸ hj)
        dsimp only
        omega
      cases hf : f o with
      | none => simp [hf, hrest]
      | some v => simpa [hf, memPutCells] using (hrest _).trans (memGet_put_same m (a + o) v hm)
    · have hor : o ∈ r := (List.mem_cons.mp ho).resolve_left heq
      cases hf : f i with
      | none => simpa [hf] using ih hm hr hor
      | some v =>
        have hput : memGet (memPut m (a + i) v) (a + o) = memGet m (a + o) := memGet_put_other m _ _ _ (by omega)
        simpa [hf, hput, memPutCells] using ih (Memory.wf_put m (a + i) v hm) hr hor

theorem HeldLine.memGet_putCells {m : List Host.Cell} (hm : Memory.wf m = true) (h : HeldLine) (a : Nat) {o : Nat} (ho : o < 64) :
    memGet (memPutCells m a h.cells) (a + o) = (h.byteAt o).getD (memGet m (a + o)) :=
  memGet_putCells_filterMap hm a h.byteAt List.nodup_range (List.mem_range.mpr ho)

-- A line written to HBM that meets no uncorrectable word.

/-- No uncorrectable word lies in HBM line `l`. -/
def State.LineClean (s : State) (l : Nat) : Prop := ∀ w ∈ s.hbmBad, w < 8 * l ∨ 8 * l + 8 ≤ w

theorem State.poke_clean {s : State} {l : Nat} (hs : s.LineClean l) (a : Nat) (bs : List Byte) : (s.poke a bs).LineClean l :=
  fun w hw => hs w (List.mem_of_mem_filter hw)

/-- R318: a write inside a clean line has no partial write to report. -/
theorem State.hbmWrite_clean {s : State} {l a : Nat} {bs : List Byte} (hs : s.LineClean l) (hlo : 64 * l ≤ a) (hhi : a + bs.length ≤ 64 * l + 64) :
    s.hbmWrite a bs = s.poke a bs := by
  have hpart : (s.poke a bs).hbmBad.filter (fun w => decide (a / 8 ≤ w) && decide (w < ceilDiv (a + bs.length) 8)) = [] := by
    refine List.filter_eq_nil_iff.mpr fun w hw => ?_
    have hout := State.poke_clean hs a bs w hw
    simp only [Bool.and_eq_true, decide_eq_true_eq]
    unfold ceilDiv
    omega
  rw [State.hbmWrite, hpart, List.foldl_nil]

/-- The runs of a line written to HBM line `l`. -/
def State.writeRuns (s : State) (l : Nat) (rs : List (Nat × List Byte)) : State := rs.foldl (fun s r => s.hbmWrite (64 * l + r.1) r.2) s

theorem State.writeRuns_clean {s : State} {l : Nat} {rs : List (Nat × List Byte)} (hs : s.LineClean l) (hfit : ∀ r ∈ rs, r.1 + r.2.length ≤ 64) :
    (s.writeRuns l rs).hbm = memPutCells s.hbm (64 * l) (rs.flatMap runCells) ∧ (s.writeRuns l rs).boughs = s.boughs := by
  rw [← foldl_memPutAll]
  induction rs generalizing s with
  | nil => exact ⟨rfl, rfl⟩
  | cons r rs ih =>
    obtain ⟨hr, hrs⟩ := List.forall_mem_cons.mp hfit
    have hstep : s.writeRuns l (r :: rs) = (s.poke (64 * l + r.1) r.2).writeRuns l rs :=
      congrArg (fun u : State => u.writeRuns l rs) (State.hbmWrite_clean hs (by omega) (by omega))
    rw [hstep]
    exact ih (State.poke_clean hs _ _) hrs

theorem State.writeRuns_line {s : State} {l : Nat} (hs : s.LineClean l) (h : HeldLine) :
    (s.writeRuns l h.runs).hbm = memPutCells s.hbm (64 * l) h.cells ∧ (s.writeRuns l h.runs).boughs = s.boughs :=
  h.runs_cells ▸ State.writeRuns_clean hs h.runs_fit

-- What the release of each destination comes to.

/-- The line has left the buffer. -/
def State.dropLine (s : State) (b : Nat) (h : HeldLine) : State := s.onBough b fun x => { x with held := x.held.erase h, stalledCredit := false }

/-- The bytes of a line put into sapwood line `l`, with its parity and poison marks (R175, R320). -/
def HeldLine.intoSap (h : HeldLine) (l : Nat) (parityBad : Bool) (x : Bough) : Bough :=
  { x with
    sapwood := h.put x.sapwood l,
    sapParity := if parityBad then insertN x.sapParity l else if decide (64 ≤ (h.bytes.map (·.1)).eraseDups.length) then removeN x.sapParity l else x.sapParity,
    sapPoison := match h.poison with
      | some a => smUpd a x.sapPoison l (min a)
      | none => if decide (64 ≤ (h.bytes.map (·.1)).eraseDups.length) then smErase x.sapPoison l else x.sapPoison }

/-- The state after an accepted line is written, its words marked where it carries poison (R318). -/
def State.writeLine (s : State) (l : Nat) (h : HeldLine) : State :=
  if h.poison.isSome then (s.writeRuns l h.runs).poisonWords (h.words l) else s.writeRuns l h.runs

/-- A task that has lost none of its lines and is not in quarantine mode (R347, R355). -/
def Bough.keepsLines (x : Bough) (id : Nat) : Prop := ∀ t, x.find id = some t → t.quarantine = false ∧ t.lost = false

/-- A line of a task in quarantine mode is discarded, and a status record of one that lost a line (R245, R355). -/
def Bough.discards (x : Bough) (h : HeldLine) : Bool :=
  match x.find h.task with
  | some t => t.quarantine || (h.status && t.lost)
  | none => false

theorem Bough.discards_of_keepsLines {x : Bough} {h : HeldLine} (hkeeps : x.keepsLines h.task) : x.discards h = false := by
  unfold Bough.discards
  split
  · rename_i t hfind
    obtain ⟨hquiet, hlost⟩ := hkeeps t hfind
    simp [hquiet, hlost]
  · rfl

section

variable {b l : Nat} {h : HeldLine} {s : State} (hfront : (s.bough b).frontLine = some h)
include hfront

theorem State.releaseLine_completion {t : Nat} (hdest : h.dest = .completion t) (acc bad : Bool) : s.releaseLine b acc bad = s := by
  simp only [State.releaseLine, hfront, hdest]

theorem State.releaseLine_sap (hdest : h.dest = .sap l) (acc bad : Bool) :
    s.releaseLine b acc bad = if bad then ((s.dropLine b h).onBough b (h.intoSap l bad)).record .parity (uBough b) { source := 3, detail := 5, detail2 := 64 * l }
      else (s.dropLine b h).onBough b (h.intoSap l bad) := by
  simp only [State.releaseLine, hfront, hdest]
  rfl

/-- R180, R347: a line of HBM without a parity error is discarded, lost to a reset, held back or written. -/
theorem State.releaseLine_hbm (hdest : h.dest = .hbm l) (acc : Bool) :
    s.releaseLine b acc false =
      if (s.bough b).discards h then s.dropLine b h
      else if s.inReset (hbmStand (64 * l)) then (s.dropLine b h).loseLine b h.task .peerReset (peerDetail true 0 (hbmStand (64 * l)) s.myDev)
      else if acc then (s.dropLine b h).writeLine l h
      else s.onBough b fun x => { x with stalledCredit := true } := by
  cases hfind : (s.bough b).find h.task with
  | none => simp only [State.releaseLine, hfront, hdest, Bough.discards, hfind]; cases acc <;> simp <;> rfl
  | some t => simp only [State.releaseLine, hfront, hdest, Bough.discards, hfind]; cases acc <;> simp <;> rfl

/-- The same where its stand answers and its task has lost none. -/
theorem State.releaseLine_hbm_kept (hdest : h.dest = .hbm l) (hreset : s.inReset (hbmStand (64 * l)) = false) (hkeeps : (s.bough b).keepsLines h.task) (acc : Bool) :
    s.releaseLine b acc false = if acc then (s.dropLine b h).writeLine l h else s.onBough b fun x => { x with stalledCredit := true } := by
  rw [State.releaseLine_hbm hfront hdest, Bough.discards_of_keepsLines hkeeps, hreset]
  rfl

end

theorem State.loseLine_hbm (s : State) (b id : Nat) (c : Cause) (d : Word) : (s.loseLine b id c d).hbm = s.hbm := by
  unfold State.loseLine State.faultTaskId
  dsimp only
  split
  · split <;> rfl
  · rfl

theorem RecordFrame.bough {s t : State} (h : RecordFrame s t) (b : Nat) : t.bough b = s.bough b := by rw [h.rest]; rfl

theorem State.writeLine_clean {s : State} {l : Nat} (hs : s.LineClean l) (h : HeldLine) :
    (s.writeLine l h).hbm = memPutCells s.hbm (64 * l) h.cells ∧ (s.writeLine l h).boughs = s.boughs := by
  unfold State.writeLine
  split <;> exact State.writeRuns_line hs h

section

variable {b l : Nat} {h : HeldLine} {s : State} (hfront : (s.bough b).frontLine = some h)
include hfront

theorem State.releaseLine_sap_bough (hdest : h.dest = .sap l) (acc bad : Bool) :
    (s.releaseLine b acc bad).bough b = h.intoSap l bad ((s.dropLine b h).bough b) := by
  rw [State.releaseLine_sap hfront hdest]
  split
  · exact (RecordFrame.bough (State.record_frame _ _ _ _) b).trans (State.onBough_bough_same _ _ _)
  · rw [State.onBough_bough_same]

/-- R180: bytes outside the line keep their values, whatever becomes of it. -/
theorem State.releaseLine_hbm_outside (hdest : h.dest = .hbm l) (hclean : s.LineClean l) (acc : Bool) {a : Nat} (ha : a < 64 * l ∨ 64 * l + 64 ≤ a) :
    memGet (s.releaseLine b acc false).hbm a = memGet s.hbm a := by
  rw [State.releaseLine_hbm hfront hdest]
  split
  · rfl
  · split
    · rw [State.loseLine_hbm]; rfl
    · split
      · rw [(State.writeLine_clean (s := s.dropLine b h) hclean h).1]
        exact memGet_putCells_other _ _ fun p hp => by have := HeldLine.mem_cells hp; omega
      · rfl

end

/-- Settles O31, by the line's destination; the runs of a line of HBM hold its last byte at each offset, each once. -/
theorem lineRelease : Obligations.LineRelease := by
  intro b h s hfront
  refine ⟨fun l acc bad hdest => ⟨fun hbad => ?_, ?_, ?_⟩, fun l acc hdest hclean a ha => State.releaseLine_hbm_outside hfront hdest hclean acc ha,
    fun l hdest hwf hclean hreset hkeeps => ?_, fun l hdest hreset hkeeps => ?_, fun t acc bad hdest => State.releaseLine_completion hfront hdest acc bad⟩
  · subst hbad
    rw [State.releaseLine_sap hfront hdest]
    exact ((OnlyBough.refl b s).onBough _).onBough _
  · rw [State.releaseLine_sap_bough hfront hdest, State.dropLine, State.onBough_bough_same]; rfl
  · rw [State.releaseLine_sap_bough hfront hdest, State.dropLine, State.onBough_bough_same]; rfl
  · obtain ⟨hhbm, hboughs⟩ := State.writeLine_clean (s := s.dropLine b h) hclean h
    rw [State.releaseLine_hbm_kept hfront hdest hreset hkeeps, if_pos rfl]
    refine ⟨fun o ho => ?_, ?_⟩
    · rw [hhbm, HeldLine.memGet_putCells (m := (s.dropLine b h).hbm) hwf h _ ho, HeldLine.byteAt]
      cases h.bytes.reverse.find? fun p => p.1 == o <;> rfl
    · rw [State.bough, hboughs, ← State.bough, State.dropLine, State.onBough_bough_same]
  · rw [State.releaseLine_hbm_kept hfront hdest hreset hkeeps]
    exact ⟨⟨fun _ => rfl, rfl⟩, by rw [if_neg Bool.false_ne_true, State.onBough_bough_same]⟩

end Sys2Proof.Machine
end

section
/-! SUPPORT. Issue of a word that a bough presents: what its command answers where its operation goes on, the guards of an operation, and the lines that it charges (R167, R177). -/

namespace Sys2Proof.Machine

-- Attempts to issue.

@[simp] theorem issue_ok_bind {α β : Type} (a : α) (f : α → Issue β) : ((.ok a : Issue α) >>= f) = f a := rfl

/-- A guard that stalls, then the rest. -/
theorem issues_guard {α β : Type} {P : β → Prop} {g : Prop} [Decidable g] {e : Stall} {f : α → Issue β} {x : Issue β} (hx : ¬g → IssueGives P x) :
    IssueGives P (if g then (.error e : Issue α) >>= f else x) :=
  issues_ite (fun _ => issues_error) hx

theorem okWith_iff {α : Type} {r : Issue α} {p : α → Bool} : okWith r p = true ↔ ∃ a, r = .ok a ∧ p a = true := by
  cases r <;> simp [okWith]

/-- Steps that all go on and keep a property. -/
theorem foldlM_goes {α : Type} {I : State → Prop} (l : List α) {f : State → α → Issue State} {s : State} (hs : I s)
    (hf : ∀ u, ∀ a ∈ l, I u → ∃ v, f u a = .ok v ∧ I v) : ∃ u, l.foldlM f s = .ok u ∧ I u := by
  induction l generalizing s with
  | nil => exact ⟨s, rfl, hs⟩
  | cons a r ih =>
    obtain ⟨v, hv, hI⟩ := hf s a List.mem_cons_self hs
    obtain ⟨u, hu, hU⟩ := ih hI fun u a ha => hf u a (List.mem_cons_of_mem _ ha)
    exact ⟨u, by rw [List.foldlM_cons, hv, issue_ok_bind, hu], hU⟩

-- The present word's command.

theorem State.settleIssue_ok (s u : State) (b : Nat) : s.settleIssue b (.ok u) = u.issued b := rfl

theorem OnlyBough.issued {b : Nat} {s t : State} (h : OnlyBough b s t) : OnlyBough b s (t.issued b) := h.onBough _
theorem OnlyBough.advance {b : Nat} {s t : State} (h : OnlyBough b s t) : OnlyBough b s (t.advance b) := h.onBough _

section

variable {b : Nat} {s s1 : State} {t : Task} {c : Canopy} {w : OpWord} (hpres : s.Presents b s1 t c w)
include hpres

theorem State.issueIf_presented {want : OpWord → Bool} (hwant : want w = true) (op : State → Task → Canopy → OpWord → Issue State) :
    s.issueIf b want op = s1.settleIssue b (op s1 t c w) := by
  unfold State.Presents at hpres
  simp only [State.issueIf, hpres, hwant, if_true]

/-- A command of the present word settles its operation's issue. -/
theorem exec_presented {cmd : Instr} {want : OpWord → Bool} {op : Nat → State → Task → Canopy → OpWord → Issue State}
    (hexec : exec cmd s = ok (s.issueIf b want (op b))) (hwant : want w = true) : exec cmd s = .next (s1.settleIssue b (op b s1 t c w)) := by
  rw [hexec, State.issueIf_presented hpres hwant]

theorem exec_issued {cmd : Instr} {want : OpWord → Bool} {op : Nat → State → Task → Canopy → OpWord → Issue State} {u : State}
    (hexec : exec cmd s = ok (s.issueIf b want (op b))) (hwant : want w = true) (hop : op b s1 t c w = .ok u) : exec cmd s = .next (u.issued b) := by
  rw [exec_presented hpres hexec hwant, hop, State.settleIssue_ok]

end

theorem opcode_beq {w : OpWord} {n : Nat} (h : w.opcode = n) : (w.opcode == n) = true := beq_iff_eq.mpr h

theorem isVec_of {w : OpWord} {n : Nat} (h : w.opcode = 0x08) (ha : w.a = n) : w.isVec n = true := by
  simp [OpWord.isVec, h, ha]

-- Lines charged to the present epoch (R177).

/-- `n` lines more in the footprint of the present epoch of bough `b`. -/
def State.charged (s : State) (b n : Nat) : State := s.onBough b fun x => x.onLast fun e => { e with footprint := e.footprint + n }

theorem State.charge_fits {s : State} {b n : Nat} (hfit : s.LinesFit b n) : s.charge b n = .ok (s.charged b n) := by
  obtain ⟨hepoch, hfree⟩ := hfit
  unfold State.charge
  dsimp only
  rw [if_neg, if_neg (Nat.not_lt.mpr hfree)]
  · rfl
  · cases hlast : (s.bough b).epochs.getLast? with
    | none => simpa [hlast] using hepoch
    | some e => simpa [hlast] using hepoch

theorem State.charge_only {s s' : State} {b : Nat} (hs : OnlyBough b s s') (n : Nat) : IssueGives (OnlyBough b s) (s'.charge b n) :=
  issues_ite (fun _ => issues_shape) fun _ => issues_ite (fun _ => issues_error) fun _ => issues_ok (hs.onBough _)

/-- R102: a boundary of a bough without committed members swaps no leaf. -/
theorem State.applySwaps_none {s : State} {b : Nat} (hprogs : ∀ p ∈ s.trunk.progs, p.2.bough ≠ b ∨ p.2.step ≠ 10) : s.applySwaps b = s := by
  have hnone : (s.trunk.progs.filter fun p => p.2.bough == b && p.2.step == 10) = [] := by
    refine List.filter_eq_nil_iff.mpr fun p hp => ?_
    simp only [Bool.and_eq_true, beq_iff_eq, not_and_or]
    exact hprogs p hp
  rw [State.applySwaps, hnone, List.foldl_nil]

end Sys2Proof.Machine
end

section
/-! SUPPORT. The twig's own operations: the counters that LOOP leaves (R192), and what NOP, LOOP, KSIG, a wait on knot 0 and END leave of their bough; from these O24. -/

namespace Sys2Proof.Machine

-- LOOP's counters.

/-- The shared counters with depth `d` stepped and deeper ones at 0 (R192). -/
def loopCounters (cs : List Nat) (d : Nat) : List Nat :=
  (List.range 6).map fun i => if i < d then nth 0 cs i else if i = d then nth 0 cs d + 1 else 0

theorem nth_of_le {α : Type} (v : α) {l : List α} {i : Nat} (h : l.length ≤ i) : nth v l i = v := by
  rw [nth, List.getElem?_eq_none h, Option.getD_none]

@[simp] theorem loopCounters_length (cs : List Nat) (d : Nat) : (loopCounters cs d).length = 6 := by simp [loopCounters]

theorem nth_loopCounters_same (cs : List Nat) {d : Nat} (hd : d < 6) : nth 0 (loopCounters cs d) d = nth 0 cs d + 1 := by
  rw [loopCounters, nth_map_range _ _ hd, if_neg (Nat.lt_irrefl d), if_pos rfl]

theorem nth_loopCounters_deeper (cs : List Nat) {d j : Nat} (hj : d < j) : nth 0 (loopCounters cs d) j = 0 := by
  by_cases h6 : j < 6
  · rw [loopCounters, nth_map_range _ _ h6, if_neg (by omega), if_neg (by omega)]
  · exact nth_of_le 0 (by simp; omega)

/-- A level that is left has its counter at 0. -/
theorem nth_loopCounters_left (cs : List Nat) {d j : Nat} (hj : d ≤ j) : nth 0 ((loopCounters cs d).set d 0) j = 0 := by
  rcases Nat.eq_or_lt_of_le hj with rfl | hlt
  · simp [nth, List.getElem?_set]
    split <;> rfl
  · have hset : ((loopCounters cs d).set d 0)[j]? = (loopCounters cs d)[j]? := List.getElem?_set_ne (Nat.ne_of_lt hlt)
    rw [nth, hset, ← nth, nth_loopCounters_deeper cs hlt]

theorem smFind_filter_none {α : Type} (m : SMap α) {k : Nat} {p : Nat × α → Bool} (hp : ∀ v, p (k, v) = false) : smFind (m.filter p) k = none := by
  induction m with
  | nil => rfl
  | cons q r ih =>
    obtain ⟨i, v⟩ := q
    rw [List.filter_cons]
    split
    · rename_i hq
      have hne : i ≠ k := fun e => by rw [e, hp v] at hq; cases hq
      rw [smFind, if_neg hne, ih]
    · exact ih

section

variable {b : Nat} {s : State} (t : Task) {c : Canopy} {w : OpWord}

/-- R192: the bound is not reached, so the body is entered again, with every deeper level to be entered anew. -/
theorem opLoop_again (h : nth 0 (s.bough b).ck.counters w.b + 1 < smGet 0 (s.bough b).ck.bounds w.b) :
    opLoop b s t c w = .ok (s.onBough b fun x => { x with ck := { x.ck with
      pc := ((c.desc w.a).level w.b).body, counters := loopCounters x.ck.counters w.b,
      bounds := x.ck.bounds.filter fun p => !((List.range 6).filter (w.b < ·)).contains p.1 } }) :=
  congrArg Except.ok (State.onBough_congr (if_pos h))

/-- R192: the bound is reached, so the twig goes on behind the level. -/
theorem opLoop_ends (h : smGet 0 (s.bough b).ck.bounds w.b ≤ nth 0 (s.bough b).ck.counters w.b + 1) :
    opLoop b s t c w = .ok (s.onBough b fun x => { x with ck := { x.ck with
      pc := x.ck.pc + 1, counters := (loopCounters x.ck.counters w.b).set w.b 0 } }) :=
  congrArg Except.ok (State.onBough_congr (if_neg (Nat.not_lt.mpr h)))

/-- R262: the signal that KSIG holds. -/
def Bough.signalLine (x : Bough) (t : Task) (w : OpWord) : HeldLine := { epoch := x.here.1, task := t.id, op := x.ck.pc, dest := .knot w.a }

theorem opKsig_fits (hfit : s.LinesFit b 1) :
    opKsig b s t c w = .ok (((s.charged b 1).onBough b fun x => x.hold [x.signalLine t w]).advance b) := by
  rw [opKsig, State.charge_fits hfit]
  rfl

/-- R262: a wait on knot 0 opens its epoch and ends at once. -/
theorem opKwait_zero (ha : w.a = 0) (hopen : (s.bough b).canOpen 0 = true) :
    opKwait b s t c w = .ok ((s.onBough b fun x => x.openEpoch t.id s.trunk.map.gen.toNat false).advance b) := by
  simp only [opKwait, hopen, ha]
  rfl

theorem Bough.openEpoch_epochs (x : Bough) (t gen : Nat) (tile : Bool) :
    ∃ e, (x.openEpoch t gen tile).epochs = x.epochs ++ [e] ∧ e.task = t ∧ e.token = none ∧ e.tile = tile :=
  ⟨_, rfl, rfl, rfl, rfl⟩

/-- R167: the completion that END holds. -/
def Bough.completionLine (x : Bough) (t : Task) : HeldLine := { epoch := x.here.1, task := t.id, op := x.ck.pc, dest := .completion t.id }

theorem opEnd_fits (hfit : s.LinesFit b 1) (hprogs : ∀ p ∈ s.trunk.progs, p.2.bough ≠ b ∨ p.2.step ≠ 10) :
    opEnd b s t c w = .ok ((s.charged b 1).onBough b fun x =>
      { x.hold [x.completionLine t] with task := none, ending := x.ending ++ [{ t with issueDone := true }] }) := by
  rw [opEnd, State.charge_fits hfit]
  exact congrArg Except.ok (State.applySwaps_none hprogs)

end

/-- R177: one line fits where the present epoch holds less than 2,048 and a line is free. -/
theorem State.linesFit_one {s : State} {b : Nat} (hepoch : ((s.bough b).epochs.getLast?.map (·.footprint)).getD 0 < 2048) (hfree : 1 ≤ (s.bough b).freeLines) :
    s.LinesFit b 1 := by
  refine ⟨?_, hfree⟩
  cases hlast : (s.bough b).epochs.getLast? <;> simp_all [Nat.succ_le_iff]

/-- Settles O24: each of the five operations is one update of its bough's record. -/
theorem twigOwnEffects : Obligations.TwigOwnEffects := by
  intro b s s1 t c w hpres
  have hself := OnlyBough.refl b s1
  refine ⟨fun hop => ?_, fun hop => ?_, fun hop _ hepoch hfree => ?_, fun hop ha hopen => ?_, fun hop hepoch hfree hprogs => ?_⟩
  case refine_1 =>
    exact ⟨_, exec_issued hpres (op := opNop) rfl (opcode_beq hop) rfl, hself.advance.issued, by simp [State.issued, State.advance], by simp [State.issued, State.advance]⟩
  case refine_2 =>
    rcases Nat.lt_or_ge (nth 0 (s1.bough b).ck.counters w.b + 1) (smGet 0 (s1.bough b).ck.bounds w.b) with hlt | hge
    · refine ⟨_, exec_issued hpres (op := opLoop) rfl (opcode_beq hop) (opLoop_again t hlt), (hself.onBough _).issued, by simp [State.issued], fun _ hw => ?_, fun hle => absurd hle (Nat.not_le.mpr hlt)⟩
      simp only [State.issued, State.onBough_bough_same, true_and]
      refine ⟨nth_loopCounters_same _ hw, fun j hj => nth_loopCounters_deeper _ hj, fun j hj h6 => smFind_filter_none _ fun v => ?_⟩
      simp [hj, h6]
    · refine ⟨_, exec_issued hpres (op := opLoop) rfl (opcode_beq hop) (opLoop_ends t hge), (hself.onBough _).issued, by simp [State.issued], fun hlt => absurd hlt (Nat.not_lt.mpr hge), fun _ => ?_⟩
      simp only [State.issued, State.onBough_bough_same, true_and]
      exact fun j hj => nth_loopCounters_left _ hj
  case refine_3 =>
    refine ⟨_, ((s1.charged b 1).bough b).signalLine t w, exec_issued hpres (op := opKsig) rfl (opcode_beq hop) (opKsig_fits t (State.linesFit_one hepoch hfree)),
      ((hself.onBough _).onBough _).advance.issued, ?_, rfl, rfl, rfl, ?_⟩ <;> simp [State.issued, State.advance, State.charged, Bough.hold, Bough.onLast]
  case refine_4 =>
    obtain ⟨e, hepochs, htask, htoken, htile⟩ := (s1.bough b).openEpoch_epochs t.id s1.trunk.map.gen.toNat false
    refine ⟨_, e, exec_issued hpres (op := opKwait) rfl (opcode_beq hop) (opKwait_zero t ha hopen), (hself.onBough _).advance.issued, ?_, htask, htoken, htile, ?_⟩
    · simpa [State.issued, State.advance] using hepochs
    · simp [State.issued, State.advance, Bough.openEpoch]
  case refine_5 =>
    refine ⟨_, ((s1.charged b 1).bough b).completionLine t, exec_issued hpres (op := opEnd) rfl (opcode_beq hop) (opEnd_fits t (State.linesFit_one hepoch hfree) hprogs),
      ((hself.onBough _).onBough _).issued, ?_, ?_, ?_, rfl⟩ <;> simp [State.issued, State.charged, Bough.hold, Bough.onLast]

end Sys2Proof.Machine
end

section
/-! SUPPORT. What an operation at issue makes of its bough while it runs (R169, R173 to R177): its epochs, accumulator lines and checkpoint change, the twig stands where it stood, and the lines that were held before stay as they were, first in the buffer. -/

namespace Sys2Proof.Machine

-- At a bough.

/-- Bough `y` is `x` after parts of an operation at issue: it stands at the same operation, and lines are held behind those that `x` holds. -/
structure Bough.Ran (x y : Bough) : Prop where
  held : x.held <+: y.held
  pc : y.ck.pc = x.ck.pc
  rest : y = { x with ck := y.ck, epochs := y.epochs, held := y.held, highWater := y.highWater, acc := y.acc, pipeErr := y.pipeErr }

namespace Bough.Ran

variable {x y z : Bough}

theorem refl (x : Bough) : x.Ran x := ⟨List.prefix_rfl, rfl, rfl⟩

theorem trans (h : x.Ran y) (k : y.Ran z) : x.Ran z :=
  ⟨h.held.trans k.held, k.pc.trans h.pc, by rw [k.rest, h.rest]⟩

theorem reads (h : x.Ran y) : y.reads = x.reads := by rw [h.rest]
theorem contribs (h : x.Ran y) : y.contribs = x.contribs := by rw [h.rest]
theorem tables (h : x.Ran y) : y.tables = x.tables := by rw [h.rest]
theorem task (h : x.Ran y) : y.task = x.task := by rw [h.rest]
theorem credits (h : x.Ran y) : y.credits = x.credits := by rw [h.rest]

theorem foldl {α : Type} (h : x.Ran y) (l : List α) {f : Bough → α → Bough} (hf : ∀ z a, x.Ran z → x.Ran (f z a)) : x.Ran (l.foldl f y) := by
  induction l generalizing y with
  | nil => exact h
  | cons a r ih => exact ih (hf y a h)

/-- The present epochs changed. -/
theorem epochs (h : x.Ran y) (es : List Epoch) : x.Ran { y with epochs := es } := h.trans ⟨List.prefix_rfl, rfl, rfl⟩

theorem onLast (h : x.Ran y) (f : Epoch → Epoch) : x.Ran (y.onLast f) := h.epochs _
theorem noteRead (h : x.Ran y) (off n : Nat) : x.Ran (y.noteRead off n) := h.onLast _
theorem noteReads (h : x.Ran y) (rs : List (Nat × Nat)) : x.Ran (y.noteReads rs) := h.foldl rs fun _ r hz => hz.noteRead r.1 r.2
theorem noteOpds (h : x.Ran y) (os : List Opd) : x.Ran (y.noteOpds os) := h.foldl _ fun _ r hz => hz.noteRead r.1 r.2
theorem stat (h : x.Ran y) (e tensor : Nat) (f : TStats → TStats) : x.Ran (y.stat e tensor f) := h.epochs _
theorem failEpoch (h : x.Ran y) (e : Nat) (f : EpochFail) : x.Ran (y.failEpoch e f) := h.epochs _

theorem hold (h : x.Ran y) (ls : List HeldLine) : x.Ran (y.hold ls) := h.trans ⟨List.prefix_append _ _, rfl, rfl⟩

/-- R176: a pre-image is one more held line, or none. -/
theorem preImage (h : x.Ran y) (e t op i : Nat) : x.Ran (y.preImage e t op i) := by
  unfold Bough.preImage
  dsimp only
  split
  · exact h
  · exact h.hold _

theorem acc (h : x.Ran y) (m : SMap AccLine) : x.Ran { y with acc := m } := h.trans ⟨List.prefix_rfl, rfl, rfl⟩

theorem accInit (h : x.Ran y) (e i : Nat) (ps : List (Nat × Int × Int)) (poison : Option Nat) : x.Ran (y.accInit e i ps poison) :=
  h.trans ⟨List.prefix_rfl, rfl, rfl⟩

theorem combineLine (h : x.Ran y) (t i : Nat) (outs : List (Nat × Int × Int)) (poison : Option Nat) : x.Ran (y.combineLine t i outs poison) := by
  unfold Bough.combineLine
  dsimp only
  split
  · exact (h.preImage _ _ _ _).acc _
  · exact h.accInit _ _ _ _

theorem ck (h : x.Ran y) {k : Ckpt} (hpc : k.pc = x.ck.pc) : x.Ran { y with ck := k } :=
  ⟨h.held, hpc, congrArg (fun z : Bough => { z with ck := k }) h.rest⟩

/-- A held line changed that is none of those that `x` holds. -/
theorem modAt_held (h : x.Ran y) {i : Nat} (hi : x.held.length ≤ i) (f : HeldLine → HeldLine) : x.Ran { y with held := modAt y.held i f } := by
  refine ⟨?_, h.pc, congrArg (fun z : Bough => { z with held := modAt y.held i f }) h.rest⟩
  show x.held <+: y.held.modify i f
  rw [List.modify_eq_take_drop]
  exact (List.prefix_take_iff.mpr ⟨h.held, hi⟩).trans (List.prefix_append _ _)

/-- R173: lines joined to those that the operation has held itself. -/
theorem holdJoin (h : x.Ran y) {mark : Nat} (hmark : x.held.length ≤ mark) (t : Nat) (mk : Nat → Dest) (runs : List (Nat × List Byte)) (poison : Option Nat) :
    x.Ran (y.holdJoin mark t mk runs poison) := by
  refine h.foldl _ fun z p hz => ?_
  split
  · exact hz.modAt_held (Nat.le_add_right_of_le hmark) _
  · exact hz.hold _

end Bough.Ran

theorem Bough.noteReads_held (x : Bough) (rs : List (Nat × Nat)) : (x.noteReads rs).held = x.held :=
  List.foldlRecOn (motive := fun y : Bough => y.held = x.held) rs _ rfl fun _ h _ _ => h

-- At the state.

/-- State `t` is `s` after parts of an operation at issue on bough `b`. -/
structure Ran (b : Nat) (s t : State) : Prop where
  only : OnlyBough b s t
  bough : (s.bough b).Ran (t.bough b)

namespace Ran

variable {b : Nat} {s t u : State}

theorem refl (b : Nat) (s : State) : Ran b s s := ⟨.refl b s, .refl _⟩

theorem trans (h : Ran b s t) (k : Ran b t u) : Ran b s u := ⟨h.only.trans k.only, h.bough.trans k.bough⟩

theorem onBough (h : Ran b s t) {f : Bough → Bough} (hf : (s.bough b).Ran (f (t.bough b))) : Ran b s (t.onBough b f) :=
  ⟨h.only.onBough f, by rwa [State.onBough_bough_same]⟩

/-- Unfinished phases and contributions are those from before. -/
theorem accPending (h : Ran b s t) (i n : Nat) : t.accPending b i n = s.accPending b i n := by
  simp only [State.accPending, h.bough.contribs, h.only.leaf]

theorem noteReads (h : Ran b s t) (rs : List (Nat × Nat)) : Ran b s (t.onBough b fun x => x.noteReads rs) := h.onBough (h.bough.noteReads rs)

theorem accFault (h : Ran b s t) (l : Nat) : Ran b s (t.accFault b l) :=
  h.onBough ((h.bough.failEpoch _ _).trans ⟨List.prefix_rfl, rfl, rfl⟩)

/-- R138, R173: what an operation writes is held behind the lines held before it. -/
theorem putWritten (h : Ran b s t) (task tensor : Nat) (w : Written) (amax : Rat) (real : Bool) (poison : Option Nat) :
    Ran b s (t.putWritten b (s.bough b).held.length task tensor w amax real poison) :=
  h.onBough ((h.bough.holdJoin (Nat.le_refl _) _ _ _ _).stat _ _ _)

end Ran

theorem Bough.Ran.sapPending {x y : Bough} (h : x.Ran y) (off n : Nat) : y.sapPending off n = x.sapPending off n := by
  simp only [Bough.sapPending, h.reads]

-- Iterations and the lines of an operation (R177, R191, R200).

/-- R200: what is latched at a descriptor's first operation leaves the held lines as they are. -/
theorem State.latchExtents_ran (s : State) (b dIdx : Nat) (d : Desc) :
    IssueGives (fun r => Ran b s r.1 ∧ (r.1.bough b).held = (s.bough b).held) (s.latchExtents b dIdx d) := by
  unfold State.latchExtents
  split
  · exact issues_ok ⟨.refl b s, rfl⟩
  · refine issues_bind issues_any fun k _ => issues_bind issues_any fun m _ => issues_pure ⟨(Ran.refl b s).onBough ?_, ?_⟩
    · exact ((Bough.Ran.refl _).noteReads _).ck rfl
    · rw [State.onBough_bough_same]
      exact Bough.noteReads_held _ _

theorem State.iterate_ran (s : State) (b dIdx : Nat) (d : Desc) (shared : Nat) :
    IssueGives (fun r => Ran b s r.1 ∧ (r.1.bough b).held = (s.bough b).held) (s.iterate b dIdx d shared) :=
  issues_bind (s.latchExtents_ran b dIdx d) fun _ h => issues_bind issues_any fun _ _ => issues_bind issues_any fun _ _ => issues_pure h

end Sys2Proof.Machine
end

section
/-! SUPPORT. The iterations of STORE and of the local operations: what each leaves of the state in which its operation began, and what the whole operation leaves (R168, R173, R177). -/

namespace Sys2Proof.Machine

/-- Every iteration of a local operation that began in `s0` leaves a state that its operation may have run to. -/
def LocalBody.Runs (b : Nat) (body : LocalBody) : Prop :=
  ∀ s0 s i d n it, Ran b s0 s → IssueGives (Ran b s0) (body s i d n (s0.bough b).held.length it)

theorem combine3Body_runs (b : Nat) (t : Task) : (combine3Body b t).Runs b := by
  intro s0 s i d n it hs
  refine issues_bind issues_any fun o _ => issues_bind issues_any fun q _ => issues_guard fun _ => ?_
  dsimp only
  split
  · exact issues_pure (hs.accFault _)
  · exact issues_pure (hs.onBough ((hs.bough.foldl _ fun _ _ h => h.combineLine _ _ _ _).stat _ _ _))

theorem rescaleBody_runs (b : Nat) (t : Task) (c : Canopy) (w : OpWord) : (rescaleBody b t c w).Runs b := by
  intro s0 s i d n it hs
  refine issues_guard fun _ => issues_bind issues_any fun o _ => issues_bind issues_any fun out _ => issues_guard fun _ => ?_
  dsimp only
  split
  · exact issues_pure (hs.accFault _)
  · exact issues_pure (hs.putWritten _ _ _ _ _ _)

theorem tableBody_runs (b : Nat) (t : Task) (c : Canopy) (w : OpWord) : (tableBody b t c w).Runs b := by
  rintro s0 s dIdx d n ⟨i, num⟩ hs
  unfold tableBody
  dsimp only
  split
  · exact issues_shape
  · exact issues_bind issues_any fun a _ => issues_bind issues_any fun out _ => issues_guard fun _ =>
      issues_pure ((hs.onBough (hs.bough.noteOpds _)).putWritten _ _ _ _ _ _)

theorem cvtBody_runs (b : Nat) (t : Task) (c : Canopy) : (cvtBody b t c).Runs b := by
  intro s0 s i d n it hs
  exact issues_guard fun _ => issues_bind issues_any fun a _ => issues_bind issues_any fun out _ => issues_guard fun _ =>
    issues_pure ((hs.onBough (hs.bough.noteOpds _)).putWritten _ _ _ _ _ _)

theorem vecBody_runs (b : Nat) (t : Task) (c : Canopy) (w : OpWord) : (vecBody b t c w).Runs b := by
  intro s0 s i d n it hs
  refine issues_bind issues_any fun a _ => ?_
  refine issues_ite (fun _ => issues_bind issues_any fun y _ => ?_) fun _ => issues_bind issues_any fun y _ => ?_
  all_goals
    exact issues_bind issues_any fun out _ => issues_guard fun _ => issues_pure ((hs.onBough (hs.bough.noteOpds _)).putWritten _ _ _ _ _ _)

/-- R173: an iteration of a STORE holds its bytes behind the lines held before the operation. -/
theorem storeBody_runs {b : Nat} {s0 s : State} (hs : Ran b s0 s) (t : Task) (n elem : Nat) (i : Iter) :
    IssueGives (Ran b s0) (storeBody b (s0.bough b).held.length t n elem s i) := by
  have hheld (o : Nat) (mk : Nat → Dest) (runs : List (Nat × List Byte)) (p : Option Nat) :
      Ran b s0 (s.onBough b fun _ => ((s.bough b).noteRead o n).holdJoin (s0.bough b).held.length t.id mk runs p) :=
    hs.onBough ((hs.bough.noteRead o n).holdJoin (Nat.le_refl _) t.id mk runs p)
  unfold storeBody
  dsimp only
  split
  case h_2 => exact issues_shape
  case h_1 =>
    refine issues_ite (fun _ => issues_shape) fun _ => issues_ite (fun _ => issues_error) fun _ => ?_
    split
    · exact issues_ok (hheld _ _ _ _)
    · exact issues_map fun _ => hheld _ _ _ _
    · exact issues_shape

theorem State.storeRun_runs (s : State) (b : Nat) (t : Task) (c : Canopy) (w : OpWord) (its : List Iter) : IssueGives (Ran b s) (s.storeRun b t c w its) :=
  issues_foldlM _ _ _ ((Ran.refl b s).noteReads _) fun _ i h => storeBody_runs h t _ _ i

theorem State.localRun_runs {body : LocalBody} (hbody : body.Runs b) (s : State) (c : Canopy) (w : OpWord) (its : List Iter) :
    IssueGives (Ran b s) (s.localRun b c w its body) :=
  issues_foldlM _ _ _ ((Ran.refl b s).noteReads _) fun _ i h => hbody _ _ _ _ _ i h

-- The frame of a whole operation.

theorem State.commitLines_only {b : Nat} {s run : State} (hrun : OnlyBough b s run) (s' : State) : IssueGives (OnlyBough b s) (s'.commitLines b run) :=
  issues_bind issues_any fun _ _ => issues_pure (hrun.onBough _)

theorem State.localOp_only {b : Nat} {body : LocalBody} (hbody : body.Runs b) (s : State) (c : Canopy) (w : OpWord) : IssueGives (OnlyBough b s) (s.localOp b c w body) :=
  issues_bind (s.iterate_ran b _ _ _) fun r hr => issues_bind (State.localRun_runs hbody r.1 c w _) fun _ hrun =>
    issues_bind (State.commitLines_only (hr.1.trans hrun).only _) fun _ h => issues_pure h.advance

end Sys2Proof.Machine
end

section
/-! SUPPORT. The frame of each operation at issue (R173): which part of the state besides its own bough an operation may touch; from these O25. -/

namespace Sys2Proof.Machine

-- Operations that touch their own bough alone.

theorem OnlyBough.tryXrecv {b : Nat} {s t : State} (h : OnlyBough b s t) : OnlyBough b s (t.tryXrecv b) := by
  unfold State.tryXrecv
  split
  · split
    · exact h.onBough _
    · exact h
  · exact h

theorem OnlyBough.failXrecv {b : Nat} {s t : State} (h : OnlyBough b s t) : OnlyBough b s (t.failXrecv b) := by
  unfold State.failXrecv
  dsimp only
  split
  · split
    · exact h.onBough _
    · exact h
  · exact h

section

variable (b : Nat) (s : State) (t : Task) (c : Canopy) (w : OpWord)

theorem opNop_only : IssueGives (OnlyBough b s) (opNop b s t c w) := issues_ok (OnlyBough.refl b s).advance

theorem opStore_only : IssueGives (OnlyBough b s) (opStore b s t c w) :=
  issues_bind (s.iterate_ran b _ _ _) fun r hr => issues_bind (r.1.storeRun_runs b t c w _) fun _ hrun =>
    issues_bind (State.commitLines_only ((hr.1.trans hrun).only.onBough _) _) fun _ h => issues_pure h.advance

theorem opXsend_only : IssueGives (OnlyBough b s) (opXsend b s t c w) := by
  unfold opXsend
  dsimp only
  split
  · exact issues_shape
  · split
    · exact issues_shape
    · refine issues_bind (s.iterate_ran b _ _ _) fun r hr => ?_
      refine issues_ite (fun _ => issues_pure (hr.1.only.onBough _).advance) fun _ => issues_guard fun _ => ?_
      refine issues_bind issues_any fun a _ => issues_guard fun _ => ?_
      exact issues_bind (State.charge_only hr.1.only _) fun _ h => issues_pure (h.onBough _).advance

theorem opXrecv_only : IssueGives (OnlyBough b s) (opXrecv b s t c w) := by
  unfold opXrecv
  dsimp only
  split
  · exact issues_shape
  · refine issues_guard fun _ => issues_bind (s.iterate_ran b _ _ _) fun r hr => issues_bind issues_any fun lines _ => ?_
    refine issues_guard fun _ => issues_guard fun _ => issues_guard fun _ => issues_pure ?_
    exact (hr.1.only.onBough _).advance.tryXrecv.failXrecv

theorem opKsig_only : IssueGives (OnlyBough b s) (opKsig b s t c w) :=
  issues_bind (State.charge_only (.refl b s) 1) fun _ h => issues_pure (h.onBough _).advance

theorem opLoop_only : IssueGives (OnlyBough b s) (opLoop b s t c w) := issues_ok ((OnlyBough.refl b s).onBough _)

/-- R173: each of these operations leaves its own bough's record alone changed. -/
theorem ops_only : ∀ op ∈ [opNop, opStore, opCombine3, opRescale, opTable, opCvt, opVec, opXsend, opXrecv, opKsig, opLoop],
    IssueGives (OnlyBough b s) (op b s t c w) := by
  simp only [List.forall_mem_cons, List.not_mem_nil, false_imp_iff, implies_true, and_true]
  exact ⟨opNop_only b s t c w, opStore_only b s t c w, State.localOp_only (combine3Body_runs b t) s c w, State.localOp_only (rescaleBody_runs b t c w) s c w,
    State.localOp_only (tableBody_runs b t c w) s c w, State.localOp_only (cvtBody_runs b t c) s c w, State.localOp_only (vecBody_runs b t c w) s c w,
    opXsend_only b s t c w, opXrecv_only b s t c w, opKsig_only b s t c w, opLoop_only b s t c w⟩

end

-- FETCH: what it asks the host for is sent (R287).

/-- Only bough `b` and what is sent out differ; of the bough, a FETCH marks the reads whose requests are sent. -/
structure Asked (b : Nat) (s t : State) : Prop where
  only : OnlyBough b { s with out := t.out } t
  reads : (t.bough b).reads.length = (s.bough b).reads.length
  bough : t.bough b = { s.bough b with reads := (t.bough b).reads }

namespace Asked

variable {b : Nat} {s t u : State}

theorem refl (b : Nat) (s : State) : Asked b s s := ⟨.refl b s, rfl, rfl⟩

theorem trans (h : Asked b s t) (k : Asked b t u) : Asked b s u :=
  ⟨⟨by rw [k.only.1, h.only.1], fun b' hb => (k.only.2 b' hb).trans (h.only.2 b' hb)⟩, k.reads.trans h.reads, by rw [k.bough, h.bough]⟩

theorem foldl {α : Type} (h : Asked b s t) (l : List α) {f : State → α → State} (hf : ∀ u a, Asked b u (f u a)) : Asked b s (l.foldl f t) := by
  induction l generalizing t with
  | nil => exact h
  | cons a r ih => exact ih (h.trans (hf t a))

theorem emit (b : Nat) (s : State) (e : OutEv) : Asked b s (s.emit e) := ⟨⟨rfl, fun _ _ => rfl⟩, rfl, rfl⟩

theorem mapReads (b : Nat) (s : State) (f : PendRead → PendRead) : Asked b s (s.onBough b fun x => { x with reads := x.reads.map f }) :=
  ⟨(OnlyBough.refl b s).onBough _, by simp, by simp⟩

end Asked

theorem State.hostAsk_asked (s : State) (b f a n : Nat) (fetch : Bool) : Asked b s (s.hostAsk f a n fetch) :=
  (Asked.refl b s).foldl _ fun u _ => .emit b u _

theorem State.askRead_asked (s : State) (b : Nat) (r : PendRead) : Asked b s (s.askRead b r) := by
  unfold State.askRead
  split
  · split
    · exact .refl b s
    · exact (Asked.mapReads b s _).trans (State.hostAsk_asked _ b _ _ _ _)
  · exact .refl b s

theorem State.pumpBough_asked (s : State) (b : Nat) : Asked b s (s.pumpBough b) := (Asked.refl b s).foldl _ fun u r => u.askRead_asked b r

/-- R287: after own changes of its bough, a FETCH that pumps its reads sends and goes on. -/
theorem OnlyBough.pumped {b : Nat} {s t : State} (h : OnlyBough b s t) : OnlyBough b { s with out := (t.pumpBough b).out } (t.pumpBough b) :=
  ⟨by rw [(t.pumpBough_asked b).only.1, h.1], fun b' hb => ((t.pumpBough_asked b).only.2 b' hb).trans (h.2 b' hb)⟩

theorem opFetch_frame (b : Nat) (s : State) (t : Task) (c : Canopy) (w : OpWord) :
    IssueGives (fun u => OnlyBough b { s with out := u.out } (u.issued b)) (opFetch b s t c w) := by
  refine issues_bind (s.iterate_ran b _ _ _) fun r hr => issues_bind issues_any fun rs _ => ?_
  dsimp only
  split
  · exact issues_error
  · exact issues_error
  · exact issues_pure (hr.1.only.onBough _).pumped.advance.issued

-- DRIVE: leaves take range shifts, phases and errors; no cell, marker or role changes (R146, R195 to R208).

/-- Only bough `b` and the leaves differ, and of a leaf neither its cells nor its marker nor its role. -/
structure DriveFrame (b : Nat) (s t : State) : Prop where
  only : OnlyBough b { s with leaves := t.leaves } t
  leaf : ∀ k, (t.leaf k).cells = (s.leaf k).cells ∧ (t.leaf k).marker = (s.leaf k).marker ∧ (t.leaf k).role = (s.leaf k).role

namespace DriveFrame

variable {b : Nat} {s t u : State}

theorem of_only (h : OnlyBough b s t) : DriveFrame b s t :=
  ⟨by rw [show t.leaves = s.leaves by rw [h.1]]; exact h, fun k => by rw [h.leaf]; exact ⟨rfl, rfl, rfl⟩⟩

theorem trans (h : DriveFrame b s t) (k : DriveFrame b t u) : DriveFrame b s u := by
  refine ⟨⟨by rw [k.only.1, h.only.1], fun b' hb => (k.only.2 b' hb).trans (h.only.2 b' hb)⟩, fun i => ?_⟩
  obtain ⟨hcells, hmarker, hrole⟩ := h.leaf i
  obtain ⟨kcells, kmarker, krole⟩ := k.leaf i
  exact ⟨kcells.trans hcells, kmarker.trans hmarker, krole.trans hrole⟩

theorem onBough (h : DriveFrame b s t) (f : Bough → Bough) : DriveFrame b s (t.onBough b f) := h.trans (of_only ((OnlyBough.refl b t).onBough f))

theorem onLeaf (h : DriveFrame b s t) (k : Nat) {f : Leaf → Leaf} (hf : ∀ l, (f l).cells = l.cells ∧ (f l).marker = l.marker ∧ (f l).role = l.role) :
    DriveFrame b s (t.onLeaf k f) := by
  refine h.trans ⟨⟨rfl, fun _ _ => rfl⟩, fun j => ?_⟩
  by_cases hj : j = k
  · subst hj
    rw [State.onLeaf_leaf_same]
    exact hf _
  · rw [State.onLeaf_leaf_other t f hj]
    exact ⟨rfl, rfl, rfl⟩

theorem foldl {α : Type} (h : DriveFrame b s t) (l : List α) {f : State → α → State} (hf : ∀ u a, DriveFrame b s u → DriveFrame b s (f u a)) :
    DriveFrame b s (l.foldl f t) := by
  induction l generalizing t with
  | nil => exact h
  | cons a r ih => exact ih (hf t a h)

theorem drainContribs (h : DriveFrame b s t) : DriveFrame b s (t.drainContribs b) := by
  refine h.foldl _ fun u _ hu => ?_
  split
  · exact hu
  · exact hu.onBough _

theorem finishVector (h : DriveFrame b s t) (bad : Bool) (k : Nat) (j : PhaseJob) (p : Nat → Rat) (sig : Rat) (codes : List (List Byte)) (digits : List Byte) :
    DriveFrame b s (t.finishVector bad b k j p sig codes digits) := by
  unfold State.finishVector
  dsimp only
  split
  · exact h
  · exact (h.onBough _).drainContribs

theorem drivePhases (h : DriveFrame b s t) (p : DrivePart) : DriveFrame b s (t.drivePhases b p) := by
  unfold State.drivePhases
  split
  · split
    · exact h.finishVector _ _ _ _ _ _ _
    · exact h
  · exact (h.onLeaf _ (by intro l; exact ⟨rfl, rfl, rfl⟩)).onBough _

/-- R146, R159: at a tile's issue. -/
theorem atTile (h : DriveFrame b s t) : DriveFrame b s (t.atTile b) := by
  refine (h.onBough _).foldl _ fun u k hu => ?_
  dsimp only
  split
  · exact hu
  · exact hu.onLeaf k fun _ => ⟨rfl, rfl, rfl⟩

theorem driveGo (h : DriveFrame b s t) (task : Task) (parts : List DrivePart) (missing : List Nat) (values : List (Nat × Nat)) (n : Nat) :
    DriveFrame b s (t.driveGo b task parts missing values n) := by
  unfold State.driveGo
  dsimp only
  split
  · split
    · exact (h.onBough _).onLeaf _ (by intro l; exact ⟨rfl, rfl, rfl⟩)
    · exact h.onBough _
  · exact (((h.onBough _).onBough _).foldl _ fun _ p hu => hu.drivePhases p).drainContribs

end DriveFrame

theorem opDrive_frame (b : Nat) (s : State) (t : Task) (c : Canopy) (w : OpWord) : IssueGives (DriveFrame b s) (opDrive b s t c w) := by
  refine issues_bind (s.iterate_ran b _ _ _) fun r hr => issues_bind issues_any fun v _ => issues_bind issues_any fun p _ => ?_
  refine issues_guard fun _ => issues_guard fun _ => issues_guard fun _ => issues_guard fun _ => issues_pure ?_
  exact ((DriveFrame.of_only hr.1.only).atTile.driveGo _ _ _ _ _).onBough _

/-- Settles O25, from the frame of each operation. -/
theorem issueFrame : Obligations.IssueFrame := by
  intro b s1 s2 t c w
  refine ⟨fun op hop h => ((ops_only b s1 t c w op hop).all s2 h).issued, fun h => (opFetch_frame b s1 t c w).all s2 h, fun h => ?_⟩
  obtain ⟨honly, hleaf⟩ := (opDrive_frame b s1 t c w).all s2 h
  exact ⟨honly.issued, hleaf⟩

end Sys2Proof.Machine
end

section
/-! SUPPORT. An operation that goes on: the lines that its run filled are committed, and it is issued (R177); the readiness of an operation's iterations is kept while it runs. -/

namespace Sys2Proof.Machine

-- From a run to an issued operation.

/-- Bough `b` alone has changed from `s` to `t`; its twig stands at the same operation and holds lines behind those held before. -/
structure Grew (b : Nat) (s t : State) : Prop where
  only : OnlyBough b s t
  pc : (t.bough b).ck.pc = (s.bough b).ck.pc
  held : (s.bough b).held <+: (t.bough b).held

theorem Ran.grew {b : Nat} {s t : State} (h : Ran b s t) : Grew b s t := ⟨h.only, h.bough.pc, h.bough.held⟩

/-- The footprint of the present epoch set. -/
def State.footed (s : State) (b fp : Nat) : State := s.onBough b fun x => x.onLast fun e => { e with footprint := fp }

@[simp] theorem State.footed_held (s : State) (b fp : Nat) : ((s.footed b fp).bough b).held = (s.bough b).held := by
  rw [State.footed, State.onBough_bough_same]; rfl

@[simp] theorem State.footed_task (s : State) (b fp : Nat) : ((s.footed b fp).bough b).task = (s.bough b).task := by
  rw [State.footed, State.onBough_bough_same]; rfl

namespace Grew

variable {b : Nat} {s t : State}

theorem onBough (h : Grew b s t) {f : Bough → Bough} (hpc : (f (t.bough b)).ck.pc = (t.bough b).ck.pc) (hheld : (s.bough b).held <+: (f (t.bough b)).held) :
    Grew b s (t.onBough b f) :=
  ⟨h.only.onBough f, by rw [State.onBough_bough_same, hpc, h.pc], by rwa [State.onBough_bough_same]⟩

theorem footed (h : Grew b s t) (fp : Nat) : Grew b s (t.footed b fp) := h.onBough rfl h.held

theorem advance_pc (h : Grew b s t) : (((t.advance b).issued b).bough b).ck.pc = (s.bough b).ck.pc + 1 := by
  simp [State.issued, State.advance, h.pc]

theorem advance_held (h : Grew b s t) : (s.bough b).held <+: (((t.advance b).issued b).bough b).held := by
  simpa [State.issued, State.advance] using h.held

/-- An operation that filled `n` lines is issued. -/
theorem issued {n : Nat} (h : Grew b s t) (hlen : (t.bough b).held.length = (s.bough b).held.length + n) : Issued b n s ((t.advance b).issued b) :=
  ⟨h.only.advance.issued, h.advance_pc, h.advance_held, by simpa [State.issued, State.advance] using hlen⟩

end Grew

theorem State.commitCount_fits {s : State} {b n : Nat} (hfit : s.LinesFit b n) (run : State) : ∃ fp, s.commitCount b n run = .ok (run.footed b fp) := by
  rw [State.commitCount, State.charge_fits hfit]
  exact ⟨_, rfl⟩

/-- R177: lines that fit are committed, all those that the run filled. -/
theorem State.commitLines_fits {s run : State} {b : Nat} (hfit : s.LinesFit b (s.fills b (.ok run))) : ∃ fp, s.commitLines b run = .ok (run.footed b fp) :=
  State.commitCount_fits hfit run

theorem Grew.fills_length {b : Nat} {s t : State} (h : Grew b s t) : (t.bough b).held.length = (s.bough b).held.length + s.fills b (.ok t) :=
  (Nat.add_sub_of_le h.held.length_le).symm

-- Readiness while an operation runs.

namespace Bough.Ran

variable {x y : Bough} (h : x.Ran y)
include h

theorem waits (o : Opd) : o.waits y = o.waits x := by simp only [Opd.waits, h.sapPending]

theorem opdReady (c : Canopy) (dIdx : Nat) (i : Iter) (operand tensor n : Nat) (isRead : Bool) :
    y.opdReady c dIdx i operand tensor n isRead = x.opdReady c dIdx i operand tensor n isRead := by
  simp only [Bough.opdReady, h.waits]

theorem tableReady (c : Canopy) (w : OpWord) (n : Nat) (i : Iter) : y.tableReady c w n i = x.tableReady c w n i := by
  simp only [Bough.tableReady, h.tables, h.opdReady]

theorem cvtReady (c : Canopy) (w : OpWord) (n : Nat) (i : Iter) : y.cvtReady c w n i = x.cvtReady c w n i := by
  simp only [Bough.cvtReady, h.opdReady]

theorem vecReady (c : Canopy) (w : OpWord) (n : Nat) (i : Iter) : y.vecReady c w n i = x.vecReady c w n i := by
  simp only [Bough.vecReady, h.opdReady]

end Bough.Ran

namespace Ran

variable {b : Nat} {s t : State} (h : Ran b s t)
include h

theorem combineReady (n : Nat) (i : Iter) : t.combineReady b n i = s.combineReady b n i := by
  simp only [State.combineReady, h.accPending]

theorem rescaleReady (c : Canopy) (w : OpWord) (n : Nat) (i : Iter) : t.rescaleReady b c w n i = s.rescaleReady b c w n i := by
  simp only [State.rescaleReady, h.accPending]

theorem storeReady (task : Task) (n elem : Nat) (i : Iter) : t.storeReady b task n elem i = s.storeReady b task n elem i := by
  simp only [State.storeReady, h.bough.sapPending, h.only.func]

end Ran

-- An iteration that is ready goes on.

theorem goes_bind {α β : Type} {x : Issue α} {f : α → Issue β} {a : α} (hx : x = .ok a) (hf : ∃ u, f a = .ok u) : ∃ u, x >>= f = .ok u := by
  rwa [hx]

theorem goes_then {α : Type} {g : Prop} [Decidable g] {x y : Issue α} (hg : g) (hx : ∃ u, x = .ok u) : ∃ u, (if g then x else y) = .ok u := by
  rwa [if_pos hg]

theorem goes_else {α : Type} {g : Prop} [Decidable g] {x y : Issue α} (hg : ¬g) (hy : ∃ u, y = .ok u) : ∃ u, (if g then x else y) = .ok u := by
  rwa [if_neg hg]

theorem goes_guard {α β : Type} {g : Prop} [Decidable g] {e : Stall} {f : α → Issue β} {x : Issue β} (hg : ¬g) (hx : ∃ u, x = .ok u) :
    ∃ u, (if g then (.error e : Issue α) >>= f else x) = .ok u :=
  goes_else hg hx

theorem Bough.opdReady_iff {x : Bough} {c : Canopy} {dIdx : Nat} {i : Iter} {operand tensor n : Nat} {isRead : Bool} :
    x.opdReady c dIdx i operand tensor n isRead = true ↔ ∃ o, c.opd dIdx (c.desc dIdx) i operand tensor n = .ok o ∧ (isRead = true → o.waits x = false) := by
  simp only [Bough.opdReady, okWith_iff, Bool.not_eq_true', Bool.and_eq_false_imp]

section

variable {b : Nat} {s : State} {t : Task} {c : Canopy} {w : OpWord} {n : Nat} {i : Iter}

theorem combine3Body_goes (h : s.combineReady b n i = true) (d : Desc) (dIdx mark k : Nat) : ∃ u, combine3Body b t s dIdx d n mark (i, k) = .ok u := by
  obtain ⟨o, ho, h⟩ := okWith_iff.mp h
  obtain ⟨q, hq, h⟩ := okWith_iff.mp h
  refine goes_bind ho (goes_bind hq (goes_guard (by simpa using h) ?_))
  dsimp only
  split <;> exact ⟨_, rfl⟩

theorem rescaleBody_goes (h : s.rescaleReady b c w n i = true) (mark k : Nat) :
    ∃ u, rescaleBody b t c w s w.localDesc (c.desc w.localDesc) n mark (i, k) = .ok u := by
  simp only [State.rescaleReady, Bool.and_eq_true, decide_eq_true_eq] at h
  obtain ⟨⟨htensor, hin⟩, hout⟩ := h
  obtain ⟨o, ho, hpend⟩ := okWith_iff.mp hin
  obtain ⟨out, hout, -⟩ := okWith_iff.mp hout
  refine goes_guard (not_not.mpr htensor) (goes_bind ho (goes_bind hout (goes_guard (by simpa using hpend) ?_)))
  dsimp only
  split <;> exact ⟨_, rfl⟩

theorem tableBody_goes (h : (s.bough b).tableReady c w n i = true) (mark k : Nat) :
    ∃ u, tableBody b t c w s w.localDesc (c.desc w.localDesc) n mark (i, k) = .ok u := by
  unfold Bough.tableReady at h
  split at h
  case h_2 => cases h
  case h_1 sl hslot =>
    rw [Bool.and_eq_true, Bough.opdReady_iff, Bough.opdReady_iff] at h
    obtain ⟨⟨a, ha, hwaits⟩, ⟨out, hout, -⟩⟩ := h
    simp only [tableBody, hslot]
    exact goes_bind ha (goes_bind hout (goes_guard (by simp [hwaits]) ⟨_, rfl⟩))

theorem cvtBody_goes (h : (s.bough b).cvtReady c w n i = true) (mark k : Nat) :
    ∃ u, cvtBody b t c s w.localDesc (c.desc w.localDesc) n mark (i, k) = .ok u := by
  simp only [Bough.cvtReady, Bool.and_eq_true, decide_eq_true_eq, Bough.opdReady_iff] at h
  obtain ⟨⟨⟨hin, hto⟩, ⟨a, ha, hwaits⟩⟩, ⟨out, hout, -⟩⟩ := h
  exact goes_guard (by simp [hin, hto]) (goes_bind ha (goes_bind hout (goes_guard (by simp [hwaits]) ⟨_, rfl⟩)))

theorem vecBody_goes (h : (s.bough b).vecReady c w n i = true) (mark k : Nat) :
    ∃ u, vecBody b t c w s w.localDesc (c.desc w.localDesc) n mark (i, k) = .ok u := by
  simp only [Bough.vecReady, Bool.and_eq_true, Bool.or_eq_true, decide_eq_true_eq, Bough.opdReady_iff] at h
  obtain ⟨⟨⟨a, ha, hwaits⟩, haux⟩, ⟨out, hout, houts⟩⟩ := h
  refine goes_bind ha ?_
  by_cases hone : w.a = 6 ∨ w.a = 12 ∨ w.a = 13
  · have htwo : (!(w.a == 6 || w.a == 12 || w.a == 13)) = false := by rcases hone with h | h | h <;> simp [h]
    refine goes_else (by simp [htwo]) (goes_bind rfl (goes_bind hout (goes_guard ?_ ⟨_, rfl⟩)))
    by_cases hread : w.a = 3 ∨ w.a = 14 <;> simp_all
  · obtain ⟨y, hy, hwy⟩ := haux.resolve_left (by simpa using hone)
    have htwo : (!(w.a == 6 || w.a == 12 || w.a == 13)) = true := by simpa [and_assoc] using hone
    refine goes_then htwo (goes_bind hy (goes_bind hout (goes_guard ?_ ⟨_, rfl⟩)))
    by_cases hread : w.a = 3 ∨ w.a = 14 <;> simp_all

end

end Sys2Proof.Machine
end

section
/-! SUPPORT. FETCH, STORE, DRIVE, the exchanges, LBND and the local operations where they go on: the state that each leaves (Table 7-3, R168, R170, R174, R175, R177, R195, R209). -/

namespace Sys2Proof.Machine

theorem Grew.trans {b : Nat} {s t u : State} (h : Grew b s t) (k : Grew b t u) : Grew b s u :=
  ⟨h.only.trans k.only, k.pc.trans h.pc, h.held.trans k.held⟩

theorem State.iterate_ok {s s0 : State} {b dIdx shared : Nat} {d : Desc} {priv : List Nat} {its : List Iter} (hit : s.iterate b dIdx d shared = .ok (s0, priv, its)) :
    Ran b s s0 ∧ (s0.bough b).held = (s.bough b).held :=
  (s.iterate_ran b dIdx d shared).all _ hit

/-- R177: an operation whose iterations began in `s0` and ran to `u` is issued with the lines that they filled. -/
theorem Grew.issued_from {b : Nat} {s s0 u : State} (hbegin : Ran b s s0 ∧ (s0.bough b).held = (s.bough b).held) (hrun : Grew b s0 u) (fp : Nat) :
    Issued b (s0.fills b (.ok u)) s (((u.footed b fp).advance b).issued b) :=
  ((hbegin.1.grew.trans hrun).footed fp).issued (by rw [State.footed_held, hrun.fills_length, hbegin.2])

-- The local operations.

section

variable {b : Nat} {s s0 s1 u : State} {t : Task} {c : Canopy} {w : OpWord} {priv : List Nat} {its : List Iter} {body : LocalBody}

theorem State.localRun_goes (hbody : body.Runs b) (hgoes : ∀ s i k, Ran b s0 s → i ∈ its → i.inside = true →
      ∃ u, body s w.localDesc (c.desc w.localDesc) (c.desc w.localDesc).lastRun (s0.bough b).held.length (i, k) = .ok u) :
    ∃ u, s0.localRun b c w its body = .ok u ∧ Ran b s0 u := by
  refine foldlM_goes _ ((Ran.refl b s0).noteReads _) fun s i hi hs => ?_
  obtain ⟨hmem, hinside⟩ := List.mem_filter.mp hi
  obtain ⟨u, hu⟩ := hgoes s i.1 i.2 hs (List.fst_mem_of_mem_zipIdx hmem) hinside
  exact ⟨u, hu, (hbody _ _ _ _ _ _ hs).all u hu⟩

theorem State.localOp_fits (hit : s1.iterate b w.localDesc (c.desc w.localDesc) (w.b % 8 + 1) = .ok (s0, priv, its)) (hrun : s0.localRun b c w its body = .ok u)
    (hfit : s0.LinesFit b (s0.fills b (.ok u))) : ∃ fp, s1.localOp b c w body = .ok ((u.footed b fp).advance b) := by
  obtain ⟨fp, hcommit⟩ := State.commitLines_fits hfit
  refine ⟨fp, ?_⟩
  rw [State.localOp, hit]
  simp only [issue_ok_bind, hrun, hcommit]
  rfl

/-- A local operation whose iterations are ready and whose lines fit is issued. -/
def LocalGoes (b : Nat) (s s1 s0 : State) (c : Canopy) (w : OpWord) (its : List Iter) (cmd : Instr) (ready : Iter → Bool) (body : LocalBody) : Prop :=
  (∀ i ∈ its, i.inside = true → ready i = true) → s0.LinesFit b (s0.fills b (s0.localRun b c w its body)) →
    ∃ u, exec cmd s = .next u ∧ Issued b (s0.fills b (s0.localRun b c w its body)) s1 u

theorem localGoes_of_runs (hpres : s.Presents b s1 t c w) (hit : s1.iterate b w.localDesc (c.desc w.localDesc) (w.b % 8 + 1) = .ok (s0, priv, its))
    {cmd : Instr} {want : OpWord → Bool} {op : Nat → State → Task → Canopy → OpWord → Issue State} (hexec : exec cmd s = ok (s.issueIf b want (op b))) (hwant : want w = true)
    (hop : op b s1 t c w = s1.localOp b c w body) (hbody : body.Runs b) {ready : Iter → Bool}
    (hgoes : ∀ s i k, Ran b s0 s → ready i = true → ∃ u, body s w.localDesc (c.desc w.localDesc) (c.desc w.localDesc).lastRun (s0.bough b).held.length (i, k) = .ok u) :
    LocalGoes b s s1 s0 c w its cmd ready body := by
  intro hready hfit
  obtain ⟨u, hrun, hran⟩ := State.localRun_goes (w := w) (c := c) hbody fun s i k hs hi hin => hgoes s i k hs (hready i hi hin)
  rw [hrun] at hfit ⊢
  obtain ⟨fp, hlocal⟩ := State.localOp_fits hit hrun hfit
  exact ⟨_, exec_issued hpres hexec hwant (hop.trans hlocal), hran.grew.issued_from (State.iterate_ok hit) fp⟩

end

-- FETCH.

theorem mapM_goes {α β : Type} {P : β → Prop} {f : α → Issue β} (l : List α) (hf : ∀ a ∈ l, ∃ r, f a = .ok r ∧ P r) :
    ∃ rs, l.mapM f = .ok rs ∧ rs.length = l.length ∧ ∀ r ∈ rs, P r := by
  induction l with
  | nil => exact ⟨[], rfl, rfl, by simp⟩
  | cons a l ih =>
    obtain ⟨r, hr, hP⟩ := hf a List.mem_cons_self
    obtain ⟨rs, hrs, hlen, hPs⟩ := ih fun a ha => hf a (List.mem_cons_of_mem _ ha)
    exact ⟨r :: rs, by simp only [List.mapM_cons, hr, hrs, issue_ok_bind]; rfl, by rw [List.length_cons, List.length_cons, hlen], List.forall_mem_cons.mpr ⟨hP, hPs⟩⟩

section

variable {b : Nat} {s s0 : State} {t : Task} {c : Canopy} {w : OpWord} {priv : List Nat} {its : List Iter}

theorem State.hostRequest_master {s : State} {t : Task} (h : (s.func t.function).busMaster = true) (a : Nat) : s.hostRequest t a = .ok () := if_pos h

/-- R175, R214, R287: a ready iteration of a FETCH forms a read that nothing keeps from issuing. -/
theorem State.fetchRead_goes {n : Nat} {i : Iter} (h : s.fetchReady b t n i = true) : ∃ r, s.fetchRead b t n i = .ok r ∧ (s.bough b).fetchStalls r = [] := by
  simp only [State.fetchReady, Bool.and_eq_true] at h
  obtain ⟨⟨⟨hin, hout⟩, hdirect⟩, hsrc⟩ := h
  unfold State.fetchRead
  cases hto : i.outA <;> simp only [hto, Bool.false_eq_true] at hdirect hout
  cases hfrom : i.inA <;> simp only [hfrom, Bool.false_eq_true, Bool.and_eq_true] at hsrc hin
  case sap.hbm o a =>
    simp only [hin, hout]
    refine ⟨_, rfl, ?_⟩
    simp only [Bough.fetchStalls, Option.isNone_iff_eq_none.mp hdirect, Option.isNone_iff_eq_none.mp hsrc]
    rfl
  case sap.host o a =>
    simp only [hin, hout, State.hostRequest_master hsrc.2]
    refine ⟨_, rfl, ?_⟩
    simp only [Bough.fetchStalls, Option.isNone_iff_eq_none.mp hdirect, Option.isNone_iff_eq_none.mp hsrc.1]
    rfl

/-- The bough with the reads of a FETCH begun and its pointers' reads noted. -/
def State.fetching (s : State) (b : Nat) (rs : List PendRead) (values : List (Nat × Nat)) : State :=
  s.onBough b fun x => { (x.onLast fun e => { e with opsLeft := e.opsLeft + rs.length }).noteReads values with reads := x.reads ++ rs }

theorem opFetch_goes (hit : s.iterate b w.a (c.desc w.a) (w.b + 1) = .ok (s0, priv, its))
    (hready : ∀ i ∈ its, i.inside = true → s0.fetchReady b t (c.desc w.a).lastRun i = true) :
    ∃ rs : List PendRead, rs.length = (its.filter Iter.inside).length ∧
      opFetch b s t c w = .ok (((s0.fetching b rs (s0.valueReads b (c.desc w.a) (w.b + 1) its)).pumpBough b).advance b) := by
  obtain ⟨rs, hrs, hlen, hstalls⟩ := mapM_goes (its.filter Iter.inside) fun i hi =>
    State.fetchRead_goes (hready i (List.mem_filter.mp hi).1 (List.mem_filter.mp hi).2)
  have hnone : rs.flatMap (s0.bough b).fetchStalls = [] := List.flatMap_eq_nil_iff.mpr hstalls
  refine ⟨rs, hlen, ?_⟩
  simp only [opFetch, hit, hrs, hnone, issue_ok_bind, List.find?_nil]
  rfl

theorem State.fetching_ran (h : Ran b s s0) (rs : List PendRead) (values : List (Nat × Nat)) :
    OnlyBough b s (s0.fetching b rs values) ∧ ((s0.fetching b rs values).bough b).ck.pc = (s.bough b).ck.pc ∧
      ((s0.fetching b rs values).bough b).held = (s0.bough b).held ∧ ((s0.fetching b rs values).bough b).reads = (s0.bough b).reads ++ rs := by
  refine ⟨h.only.onBough _, ?_, ?_, ?_⟩ <;> rw [State.fetching, State.onBough_bough_same]
  · exact ((h.bough.onLast _).noteReads values).pc
  · exact Bough.noteReads_held _ _

-- STORE.

/-- R174, R287: a ready iteration of a STORE holds its bytes. -/
theorem storeBody_goes {n elem : Nat} {i : Iter} (h : s.storeReady b t n elem i = true) (mark : Nat) : ∃ u, storeBody b mark t n elem s i = .ok u := by
  simp only [State.storeReady, Bool.and_eq_true, decide_eq_true_eq] at h
  obtain ⟨⟨⟨⟨hin, hout⟩, hwhole⟩, hthere⟩, hdst⟩ := h
  unfold storeBody
  dsimp only
  cases hfrom : i.inA <;> simp only [hfrom, Bool.false_eq_true] at hthere hin
  refine goes_else (by simp [hin, hout, hwhole]) (goes_else (by simpa using hthere) ?_)
  cases hto : i.outA <;> simp only [hto, Bool.false_eq_true] at hdst
  · exact ⟨_, rfl⟩
  · simp only [State.hostRequest_master hdst]
    exact ⟨_, rfl⟩

theorem State.storeRun_goes (hready : ∀ i ∈ its, i.inside = true →
      s0.storeReady b t (c.desc w.a).lastRun (c.quant (c.desc w.a).outTensor).fmt.elemBytes i = true) :
    ∃ u, s0.storeRun b t c w its = .ok u ∧ Ran b s0 u := by
  refine foldlM_goes _ ((Ran.refl b s0).noteReads _) fun s i hi hs => ?_
  obtain ⟨hmem, hinside⟩ := List.mem_filter.mp hi
  obtain ⟨u, hu⟩ := storeBody_goes ((hs.storeReady t _ _ i).trans (hready i hmem hinside)) (s0.bough b).held.length
  exact ⟨u, hu, (storeBody_runs hs t _ _ i).all u hu⟩

/-- R214: the lines held since position `mark` named with all that their STORE writes. -/
def State.spanned (s : State) (b mark : Nat) (span : List (Nat × Nat)) : State :=
  s.onBough b fun x => { x with held := x.held.take mark ++ (x.held.drop mark).map fun h => { h with span := span } }

theorem prefix_take_append {α : Type} {l m : List α} (h : l <+: m) {k : Nat} (hk : l.length ≤ k) (r : List α) : l <+: m.take k ++ r :=
  (List.prefix_take_iff.mpr ⟨h, hk⟩).trans (List.prefix_append _ _)

theorem Grew.spanned {u : State} (h : Grew b s u) (span : List (Nat × Nat)) : Grew b s (u.spanned b (s.bough b).held.length span) :=
  h.onBough rfl (prefix_take_append h.held (Nat.le_refl _) _)

theorem State.spanned_length (s : State) (b mark : Nat) (span : List (Nat × Nat)) : ((s.spanned b mark span).bough b).held.length = (s.bough b).held.length := by
  rw [State.spanned, State.onBough_bough_same, List.length_append, List.length_map, ← List.length_append, List.take_append_drop]

theorem State.fills_congr {u v : State} (h : (v.bough b).held.length = (u.bough b).held.length) : s.fills b (.ok v) = s.fills b (.ok u) := by
  simp only [State.fills, h]

theorem opStore_goes {u : State} (hit : s.iterate b w.a (c.desc w.a) (w.b + 1) = .ok (s0, priv, its)) (hrun : s0.storeRun b t c w its = .ok u)
    (hfit : s0.LinesFit b (s0.fills b (.ok u))) :
    ∃ fp span, opStore b s t c w = .ok (((u.spanned b (s0.bough b).held.length span).footed b fp).advance b) := by
  obtain ⟨fp, hcommit⟩ := State.commitLines_fits (run := u.spanned b (s0.bough b).held.length ((its.filter Iter.inside).map fun i => (i.outA.num, (c.desc w.a).lastRun)))
    (by rwa [State.fills_congr (State.spanned_length _ _ _ _)])
  refine ⟨fp, (its.filter Iter.inside).map fun i => (i.outA.num, (c.desc w.a).lastRun), ?_⟩
  rw [opStore, hit]
  simp only [issue_ok_bind, hrun]
  exact congrArg (· >>= fun v => Except.ok (v.advance b)) hcommit

end

end Sys2Proof.Machine
end

section
/-! SUPPORT. DRIVE, XSEND and XRECV where nothing keeps them from issuing: the state that each leaves (Table 7-3, R171, R177, R199, R201, R210). -/

namespace Sys2Proof.Machine

section

variable {b : Nat} {s s0 : State} {t : Task} {c : Canopy} {w : OpWord} {priv : List Nat} {its : List Iter}

-- DRIVE.

theorem opDrive_goes {v : DriveRun} {parts : List DrivePart} {missing : List Nat} (hit : s.iterate b w.a (c.desc w.a) (c.desc w.a).driveShared = .ok (s0, priv, its))
    (hform : (s0.atTile b).driveForm b c w priv its = .ok v) (hparts : (s0.atTile b).driveParts b c w.flags v = .ok (parts, missing)) (hbare : (s0.atTile b).bareLeaves parts = [])
    (hfoot : (drivePre parts v.lc).length ≤ 2048) (hfree : (drivePre parts v.lc).length ≤ ((s0.atTile b).bough b).freeLines)
    (hopen : ((s0.atTile b).bough b).canOpen (drivePre parts v.lc).length = true) :
    opDrive b s t c w = .ok (((s0.atTile b).driveGo b t parts missing (s.valueReads b (c.desc w.a) (c.desc w.a).driveShared its) (drivePre parts v.lc).length).advance b) := by
  simp only [opDrive, hit, hform, hparts, hbare, hopen, issue_ok_bind, if_neg (Nat.not_lt.mpr hfoot), if_neg (Nat.not_lt.mpr hfree)]
  rfl

-- XSEND.

variable {r : Route} (hroute : c.routes[w.a]? = some r)
  (hit : s.iterate b (exchDesc w.b).1 (c.desc (exchDesc w.b).1) ((exchDesc w.b).2 + 1) = .ok (s0, priv, its))
include hroute hit

/-- R199, R201: an XSEND of no moves notes the reads of its values alone. -/
theorem opXsend_idle (hstaging : (r.staging b).isSome = true) (hidle : its.filter Iter.inside = [] ∨ (c.desc (exchDesc w.b).1).lastRun = 0) :
    opXsend b s t c w = .ok ((s0.onBough b fun x => x.noteReads (s0.valueReads b (c.desc (exchDesc w.b).1) ((exchDesc w.b).2 + 1) its)).advance b) := by
  obtain ⟨o, ho⟩ := Option.isSome_iff_exists.mp hstaging
  simp only [opXsend, hroute, ho, hit, issue_ok_bind]
  exact if_pos (by simpa using hidle)

/-- The lines of a transfer on route `route` (R210). -/
def Bough.xferLines (x : Bough) (t : Task) (route : Nat) (data : List Byte) (tags : List Int) (poison : Option Nat) : List HeldLine :=
  let k := ceilDiv data.length 64
  (List.range k).map fun i =>
    ({ epoch := x.here.1, task := t.id, op := x.here.2, dest := .xfer route (x.nextSeq route) i (i + 1 == k) (nth 0 tags i),
       bytes := (List.range 64).filterMap (fun p => (data[64 * i + p]?).map fun v => (p, v)), poison := poison } : HeldLine)

/-- The bough with a transfer on route `route` held, against a credit. -/
def Bough.sends (y : Bough) (route : Nat) (reads : List (Nat × Nat)) (lines : List HeldLine) : Bough :=
  { ((y.noteReads reads).hold lines).onLast (fun e => { e with sends := e.sends ++ [route] }) with credits := smUpd 0 y.credits route (· + 1) }

theorem opXsend_sends {data : List Byte} {tags : List Int} {poison : Option Nat} {reads : List (Nat × Nat)} (hstaging : (r.staging b).isSome = true)
    (hmoves : its.filter Iter.inside ≠ []) (hn : (c.desc (exchDesc w.b).1).lastRun ≠ 0) (hcredit : smGet 0 (s0.bough b).credits w.a < r.depth)
    (hdata : s0.sendData b r.halo (its.filter Iter.inside) (c.desc (exchDesc w.b).1).lastRun = .ok (data, tags, poison, reads))
    (hbuffer : 64 * ceilDiv data.length 64 + (if r.halo then 0 else tags.length) ≤ r.bufferBytes) (hfit : s0.LinesFit b (ceilDiv data.length 64)) :
    ∃ values, opXsend b s t c w = .ok (((s0.charged b (ceilDiv data.length 64)).onBough b fun x =>
      x.sends w.a values ((s0.bough b).xferLines t w.a data tags poison)).advance b) := by
  obtain ⟨o, ho⟩ := Option.isSome_iff_exists.mp hstaging
  have hgo : (its.filter Iter.inside).isEmpty = false ∧ ((c.desc (exchDesc w.b).1).lastRun == 0) = false := by simp_all
  refine ⟨s0.valueReads b (c.desc (exchDesc w.b).1) ((exchDesc w.b).2 + 1) its ++ reads, ?_⟩
  simp only [opXsend, hroute, ho, hit, hgo, hdata, issue_ok_bind, if_neg (Nat.not_le.mpr hcredit), if_neg (Nat.not_lt.mpr hbuffer), State.charge_fits hfit]
  rfl

-- XRECV.

theorem opXrecv_goes {lines : List Nat} (hrecv : r.receiver = b) (hlines : xrecvLines r (its.filter Iter.inside) (c.desc (exchDesc w.b).1).lastRun = .ok lines)
    (hfoot : lines.eraseDups.length ≤ 2048) (hbuffer : 65 * lines.length ≤ r.bufferBytes) (hfree : lines.eraseDups.length ≤ (s0.bough b).freeLines)
    (hopen : (s0.bough b).canOpen lines.eraseDups.length = true) :
    opXrecv b s t c w = .ok ((((s0.xrecvOpen b t (s0.valueReads b (c.desc (exchDesc w.b).1) ((exchDesc w.b).2 + 1) its)
      (if (its.filter Iter.inside).isEmpty || (c.desc (exchDesc w.b).1).lastRun == 0 then none else some (w.a, (c.desc (exchDesc w.b).1).outTensor)) lines).advance b).tryXrecv b).failXrecv b) := by
  have hshape : (decide (2048 < lines.eraseDups.length) || decide (r.bufferBytes < 65 * lines.length)) = false := by simp; omega
  simp only [opXrecv, hroute, hit, hlines, hopen, issue_ok_bind, hshape, if_neg (Nat.not_lt.mpr hfree), if_neg (not_not.mpr hrecv)]
  rfl

end

end Sys2Proof.Machine
end

section
/-! SUPPORT. FETCH, STORE, XSEND and LBND issued: what each leaves of its bough (R168, R170, R174, R175, R210). -/

namespace Sys2Proof.Machine

/-- The state behind a layer boundary, before any drain begins. -/
def State.atLayer (s : State) (b : Nat) : State := (s.advance b).onBough b fun x => { x with layer := x.layer + 1 }

theorem State.atLayer_bough (s : State) (b : Nat) :
    (s.atLayer b).bough b = { s.bough b with ck := { (s.bough b).ck with pc := (s.bough b).ck.pc + 1 }, layer := (s.bough b).layer + 1 } := by
  rw [State.atLayer, State.advance, State.onBough_bough_same, State.onBough_bough_same]

theorem opLbnd_goes {b : Nat} {s : State} {t : Task} {c : Canopy} {w : OpWord} (hprogs : ∀ p ∈ s.trunk.progs, p.2.bough ≠ b ∨ p.2.step ≠ 10) :
    opLbnd b s t c w = .ok (if (s.bough b).wantsYield ∨ (s.bough b).logicStop ∨ s.bud.power = .entering then (s.atLayer b).onBough b fun x => { x with draining := true } else s.atLayer b) := by
  have hyield : ((s.atLayer b).bough b).wantsYield = (s.bough b).wantsYield := by rw [State.atLayer_bough]; rfl
  have hlogic : ((s.atLayer b).bough b).logicStop = (s.bough b).logicStop := by rw [State.atLayer_bough]
  rw [← hyield, ← hlogic]
  rw [opLbnd, State.applySwaps_none hprogs]
  rfl

section

variable {b : Nat} {s s0 s1 : State} {t : Task} {c : Canopy} {w : OpWord} {priv : List Nat} {its : List Iter} (hpres : s.Presents b s1 t c w)
include hpres

/-- R175: a FETCH whose iterations are ready begins a read for each that lies inside the extents. -/
theorem fetch_issues (hop : w.opcode = 0x01) (hit : s1.iterate b w.a (c.desc w.a) (w.b + 1) = .ok (s0, priv, its))
    (hready : ∀ i ∈ its, i.inside = true → s0.fetchReady b t (c.desc w.a).lastRun i = true) :
    ∃ u, exec (.fetch b) s = .next u ∧ OnlyBough b { s1 with out := u.out } u ∧ (u.bough b).ck.pc = (s1.bough b).ck.pc + 1 ∧ (u.bough b).held = (s1.bough b).held ∧
      (u.bough b).reads.length = (s1.bough b).reads.length + (its.filter Iter.inside).length := by
  obtain ⟨rs, hlen, hfetch⟩ := opFetch_goes hit hready
  obtain ⟨hran, hheld⟩ := State.iterate_ok hit
  obtain ⟨honly, hpc, hheld', hreads⟩ := State.fetching_ran hran rs (s0.valueReads b (c.desc w.a) (w.b + 1) its)
  have hasked := State.pumpBough_asked (s0.fetching b rs (s0.valueReads b (c.desc w.a) (w.b + 1) its)) b
  refine ⟨_, exec_issued hpres (op := opFetch) rfl (opcode_beq hop) hfetch, honly.pumped.advance.issued, ?_, ?_, ?_⟩ <;>
    simp only [State.issued, State.advance, State.onBough_bough_same]
  · rw [hasked.bough, hpc]
  · rw [hasked.bough, hheld', hheld]
  · rw [hasked.reads, hreads, List.length_append, hlen, hran.bough.reads]

/-- R174: a STORE whose iterations are ready and whose lines fit holds them. -/
theorem store_issues (hop : w.opcode = 0x02) (hit : s1.iterate b w.a (c.desc w.a) (w.b + 1) = .ok (s0, priv, its))
    (hready : ∀ i ∈ its, i.inside = true → s0.storeReady b t (c.desc w.a).lastRun (c.quant (c.desc w.a).outTensor).fmt.elemBytes i = true)
    (hfit : s0.LinesFit b (s0.fills b (s0.storeRun b t c w its))) :
    ∃ u, exec (.store b) s = .next u ∧ Issued b (s0.fills b (s0.storeRun b t c w its)) s1 u := by
  obtain ⟨u, hrun, hran⟩ := State.storeRun_goes hready
  rw [hrun] at hfit ⊢
  obtain ⟨fp, span, hstore⟩ := opStore_goes hit hrun hfit
  refine ⟨_, exec_issued hpres (op := opStore) rfl (opcode_beq hop) hstore, ?_⟩
  rw [← State.fills_congr (State.spanned_length u b (s0.bough b).held.length span)]
  exact (hran.grew.spanned span).issued_from (State.iterate_ok hit) fp

section

variable {r : Route} (hop : w.opcode = 0x0A) (hroute : c.routes[w.a]? = some r) (hstaging : (r.staging b).isSome = true)
  (hit : s1.iterate b (exchDesc w.b).1 (c.desc (exchDesc w.b).1) ((exchDesc w.b).2 + 1) = .ok (s0, priv, its))
include hop hroute hstaging hit

theorem xsend_idle_issues (hidle : its.filter Iter.inside = [] ∨ (c.desc (exchDesc w.b).1).lastRun = 0) :
    ∃ u, exec (.xsend b) s = .next u ∧ Issued b 0 s1 u ∧ (u.bough b).credits = (s1.bough b).credits := by
  obtain ⟨hran, hheld⟩ := State.iterate_ok hit
  have hnoted := hran.noteReads (s0.valueReads b (c.desc (exchDesc w.b).1) ((exchDesc w.b).2 + 1) its)
  refine ⟨_, exec_issued hpres (op := opXsend) rfl (opcode_beq hop) (opXsend_idle hroute hit hstaging hidle), hnoted.grew.issued ?_, ?_⟩
  · rw [State.onBough_bough_same, Bough.noteReads_held, hheld, Nat.add_zero]
  · simpa [State.issued, State.advance] using hnoted.bough.credits

theorem xsend_issues {data : List Byte} {tags : List Int} {poison : Option Nat} {reads : List (Nat × Nat)}
    (hmoves : its.filter Iter.inside ≠ []) (hn : (c.desc (exchDesc w.b).1).lastRun ≠ 0) (hcredit : smGet 0 (s0.bough b).credits w.a < r.depth)
    (hdata : s0.sendData b r.halo (its.filter Iter.inside) (c.desc (exchDesc w.b).1).lastRun = .ok (data, tags, poison, reads))
    (hbuffer : 64 * ceilDiv data.length 64 + (if r.halo then 0 else tags.length) ≤ r.bufferBytes) (hfit : s0.LinesFit b (ceilDiv data.length 64)) :
    ∃ u, exec (.xsend b) s = .next u ∧ Issued b (ceilDiv data.length 64) s1 u ∧ smGet 0 (u.bough b).credits w.a = smGet 0 (s1.bough b).credits w.a + 1 := by
  obtain ⟨hran, hheld⟩ := State.iterate_ok hit
  obtain ⟨values, hsend⟩ := opXsend_sends (t := t) hroute hit hstaging hmoves hn hcredit hdata hbuffer hfit
  have hcharged : Ran b s1 (s0.charged b (ceilDiv data.length 64)) := hran.onBough (hran.bough.onLast _)
  have hlines (x : Bough) : ((x.sends w.a values ((s0.bough b).xferLines t w.a data tags poison)).held) = x.held ++ (s0.bough b).xferLines t w.a data tags poison :=
    congrArg (· ++ _) (Bough.noteReads_held x values)
  have hcharge : ((s0.charged b (ceilDiv data.length 64)).bough b).held = (s0.bough b).held := by rw [State.charged, State.onBough_bough_same]; rfl
  refine ⟨_, exec_issued hpres (op := opXsend) rfl (opcode_beq hop) hsend, (hcharged.grew.onBough ?_ ?_).issued ?_, ?_⟩
  · exact ((Bough.Ran.refl _).noteReads values).pc
  · rw [hlines]
    exact hcharged.bough.held.trans (List.prefix_append _ _)
  · rw [State.onBough_bough_same, hlines, hcharge, hheld, List.length_append]
    simp [Bough.xferLines]
  · simp [State.issued, State.advance, Bough.sends, smGet_upd_same, hcharged.bough.credits]

end

/-- R170: a layer boundary counts a layer, and the drain that waits for one begins (R186). -/
theorem lbnd_issues (hop : w.opcode = 0x0F) (hprogs : ∀ p ∈ s1.trunk.progs, p.2.bough ≠ b ∨ p.2.step ≠ 10) :
    ∃ u, exec (.lbnd b) s = .next u ∧ Issued b 0 s1 u ∧ (u.bough b).layer = (s1.bough b).layer + 1 ∧
      (u.bough b).draining = ((s1.bough b).draining || (s1.bough b).wantsYield || (s1.bough b).logicStop || decide (s1.bud.power = .entering)) := by
  refine ⟨_, exec_issued hpres (op := opLbnd) rfl (opcode_beq hop) (opLbnd_goes hprogs), ?_⟩
  have honly : OnlyBough b s1 (s1.atLayer b) := (OnlyBough.refl b s1).advance.onBough _
  split
  case isTrue hdrain =>
    refine ⟨⟨(honly.onBough _).issued, ?_, ?_, ?_⟩, ?_, ?_⟩ <;> simp only [State.issued, State.onBough_bough_same, State.atLayer_bough, List.prefix_rfl, Nat.add_zero]
    rcases hdrain with h | h | h <;> simp [h]
  case isFalse hstay =>
    obtain ⟨hyield, hlogic, hpower⟩ : _ ∧ _ ∧ _ := by simpa only [not_or, Bool.not_eq_true] using hstay
    refine ⟨⟨honly.issued, ?_, ?_, ?_⟩, ?_, ?_⟩ <;> simp only [State.issued, State.onBough_bough_same, State.atLayer_bough, List.prefix_rfl, Nat.add_zero]
    simp [hyield, hlogic, hpower]

end

end Sys2Proof.Machine
end

section
/-! SUPPORT. CONE where its weights lie in good HBM: its iterations go on and fault nothing (R118 to R120, R156, R157, R214). -/

namespace Sys2Proof.Machine

-- Reads of HBM and its uncorrectable words.

theorem OnlyBough.firstUe {b : Nat} {s t : State} (h : OnlyBough b s t) (a n : Nat) : t.firstUe a n = s.firstUe a n := by
  simp only [State.firstUe, h.stand, h.hbmBad]

theorem OnlyBough.hbmGood {b : Nat} {s t : State} (h : OnlyBough b s t) (hgood : s.HbmGood) : t.HbmGood := fun a n => (h.firstUe a n).trans (hgood a n)

/-- R319: in good HBM a read is noted at most in its own bough. -/
theorem Ran.noteAt {b : Nat} {s t : State} (h : Ran b s t) (hgood : s.HbmGood) (a : Addr) (n : Nat) :
    Ran b s (t.noteAt b a n) ∧ ((t.noteAt b a n).bough b).held = (t.bough b).held := by
  unfold State.noteAt
  split
  · exact ⟨h.onBough (h.bough.noteRead _ _), by rw [State.onBough_bough_same]; rfl⟩
  · rw [h.only.hbmGood hgood]
    exact ⟨h, rfl⟩
  · exact ⟨h, rfl⟩

-- Held writes that a read of HBM meets (R214).

/-- Held line `h` writes a byte of the range, or belongs to a STORE that does. -/
def HeldLine.meets (h : HeldLine) (mk : Nat → Dest) (off n : Nat) : Bool :=
  (h.span.any (rangesMeet (off, n)) && (match h.dest, mk 0 with | .hbm _, .hbm _ | .host _, .host _ => true | _, _ => false)) ||
    (linesTouched [(off, n)]).any fun l => decide (h.dest = mk l) && h.bytes.any fun p => decide (off ≤ 64 * l + p.1 ∧ 64 * l + p.1 < off + n)

theorem Bough.heldRange_none_iff (x : Bough) (mk : Nat → Dest) (off n : Nat) : x.heldRange mk off n = none ↔ ∀ h ∈ x.held, ¬h.meets mk off n = true := by
  rw [← List.filter_eq_nil_iff]
  by_cases he : x.held.filter (·.meets mk off n) = []
  · exact iff_of_true (if_pos (List.isEmpty_iff.mpr he)) he
  · exact iff_of_false (fun h => Option.some_ne_none _ ((if_neg (mt List.isEmpty_iff.mp he)).symm.trans h)) he

theorem HeldLine.meets_sap {h : HeldLine} {l : Nat} (hdest : h.dest = .sap l) (off n : Nat) : ¬h.meets .hbm off n = true := by
  simp [HeldLine.meets, hdest]

/-- The lines from position `n` on are sapwood's. -/
def Bough.SapFrom (y : Bough) (n : Nat) : Prop := ∀ k h, n ≤ k → y.held[k]? = some h → ∃ l, h.dest = .sap l

theorem Bough.Ran.heldRange_none {x y : Bough} (h : x.Ran y) (hsap : y.SapFrom x.held.length) {off n : Nat} (hnone : x.heldRange .hbm off n = none) :
    y.heldRange .hbm off n = none := by
  rw [Bough.heldRange_none_iff] at hnone ⊢
  intro v hv
  obtain ⟨k, hk, rfl⟩ := List.mem_iff_getElem.mp hv
  by_cases hlt : k < x.held.length
  · rw [← h.held.getElem hlt]
    exact hnone _ (List.getElem_mem hlt)
  · obtain ⟨l, hl⟩ := hsap k _ (Nat.not_lt.mp hlt) (List.getElem?_eq_getElem hk)
    exact HeldLine.meets_sap hl off n

theorem Bough.SapFrom.holdJoin {y : Bough} {n mark : Nat} (h : y.SapFrom n) (t : Nat) (runs : List (Nat × List Byte)) (poison : Option Nat) :
    (y.holdJoin mark t .sap runs poison).SapFrom n := by
  refine List.foldlRecOn (motive := fun z : Bough => z.SapFrom n) _ _ h fun z hz p _ => ?_
  split
  · intro k v hk hv
    simp only [modAt, List.getElem?_modify, Option.map_eq_map, Option.map_eq_some_iff] at hv
    obtain ⟨u, hu, rfl⟩ := hv
    obtain ⟨l, hl⟩ := hz k u hk hu
    exact ⟨l, by split <;> exact hl⟩
  · intro k v hk hv
    rw [Bough.hold, List.getElem?_append] at hv
    split at hv
    · exact hz k v hk hv
    · rw [List.mem_singleton.mp (List.mem_of_getElem? hv)]
      exact ⟨p.1, rfl⟩

/-- What CONE leaves while it runs: its iterations hold lines of sapwood alone. -/
structure ConeRan (b : Nat) (s t : State) : Prop where
  ran : Ran b s t
  sap : (t.bough b).SapFrom (s.bough b).held.length

namespace ConeRan

variable {b : Nat} {s t : State}

theorem of_held (h : Ran b s t) (hheld : (t.bough b).held = (s.bough b).held) : ConeRan b s t :=
  ⟨h, fun k v hk hv => by rw [hheld, List.getElem?_eq_none hk] at hv; cases hv⟩

theorem same (h : ConeRan b s t) {u : State} (k : Ran b s u) (hheld : (u.bough b).held = (t.bough b).held) : ConeRan b s u :=
  ⟨k, fun i v hi hv => h.sap i v hi (hheld ▸ hv)⟩

theorem putWritten (h : ConeRan b s t) (task tensor : Nat) (w : Written) (amax : Rat) (real : Bool) (poison : Option Nat) :
    ConeRan b s (t.putWritten b (s.bough b).held.length task tensor w amax real poison) := by
  refine ⟨h.ran.putWritten _ _ _ _ _ _, ?_⟩
  rw [State.putWritten, State.onBough_bough_same]
  exact h.sap.holdJoin _ _ _

theorem coneRange_ok (h : ConeRan b s t) {a : Addr} {n : Nat} (hok : s.coneRange b a n = .ok ()) : t.coneRange b a n = .ok () := by
  unfold State.coneRange at hok ⊢
  by_cases hn : n = 0
  · rw [if_pos hn]
  · rw [if_neg hn] at hok ⊢
    by_cases hroom : (!a.room n) = true
    · rw [if_pos hroom] at hok
      cases hok
    · rw [if_neg hroom] at hok ⊢
      cases a
      case hbm o =>
        have hnone : (s.bough b).heldRange .hbm o n = none := by
          cases hheld : (s.bough b).heldRange .hbm o n with
          | none => rfl
          | some own => simp only [hheld] at hok; split at hok <;> cases hok
        simp only [h.ran.bough.heldRange_none h.sap hnone]
      case sap o => simpa only [h.ran.bough.sapPending] using hok
      all_goals exact hok

end ConeRan

end Sys2Proof.Machine
end

section
/-! SUPPORT. One iteration of CONE, and the whole operation, where its blocks are well formed (R120, R156, R157). -/

namespace Sys2Proof.Machine

-- The blocks.

theorem coneBlock_good {st : Rat} {hdr : Word} {codes side : List Nat} (h : (coneDecode st (hdr &&& 0x3FF#32) codes side).isSome = true) (xs : List Int) (ex : Int) (y : Rat × Nat) :
    (coneBlock st hdr codes side xs ex y).2 = true := by
  obtain ⟨l, hl⟩ := Option.isSome_iff_exists.mp h
  simp only [coneBlock, hl]
  split
  · rfl
  · split <;> rfl

/-- One output of CONE: the running sum over the blocks of its row, and those of them that are malformed (R120, R157). -/
def State.coneOut (s : State) (b : Nat) (d : Desc) (i : Iter) (cp : Companion) (st : Rat) (xs : List (Int × Int)) (nb j : Nat) : (Rat × Nat) × List Int :=
  (List.range nb).foldl (fun (y : (Rat × Nat) × List Int) m =>
    let e := d.coneFirst i + (nb * j + m : Nat)
    let (hdr, codes, side) := s.coneBlockAt b d i cp e
    let part := (List.range 32).map fun u => (nth (0, 0) xs (32 * m + u)).1
    let ex := (nth (0, 0) xs (32 * m)).2
    let (z, good) := coneBlock st hdr codes side part ex y.1
    (z, if good then y.2 else y.2 ++ [e])) ((0, 0), [])

/-- Block `m` of an iteration is well formed (R120). -/
def State.coneGood (s : State) (b : Nat) (d : Desc) (i : Iter) (cp : Companion) (st : Rat) (m : Nat) : Bool :=
  let r := s.coneBlockAt b d i cp (d.coneFirst i + (m : Nat))
  (coneDecode st (r.1 &&& 0x3FF#32) r.2.1 r.2.2).isSome

section

variable {b : Nat} {s t : State} {d : Desc} {i : Iter} {cp : Companion} {st : Rat} {nb n : Nat}

theorem State.coneOut_good {j : Nat} (xs : List (Int × Int)) (hj : j < n) (hgood : ∀ m < nb * n, s.coneGood b d i cp st m = true) : (s.coneOut b d i cp st xs nb j).2 = [] := by
  refine List.foldlRecOn (motive := fun y : (Rat × Nat) × List Int => y.2 = []) _ _ rfl fun y hy m hm => ?_
  have hlt : nb * j + m < nb * n := by
    calc nb * j + m < nb * j + nb := Nat.add_lt_add_left (List.mem_range.mp hm) _
      _ = nb * (j + 1) := (Nat.mul_succ nb j).symm
      _ ≤ nb * n := Nat.mul_le_mul_left nb hj
  exact (if_pos (coneBlock_good (hgood _ hlt) _ _ _)).trans hy

theorem State.coneOuts_good (xs : List (Int × Int)) (hgood : ∀ m < nb * n, s.coneGood b d i cp st m = true) :
    ((List.range n).map fun j => s.coneOut b d i cp st xs nb j).flatMap (·.2) = [] := by
  refine List.flatMap_eq_nil_iff.mpr fun y hy => ?_
  obtain ⟨j, hj, rfl⟩ := List.mem_map.mp hy
  exact State.coneOut_good xs (List.mem_range.mp hj) hgood

theorem Addr.at_hbm (a : Nat) (k : Int) : (∃ o, (Addr.hbm a).at k = .hbm o) ∨ (Addr.hbm a).at k = .bad := by
  simp only [Addr.at, Addr.add]
  split
  · exact .inl ⟨_, rfl⟩
  · exact .inr rfl

/-- Weights in HBM stay while an operation runs. -/
theorem OnlyBough.bytesAt_hbm (h : OnlyBough b s t) (a : Nat) (k : Int) (n : Nat) : t.bytesAt b ((Addr.hbm a).at k) n = s.bytesAt b ((Addr.hbm a).at k) n := by
  rcases Addr.at_hbm a k with ⟨o, ho⟩ | ho <;> simp only [ho, State.bytesAt, State.hbmBytes, h.hbm]

theorem OnlyBough.coneGood (h : OnlyBough b s t) {a : Nat} (haux : i.auxA = .hbm a) (m : Nat) : t.coneGood b d i cp st m = s.coneGood b d i cp st m := by
  simp only [State.coneGood, State.coneBlockAt, haux, h.bytesAt_hbm]

end

-- One iteration.

theorem forM_goes {α : Type} {f : α → Issue Unit} (l : List α) (hf : ∀ a ∈ l, f a = .ok ()) : l.forM f = .ok () := by
  induction l with
  | nil => rfl
  | cons a r ih =>
    rw [List.forM, hf a List.mem_cons_self]
    exact ih fun a ha => hf a (List.mem_cons_of_mem _ ha)

/-- The bough behind an iteration of CONE that met the malformed blocks `bad` (R120). -/
def Bough.coneEnds (x : Bough) (w : OpWord) (bad : List Int) : Bough :=
  { x.onLast (fun e => { e with badBlocks := e.badBlocks + bad.length }) with
      task := x.task.map fun (t : Task) => match bad, t.fault with
        | m :: _, none => { t with fault := some { cause := .badBlock, detail := wordOf (at_ w.a 20 + m.toNat % 2 ^ 20), opIndex := x.ck.pc } }
        | _, _ => t }

theorem Bough.Ran.coneEnds {x y : Bough} (h : x.Ran y) (w : OpWord) : x.Ran (y.coneEnds w []) := by
  have hends : y.coneEnds w [] = y.onLast fun e => { e with badBlocks := e.badBlocks + 0 } := by
    simp only [Bough.coneEnds, Option.map_id']
    rfl
  rw [hends]
  exact h.onLast _

theorem ConeRan.ends {b : Nat} {s t : State} (h : ConeRan b s t) (w : OpWord) : ConeRan b s (t.onBough b fun x => x.coneEnds w []) :=
  h.same (h.ran.onBough (h.ran.bough.coneEnds w)) (by rw [State.onBough_bough_same]; rfl)

section

variable {b : Nat} {s s0 : State} {t : Task} {c : Canopy} {w : OpWord} {n : Nat} {i : Iter}

theorem State.coneReady_iff : s.coneReady b t c w n i = true ↔
    coneFormat (c.quant (c.desc w.localDesc).inTensor).fmt = true ∧
    (∃ o, c.opd w.localDesc (c.desc w.localDesc) i 0 (c.desc w.localDesc).inTensor (i.extK.getD 0) = .ok o ∧ o.waits (s.bough b) = false) ∧ (∃ out, fp32Opd i.outA n = .ok out) ∧ (∃ a, i.auxA = .hbm a) ∧
    ∃ cp, c.companion w.localDesc 2 = some cp ∧ (∀ a ∈ coneAreas (c.desc w.localDesc) i cp (ceilDiv (i.extK.getD 0) 32) n, s.coneRange b a.1 a.2 = .ok ()) ∧
      ∀ m < ceilDiv (i.extK.getD 0) 32 * n, s.coneGood b (c.desc w.localDesc) i cp (f32val (t.scale c w.a).s) m = true := by
  have hunit (r : Issue Unit) : okWith r (fun _ => true) = true ↔ r = .ok () := by cases r <;> simp [okWith]
  have haux : (match i.auxA with | .hbm _ => true | _ => false) = true ↔ ∃ a, i.auxA = .hbm a := by cases i.auxA <;> simp
  simp only [State.coneReady, Bool.and_eq_true, and_assoc, Bough.opdReady_iff, true_imp_iff]
  refine and_congr_right' (and_congr_right' (and_congr (by simp [okWith_iff]) (and_congr haux ?_)))
  cases c.companion w.localDesc 2 with
  | none => simp
  | some cp => simp [hunit, State.coneGood]

theorem coneBody_goes (hs : ConeRan b s0 s) (hhbm : s0.HbmGood) (hready : s0.coneReady b t c w n i = true) (k : Nat) :
    ∃ u, coneBody b t c w s w.localDesc (c.desc w.localDesc) n (s0.bough b).held.length (i, k) = .ok u ∧ ConeRan b s0 u := by
  obtain ⟨hformat, ⟨o, ho, hwaits⟩, ⟨out, hout⟩, ⟨a, haux⟩, cp, hcp, hareas, hblocks⟩ := State.coneReady_iff.mp hready
  have hgood (m : Nat) (hm : m < ceilDiv (i.extK.getD 0) 32 * n) : s.coneGood b (c.desc w.localDesc) i cp (f32val (t.scale c w.a).s) m = true :=
    (hs.ran.only.coneGood haux m).trans (hblocks m hm)
  have hbad := State.coneOuts_good (o.coneInput (s.bough b)).1 hgood
  have hranges := forM_goes (f := fun a : Addr × Nat => s.coneRange b a.1 a.2) _ fun a ha => hs.coneRange_ok (hareas a ha)
  simp only [coneBody, hformat, ho, hout, hcp, hranges, hs.ran.bough.waits, hwaits, issue_ok_bind]
  refine ⟨_, rfl, ?_⟩
  have hnoted := hs.ran.onBough (f := fun x => x.noteOpds [o]) (hs.ran.bough.noteOpds [o])
  have hcodes := hnoted.noteAt hhbm i.auxA (16 * ceilDiv (i.extK.getD 0) 32 * n)
  have hheads := hcodes.1.noteAt hhbm (i.auxA.at ((c.desc w.localDesc).baseOf i 2 + cp.compDisp + 4 * (c.desc w.localDesc).coneFirst i)) (4 * ceilDiv (i.extK.getD 0) 32 * n)
  have hput := (hs.same hheads.1 (hheads.2.trans (hcodes.2.trans (by rw [State.onBough_bough_same]; exact Bough.noteReads_held _ _)))).putWritten
  change ConeRan b s0 (State.onBough _ b fun x => x.coneEnds w
    (((List.range n).map fun j => s.coneOut b (c.desc w.localDesc) i cp (f32val (t.scale c w.a).s) (o.coneInput (s.bough b)).1 (ceilDiv (i.extK.getD 0) 32) j).flatMap (·.2)))
  rw [hbad]
  exact (hput _ _ _ _ _ _).ends w

-- The whole operation.

theorem coneRun_goes {its : List Iter} (hhbm : s0.HbmGood) (hready : ∀ i ∈ its, i.inside = true → s0.coneReady b t c w (c.desc w.localDesc).lastRun i = true) :
    ∃ u, s0.localRun b c w its (coneBody b t c w) = .ok u ∧ ConeRan b s0 u := by
  have hvalues := (Ran.refl b s0).noteReads (s0.valueReads b (c.desc w.localDesc) (w.b % 8 + 1) its)
  refine foldlM_goes _ (ConeRan.of_held hvalues (by rw [State.onBough_bough_same]; exact Bough.noteReads_held _ _)) fun s i hi hs => ?_
  obtain ⟨hmem, hinside⟩ := List.mem_filter.mp hi
  exact coneBody_goes hs hhbm (hready i.1 (List.fst_mem_of_mem_zipIdx hmem) hinside) i.2

/-- R156: a task without a fault goes on behind its CONE. -/
theorem opCone_goes {u : State} (hlocal : s.localOp b c w (coneBody b t c w) = .ok u) (htask : ∀ y, (u.bough b).task = some y → y.fault = none) :
    opCone b s t c w = .ok u := by
  simp only [opCone, hlocal, issue_ok_bind]
  cases hu : (u.bough b).task with
  | none => rfl
  | some y =>
    cases y
    cases htask _ hu
    rfl

theorem cone_issues {s1 : State} {priv : List Nat} {its : List Iter} (hpres : s.Presents b s1 t c w) (hop : w.opcode = 0x09)
    (hit : s1.iterate b w.localDesc (c.desc w.localDesc) (w.b % 8 + 1) = .ok (s0, priv, its)) (hhbm : s0.HbmGood) (htask : ∀ y, (s1.bough b).task = some y → y.fault = none) :
    LocalGoes b s s1 s0 c w its (.cone b) (s0.coneReady b t c w (c.desc w.localDesc).lastRun) (coneBody b t c w) := by
  intro hready hfit
  obtain ⟨u, hrun, hran⟩ := coneRun_goes hhbm hready
  have hbegin := State.iterate_ok hit
  rw [hrun] at hfit ⊢
  obtain ⟨fp, hlocal⟩ := State.localOp_fits hit hrun hfit
  have hsame : (((u.footed b fp).advance b).bough b).task = (s1.bough b).task := by
    rw [State.advance, State.onBough_bough_same]
    exact (State.footed_task u b fp).trans (hran.ran.bough.task.trans hbegin.1.bough.task)
  exact ⟨_, exec_issued hpres (op := opCone) rfl (opcode_beq hop) (opCone_goes hlocal (by rwa [hsame])), hran.ran.grew.issued_from hbegin fp⟩

end

end Sys2Proof.Machine
end

section
/-! SUPPORT. The graft functions where nothing keeps them from issuing: what they hold, and that they fault nothing (R238, R239, R243 to R245). -/

namespace Sys2Proof.Machine

-- What the calls hold.

theorem Bough.Ran.ite {x y z : Bough} {p : Prop} [Decidable p] (hy : x.Ran y) (hz : x.Ran z) : x.Ran (if p then y else z) := by
  split
  · exact hy
  · exact hz

/-- The lines that an operation held itself from position `cut` on are marked. -/
theorem Bough.Ran.marked {x y : Bough} (h : x.Ran y) {cut : Nat} (hcut : x.held.length ≤ cut) (f : HeldLine → HeldLine) :
    x.Ran { y with held := y.held.take cut ++ (y.held.drop cut).map f } :=
  ⟨prefix_take_append h.held hcut _, h.pc, congrArg (fun z : Bough => { z with held := y.held.take cut ++ (y.held.drop cut).map f }) h.rest⟩

section

variable {b : Nat} {s u : State}

/-- A last change of the bough that leaves the twig and the held lines as an operation made them. -/
theorem Ran.grew_onBough (h : Ran b s u) {f : Bough → Bough} {y : Bough} (hy : (s.bough b).Ran y) (hpc : (f (u.bough b)).ck.pc = y.ck.pc)
    (hheld : (f (u.bough b)).held = y.held) : Grew b s (u.onBough b f) :=
  ⟨h.only.onBough f, by rw [State.onBough_bough_same, hpc, hy.pc], by rw [State.onBough_bough_same, hheld]; exact hy.held⟩

/-- R319, R320: the ranges that a graft call reads in good HBM are noted in its own bough. -/
theorem State.noteRanges_ran (hgood : s.HbmGood) (sap hbm : List (Nat × Nat)) : Ran b s (s.noteRanges b sap hbm) :=
  List.foldlRecOn (motive := Ran b s) hbm _ ((Ran.refl b s).noteReads sap) fun _ hu r _ => (hu.noteAt hgood (.hbm r.1) r.2).1

variable (hgood : s.HbmGood) (t : Task) (q : GraftCtx)
include hgood

theorem State.graftApplyRun_grew : Grew b s (s.graftApplyRun b t q).1 := by
  have hnoted := State.noteRanges_ran (b := b) hgood (q.call :: q.k.xRanges q.g.n) [(q.active, q.g.bankNeed)]
  exact hnoted.grew_onBough (hnoted.bough.holdJoin (Nat.le_refl _) _ _ _ _) rfl rfl

theorem State.graftGradRun_grew : Grew b s (s.graftGradRun b t q).1 := by
  have hnoted := State.noteRanges_ran (b := b) hgood (q.call :: (q.k.xRanges q.g.n ++ q.k.dRanges q.g.m)) [(q.active, q.g.bankNeed)]
  exact hnoted.grew_onBough (hnoted.bough.holdJoin (Nat.le_refl _) _ _ _ _) rfl rfl

theorem State.graftStepRun_grew : Grew b s (s.graftStepRun b t q).1 := by
  have hnoted := State.noteRanges_ran (b := b) hgood [q.call] [(q.active, q.g.bankNeed), (q.gradAt.1 + 32 * q.gradAt.2.1, 32 * q.gradAt.2.2)]
  have hparts (runs : List (Nat × List Byte)) := hnoted.bough.holdJoin (Nat.le_refl _) t.id .hbm runs none
  exact hnoted.grew_onBough (.ite (((hparts _).holdJoin (hparts _).held.length_le _ _ _ _).marked (hparts _).held.length_le _) (hparts _)) rfl rfl

end

-- The calls.

section

variable {b : Nat} {s s1 : State} {t : Task} {c : Canopy} {w : OpWord} {q : GraftCtx}

theorem opGraftApply_goes (hctx : s.graftCtx b t c w = .ok q) (hx : (s.bough b).rangesReady (q.k.xRanges q.g.n) = .ok ()) (hd : (s.bough b).rangesReady (q.k.dRanges q.g.m) = .ok ())
    (hbad : (s.graftApplyRun b t q).2 = []) (hfit : s.LinesFit b (ceilDiv (q.k.vecs * q.g.m * 4) 64)) :
    ∃ fp, opGraftApply b s t c w = .ok (((s.graftApplyRun b t q).1.footed b fp).advance b) := by
  obtain ⟨fp, hcommit⟩ := State.commitCount_fits hfit (s.graftApplyRun b t q).1
  refine ⟨fp, ?_⟩
  simp only [opGraftApply, hctx, hx, hd, hbad, hcommit, issue_ok_bind]
  rfl

/-- R242: the call names a part of a trainable graft. -/
theorem graftCall_named {g : Graft} {part : Nat} (htrain : g.trainable = true) (hpart : part < g.parts) : ¬((!g.trainable) = true ∨ g.parts ≤ part) := by
  simp [htrain, hpart]

theorem opGraftGrad_goes (hctx : s.graftCtx b t c w = .ok q) (htrain : q.g.trainable = true) (hpart : q.k.part < q.g.parts)
    (hx : (s.bough b).rangesReady (q.k.xRanges q.g.n) = .ok ()) (hd : (s.bough b).rangesReady (q.k.dRanges q.g.m) = .ok ())
    (hbad : (s.graftGradRun b t q).2 = []) (hfit : s.LinesFit b (s.fills b (.ok (s.graftGradRun b t q).1))) :
    ∃ fp, opGraftGrad b s t c w = .ok (((s.graftGradRun b t q).1.footed b fp).advance b) := by
  obtain ⟨fp, hcommit⟩ := State.commitLines_fits hfit
  refine ⟨fp, ?_⟩
  simp only [opGraftGrad, hctx, hx, hd, hbad, hcommit, issue_ok_bind, if_neg (graftCall_named htrain hpart)]
  rfl

theorem opGraftStep_goes (hctx : s.graftCtx b t c w = .ok q) (htrain : q.g.trainable = true) (hpart : q.k.part < q.g.parts)
    (hgrad : (s.bough b).hbmReady [(q.gradAt.1 + 32 * q.gradAt.2.1, 32 * q.gradAt.2.2), (q.gradAt.1 + q.g.elems (q.g.partOf q.k.part).1 + q.gradAt.2.1, q.gradAt.2.2)] = .ok ())
    (hlast : q.k.last = true → (s.bough b).heldRange .hbm q.status 20 ≠ some false ∧ t.stepsWhole q = true)
    (hbad : (s.graftStepRun b t q).2 = []) (hfit : s.LinesFit b (s.fills b (.ok (s.graftStepRun b t q).1))) :
    ∃ fp, opGraftStep b s t c w = .ok (((s.graftStepRun b t q).1.footed b fp).advance b) := by
  obtain ⟨fp, hcommit⟩ := State.commitLines_fits hfit
  have hstatus : ¬(q.k.last && (s.bough b).heldRange .hbm q.status 20 == some false) = true := by
    simp only [Bool.and_eq_true, beq_iff_eq, not_and]
    exact fun h => (hlast h).1
  have hwhole : ¬(q.k.last && !t.stepsWhole q) = true := by
    simp only [Bool.and_eq_true, Bool.not_eq_true', not_and, Bool.not_eq_false]
    exact fun h => (hlast h).2
  refine ⟨fp, ?_⟩
  simp only [opGraftStep, hctx, hgrad, hbad, hcommit, issue_ok_bind, if_neg (graftCall_named htrain hpart), if_neg hstatus, if_neg hwhole]
  rfl

-- The calls issued.

/-- A graft call that filled lines is issued with them. -/
theorem Grew.filled {u : State} (h : Grew b s u) (fp : Nat) : Issued b (s.fills b (.ok u)) s (((u.footed b fp).advance b).issued b) :=
  (h.footed fp).issued (by rw [State.footed_held, h.fills_length])

variable (hpres : s.Presents b s1 t c w) (hop : w.opcode = 0x08) (hctx : s1.graftCtx b t c w = .ok q) (hgood : s1.HbmGood)
include hpres hop hctx hgood

theorem graftApply_issues (ha : w.a = 0x80) (hx : (s1.bough b).rangesReady (q.k.xRanges q.g.n) = .ok ()) (hd : (s1.bough b).rangesReady (q.k.dRanges q.g.m) = .ok ())
    (hbad : (s1.graftApplyRun b t q).2 = []) (hfit : s1.LinesFit b (ceilDiv (q.k.vecs * q.g.m * 4) 64)) :
    ∃ u, exec (.graftApply b) s = .next u ∧ OnlyBough b s1 u ∧ (u.bough b).ck.pc = (s1.bough b).ck.pc + 1 ∧ (s1.bough b).held <+: (u.bough b).held := by
  obtain ⟨fp, hgo⟩ := opGraftApply_goes hctx hx hd hbad hfit
  have hgrew := (State.graftApplyRun_grew (b := b) hgood t q).footed fp
  exact ⟨_, exec_issued hpres (op := opGraftApply) rfl (isVec_of hop ha) hgo, hgrew.only.advance.issued, hgrew.advance_pc, hgrew.advance_held⟩

theorem graftGrad_issues (ha : w.a = 0x81) (htrain : q.g.trainable = true) (hpart : q.k.part < q.g.parts)
    (hx : (s1.bough b).rangesReady (q.k.xRanges q.g.n) = .ok ()) (hd : (s1.bough b).rangesReady (q.k.dRanges q.g.m) = .ok ())
    (hbad : (s1.graftGradRun b t q).2 = []) (hfit : s1.LinesFit b (s1.fills b (.ok (s1.graftGradRun b t q).1))) :
    ∃ u, exec (.graftGrad b) s = .next u ∧ Issued b (s1.fills b (.ok (s1.graftGradRun b t q).1)) s1 u := by
  obtain ⟨fp, hgo⟩ := opGraftGrad_goes hctx htrain hpart hx hd hbad hfit
  exact ⟨_, exec_issued hpres (op := opGraftGrad) rfl (isVec_of hop ha) hgo, (State.graftGradRun_grew hgood t q).filled fp⟩

theorem graftStep_issues (ha : w.a = 0x82) (htrain : q.g.trainable = true) (hpart : q.k.part < q.g.parts)
    (hgrad : (s1.bough b).hbmReady [(q.gradAt.1 + 32 * q.gradAt.2.1, 32 * q.gradAt.2.2), (q.gradAt.1 + q.g.elems (q.g.partOf q.k.part).1 + q.gradAt.2.1, q.gradAt.2.2)] = .ok ())
    (hlast : q.k.last = true → (s1.bough b).heldRange .hbm q.status 20 ≠ some false ∧ t.stepsWhole q = true)
    (hbad : (s1.graftStepRun b t q).2 = []) (hfit : s1.LinesFit b (s1.fills b (.ok (s1.graftStepRun b t q).1))) :
    ∃ u, exec (.graftStep b) s = .next u ∧ Issued b (s1.fills b (.ok (s1.graftStepRun b t q).1)) s1 u := by
  obtain ⟨fp, hgo⟩ := opGraftStep_goes hctx htrain hpart hgrad hlast hbad hfit
  exact ⟨_, exec_issued hpres (op := opGraftStep) rfl (isVec_of hop ha) hgo, (State.graftStepRun_grew hgood t q).filled fp⟩

end

end Sys2Proof.Machine
end

section
/-! SUPPORT. Every operation of the twig, the cambium and the grafts where its word stands at issue: the commands settle their operations, and the local operations issue; from these and the operations' own lemmas O23. -/

namespace Sys2Proof.Machine

section

variable {b : Nat} {s s0 s1 : State} {t : Task} {c : Canopy} {w : OpWord} {priv : List Nat} {its : List Iter} (hpres : s.Presents b s1 t c w)
include hpres

/-- R167, R200: each opcode's command settles its own operation. -/
theorem opcode_commands_settle : ∀ p ∈ [(0x00, Instr.nop b, opNop), (0x01, .fetch b, opFetch), (0x02, .store b, opStore), (0x03, .drive b, opDrive), (0x04, .combine3 b, opCombine3),
      (0x05, .rescale b, opRescale), (0x06, .table b, opTable), (0x07, .cvt b, opCvt), (0x09, .cone b, opCone), (0x0A, .xsend b, opXsend), (0x0B, .xrecv b, opXrecv), (0x0C, .ksig b, opKsig),
      (0x0D, .kwait b, opKwait), (0x0E, .loop b, opLoop), (0x0F, .lbnd b, opLbnd), (0x10, .endOp b, opEnd)],
    w.opcode = p.1 → exec p.2.1 s = .next (s1.settleIssue b (p.2.2 b s1 t c w)) := by
  repeat' refine List.forall_mem_cons.mpr ⟨fun hop => exec_presented hpres rfl (opcode_beq hop), ?_⟩
  exact List.forall_mem_nil _

/-- R166: each vector function's and graft function's command settles its own operation. -/
theorem vec_commands_settle (hop : w.opcode = 0x08) : ∀ p ∈ [(0x00, Instr.add b, opVec), (0x01, .sub b, opVec), (0x02, .mul b, opVec), (0x03, .fma b, opVec), (0x04, .vmin b, opVec),
      (0x05, .vmax b, opVec), (0x06, .vabs b, opVec), (0x07, .select b, opVec), (0x08, .shl b, opVec), (0x09, .shr b, opVec), (0x0A, .cmul b, opVec), (0x0B, .cmulc b, opVec),
      (0x0C, .vsum b, opVec), (0x0D, .rmax b, opVec), (0x0E, .mac b, opVec), (0x80, .graftApply b, opGraftApply), (0x81, .graftGrad b, opGraftGrad), (0x82, .graftStep b, opGraftStep)],
    w.a = p.1 → exec p.2.1 s = .next (s1.settleIssue b (p.2.2 b s1 t c w)) := by
  repeat' refine List.forall_mem_cons.mpr ⟨fun ha => exec_presented hpres rfl (isVec_of hop ha), ?_⟩
  exact List.forall_mem_nil _

variable (hit : s1.iterate b w.localDesc (c.desc w.localDesc) (w.b % 8 + 1) = .ok (s0, priv, its))
include hit

theorem combine3_issues (hop : w.opcode = 0x04) : LocalGoes b s s1 s0 c w its (.combine3 b) (s0.combineReady b (c.desc w.localDesc).lastRun) (combine3Body b t) :=
  localGoes_of_runs hpres hit (op := opCombine3) rfl (opcode_beq hop) rfl (combine3Body_runs b t) fun _ _ _ hs h => combine3Body_goes ((hs.combineReady _ _).trans h) _ _ _ _

theorem rescale_issues (hop : w.opcode = 0x05) : LocalGoes b s s1 s0 c w its (.rescale b) (s0.rescaleReady b c w (c.desc w.localDesc).lastRun) (rescaleBody b t c w) :=
  localGoes_of_runs hpres hit (op := opRescale) rfl (opcode_beq hop) rfl (rescaleBody_runs b t c w) fun _ _ _ hs h => rescaleBody_goes ((hs.rescaleReady _ _ _ _).trans h) _ _

theorem table_issues (hop : w.opcode = 0x06) : LocalGoes b s s1 s0 c w its (.table b) ((s0.bough b).tableReady c w (c.desc w.localDesc).lastRun) (tableBody b t c w) :=
  localGoes_of_runs hpres hit (op := opTable) rfl (opcode_beq hop) rfl (tableBody_runs b t c w) fun _ _ _ hs h => tableBody_goes ((hs.bough.tableReady _ _ _ _).trans h) _ _

theorem cvt_issues (hop : w.opcode = 0x07) : LocalGoes b s s1 s0 c w its (.cvt b) ((s0.bough b).cvtReady c w (c.desc w.localDesc).lastRun) (cvtBody b t c) :=
  localGoes_of_runs hpres hit (op := opCvt) rfl (opcode_beq hop) rfl (cvtBody_runs b t c) fun _ _ _ hs h => cvtBody_goes ((hs.bough.cvtReady _ _ _ _).trans h) _ _

theorem vec_issues {cmd : Instr} {code : Nat} (hexec : exec cmd s = ok (s.issueIf b (·.isVec code) (opVec b))) (hop : w.opcode = 0x08) (ha : w.a = code) :
    LocalGoes b s s1 s0 c w its cmd ((s0.bough b).vecReady c w (c.desc w.localDesc).lastRun) (vecBody b t c w) :=
  localGoes_of_runs hpres hit hexec (isVec_of hop ha) rfl (vecBody_runs b t c w) fun _ _ _ hs h => vecBody_goes ((hs.bough.vecReady _ _ _ _).trans h) _ _

theorem vec_functions_issue (hop : w.opcode = 0x08) : ∀ p ∈ [(0x00, Instr.add b), (0x01, .sub b), (0x02, .mul b), (0x03, .fma b), (0x04, .vmin b), (0x05, .vmax b), (0x06, .vabs b),
      (0x07, .select b), (0x08, .shl b), (0x09, .shr b), (0x0A, .cmul b), (0x0B, .cmulc b), (0x0C, .vsum b), (0x0D, .rmax b), (0x0E, .mac b)],
    w.a = p.1 → LocalGoes b s s1 s0 c w its p.2 ((s0.bough b).vecReady c w (c.desc w.localDesc).lastRun) (vecBody b t c w) := by
  repeat' refine List.forall_mem_cons.mpr ⟨fun ha => vec_issues hpres hit rfl hop ha, ?_⟩
  exact List.forall_mem_nil _

end

/-- Settles O23: the commands of the present word settle its operation, and each operation whose conditions hold is issued. -/
theorem operationsComplete : Obligations.OperationsComplete := by
  intro b s s1 t c w hpres
  refine ⟨opcode_commands_settle hpres, fun p hp hop ha => vec_commands_settle hpres hop p hp ha, fun _ _ _ => fetch_issues hpres, fun _ _ _ => store_issues hpres, ?drive, ?xsend, ?xrecv, lbnd_issues hpres, ?locals, ?grafts⟩
  case drive =>
    intro s0 priv its v parts missing hop hit hform hparts hbare hfoot hfree hopen
    exact exec_issued hpres (op := opDrive) rfl (opcode_beq hop) (opDrive_goes hit hform hparts hbare hfoot hfree hopen)
  case xsend =>
    intro r s0 priv its hop hroute hstaging hit
    exact ⟨xsend_idle_issues hpres hop hroute hstaging hit, fun _ _ _ _ => xsend_issues hpres hop hroute hstaging hit⟩
  case xrecv =>
    intro r s0 priv its lines hop hroute hrecv hit moves d hlines hfoot hbuffer hfree hopen
    exact exec_issued hpres (op := opXrecv) rfl (opcode_beq hop) (opXrecv_goes hroute hit hrecv hlines hfoot hbuffer hfree hopen)
  case locals =>
    intro s0 priv its hit
    exact ⟨combine3_issues hpres hit, rescale_issues hpres hit, table_issues hpres hit, cvt_issues hpres hit,
      fun p hp hop ha => vec_functions_issue hpres hit hop p hp ha, fun hop hgood htask => cone_issues hpres hop hit hgood htask⟩
  case grafts =>
    intro q hop hctx hgood
    exact ⟨graftApply_issues hpres hop hctx hgood, graftGrad_issues hpres hop hctx hgood, graftStep_issues hpres hop hctx hgood⟩

end Sys2Proof.Machine
end

section
/-! SUPPORT. LOAD_CANOPY at the head of its queue (R224), and from it O35. -/

namespace Sys2Proof.Machine

/-- The HBM address that an address value names. -/
def Addr.hbmAddr : Addr → Option Nat
  | .hbm a => some a
  | _ => Option.none

theorem Addr.hbmAddr_eq_none {x : Addr} (h : ∀ a, x ≠ .hbm a) : x.hbmAddr = Option.none := by
  unfold Addr.hbmAddr
  split
  · exact absurd rfl (h _)
  · rfl

/-- R224: the operation that a LOAD_CANOPY of the image at `a` with its leaf images at `lb` begins, at step VALIDATE; the bits of no_program that are ignored and the clamp of the timeout are the model's choice (log entry 54). -/
def TaskRec.loadOp (t : TaskRec) (a lb : Nat) : LoadOp :=
  { addr := a, mask := BitVec.ofNat 4 (le t.args 16 1), leafBase := lb, noProgram := (le t.args 17 1).testBit 0,
    timeoutMs := clampN 1 1000 (le t.args 18 2), expected := sub t.args 32 32 }

section
variable {q : Nat} {t : TaskRec} {s : State} (hserve : s.ServesHead q 2 2 [(0, 8), (8, 8), (16, 1), (17, 1), (18, 2), (32, 32)] t)
include hserve

/-- R224: a load that overlaps a fold is BUSY too, which is the model's choice (log entry 53). -/
theorem exec_loadCanopy_busy (hbusy : (bitsSet 4 (le t.args 16 1)).any s.busyStands.contains = true) :
    exec (.loadCanopy q) s = .next (s.refuseCommand q t 0x0A 0) :=
  congrArg ok ((hserve.serve _).trans (if_pos hbusy))

/-- R224: the command where no target is taken, by its two addresses and its mask; code 1 for a bad one is the model's choice (log entry 44). -/
theorem exec_loadCanopy_free (hfree : (bitsSet 4 (le t.args 16 1)).any s.busyStands.contains = false) :
    exec (.loadCanopy q) s = .next (
      match (decodeAddr (le t.args 0 8)).hbmAddr, (decodeAddr (le t.args 8 8)).hbmAddr with
      | some a, some lb =>
        if le t.args 16 1 = 0 ∨ 15 < le t.args 16 1 then s.refuseCommand q t 1 0
        else
          let r := (s.popCommand q).acceptOp q t (s.queue q).sqHead (.load (t.loadOp a lb))
          r.1.onRunStands r.2 fun d => { d with cnpState := .loading }
      | _, _ => s.refuseCommand q t 1 0) :=
  congrArg ok ((hserve.serve _).trans (if_neg (by simp [hfree])))

theorem exec_loadCanopy_refused (hfree : (bitsSet 4 (le t.args 16 1)).any s.busyStands.contains = false)
    (hbad : le t.args 16 1 = 0 ∨ 15 < le t.args 16 1 ∨ (∀ a, decodeAddr (le t.args 0 8) ≠ .hbm a) ∨ (∀ a, decodeAddr (le t.args 8 8) ≠ .hbm a)) :
    exec (.loadCanopy q) s = .next (s.refuseCommand q t 1 0) := by
  rw [exec_loadCanopy_free hserve hfree]
  congr 1
  split
  next a lb himage hleaves =>
    refine if_pos ?_
    rcases hbad with hzero | hlarge | hno | hno
    · exact .inl hzero
    · exact .inr hlarge
    · simp [Addr.hbmAddr_eq_none hno] at himage
    · simp [Addr.hbmAddr_eq_none hno] at hleaves
  next => rfl

theorem exec_loadCanopy_accepted {a lb : Nat} (hfree : (bitsSet 4 (le t.args 16 1)).any s.busyStands.contains = false)
    (himage : decodeAddr (le t.args 0 8) = .hbm a) (hleaves : decodeAddr (le t.args 8 8) = .hbm lb) (hsome : 0 < le t.args 16 1) (hfour : le t.args 16 1 ≤ 15) :
    let r := (s.popCommand q).acceptOp q t (s.queue q).sqHead (.load (t.loadOp a lb))
    exec (.loadCanopy q) s = .next (r.1.onRunStands r.2 fun d => { d with cnpState := .loading }) := by
  rw [exec_loadCanopy_free hserve hfree, himage, hleaves]
  exact congrArg ok (if_neg (by omega))

end

/-- Settles O35, by the checks in their order: a target that is taken, then the two addresses and the mask. -/
theorem loadCanopyCommand : Obligations.LoadCanopyCommand := by
  unfold Obligations.LoadCanopyCommand
  intro q t s hserve
  exact ⟨exec_loadCanopy_busy hserve, exec_loadCanopy_refused hserve, fun a lb => exec_loadCanopy_accepted hserve⟩

end Sys2Proof.Machine
end

section
/-! SUPPORT. The events of a load's steps and of its quiesce, and the commands of a fold (R223, R227, R229, R247, R248), and from these O36. -/

namespace Sys2Proof.Machine

-- Events of the long operation in slot `h`, which is not suspended.

section
variable {h : Nat} {o : LongOp} {s : State} (hop : s.op h = some o) (hsusp : o.suspended = false)
include hop hsusp

/-- The slot's operation with its body and its flag written out, as the events look for it. -/
theorem State.op_running {body : OpBody} (hbody : o.body = body) : s.op h = some { o with suspended := false, body := body } := by
  rw [hop, ← hsusp, ← hbody]

theorem exec_canopyValidateDone_read {l : LoadOp} (hbody : o.body = .load l) (hstep : l.step = 1) (hread : s.shut (hbmStand l.addr) = false) :
    exec (.canopyValidateDone h) s = .next (s.validated h l) := by
  change execCanopyValidateDone h s = _
  rw [execCanopyValidateDone, State.op_running hop hsusp hbody]
  exact congrArg ok (if_pos ⟨hstep, by simp [hread]⟩)

theorem exec_canopyQuiesceDone_running : exec (.canopyQuiesceDone h) s = .next (s.quiesceEnd h) := by
  change execCanopyQuiesceDone h s = _
  rw [execCanopyQuiesceDone, State.op_running hop hsusp rfl]

theorem exec_quiesceTimeout_quiescing {r : Rounds} (hrounds : s.rounds h = some r) (hquiescing : r.quiescing = true) (hopen : r.quiesced = false) :
    exec (.quiesceTimeout h) s = .next (s.failRun h 9 5).1 := by
  change execQuiesceTimeout h s = _
  rw [execQuiesceTimeout, hrounds, State.op_running hop hsusp rfl]
  exact congrArg ok (if_pos ⟨hquiescing, by simp [hopen]⟩)

theorem exec_foldEntryReadbackDone_folding {f : FoldOp} (hbody : o.body = .fold f) (levels : SMap Nat) :
    exec (.foldEntryReadbackDone h levels) s = .next (s.foldEntry h f levels) := by
  change execFoldEntryReadbackDone h levels s = _
  rw [execFoldEntryReadbackDone, State.op_running hop hsusp hbody]

end

-- FOLD_GRAFT.

/-- R247: the operation that a FOLD_GRAFT of graft `g` with its scratch at `a` begins; the clamp of its timeout is the model's choice (log entry 54). -/
def State.foldOp (s : State) (t : TaskRec) (g : Graft) (a : Nat) : FoldOp :=
  { context := le t.args 0 4, graft := le t.args 4 2, scratch := a, timeoutMs := clampN 1 1000 (le t.args 6 2),
    bank := (s.hbmNat (s.graftBlock (le t.args 0 4) + 64 + 64 * le t.args 4 2) 1).testBit 1, mask := BitVec.ofNat 4 (nsum (g.stands.map (2 ^ ·))) }

section
variable {q : Nat} {t : TaskRec} {s : State} (hserve : s.ServesHead q 5 2 [(0, 4), (4, 2), (6, 2), (8, 8)] t)
include hserve

/-- R247: code 1 for a bad scratch address or state block is the model's choice (log entry 55). -/
theorem exec_foldGraft_refused (hnone : s.foldTarget (le t.args 0 4) (le t.args 4 2) (decodeAddr (le t.args 8 8)) = none) :
    exec (.foldGraft q) s = .next (s.refuseCommand q t 1 0) := by
  refine congrArg ok ((hserve.serve _).trans ?_)
  simp only [hnone]

variable {c : Canopy} {g : Graft} {a : Nat} (hscratch : decodeAddr (le t.args 8 8) = .hbm a)
  (htarget : s.foldTarget (le t.args 0 4) (le t.args 4 2) (.hbm a) = some (c, g))
include hscratch htarget

/-- R247: the image of the context is found as log entry 55 has it, and a fold that overlaps a load is BUSY by log entry 53. -/
theorem exec_foldGraft_target :
    exec (.foldGraft q) s = .next (
      if g.stands.any s.busyStands.contains then s.refuseCommand q t 2 0
      else ((s.popCommand q).acceptOp q t (s.queue q).sqHead (.fold (s.foldOp t g a))).1) := by
  refine congrArg ok ((hserve.serve _).trans ?_)
  simp only [hscratch, htarget]
  rfl

theorem exec_foldGraft_busy (hbusy : g.stands.any s.busyStands.contains = true) :
    exec (.foldGraft q) s = .next (s.refuseCommand q t 2 0) := by
  rw [exec_foldGraft_target hserve hscratch htarget, if_pos hbusy]

theorem exec_foldGraft_accepted (hfree : g.stands.any s.busyStands.contains = false) :
    exec (.foldGraft q) s = .next ((s.popCommand q).acceptOp q t (s.queue q).sqHead (.fold (s.foldOp t g a))).1 := by
  rw [exec_foldGraft_target hserve hscratch htarget, if_neg (by simp [hfree])]

end

/-- Settles O36: an event finds the body of its slot's operation, and FOLD_GRAFT its graft and the stands of its fold map. -/
theorem loadAndFoldEvents : Obligations.LoadAndFoldEvents := by
  unfold Obligations.LoadAndFoldEvents
  refine ⟨fun _ _ _ _ hop hsusp => exec_canopyValidateDone_read hop hsusp, fun _ _ _ => exec_canopyQuiesceDone_running,
    fun _ _ _ _ hop hsusp => exec_quiesceTimeout_quiescing hop hsusp, ?fold,
    fun _ levels _ _ _ hop hsusp hbody => exec_foldEntryReadbackDone_folding hop hsusp hbody levels⟩
  case fold =>
    intro q t s hserve
    exact ⟨exec_foldGraft_refused hserve,
      fun c g a hscratch htarget => ⟨exec_foldGraft_busy hserve hscratch htarget, exec_foldGraft_accepted hserve hscratch htarget⟩⟩

end Sys2Proof.Machine
end

section
/-! SUPPORT. Completions and acceptances: what a change of one queue, the entry that a completion writes, its heartbeat and its interrupt leave of queues and memory (R266, R267), and the slot that an accepted operation takes (R272); from these O42 and O22. -/

namespace Sys2Proof.Machine

@[simp] theorem State.onQueue_queue_same (s : State) (q : Nat) (f : QRun → QRun) : (s.onQueue q f).queue q = f (s.queue q) :=
  smGet_upd_same _ _ _ _

theorem State.onQueue_queue_other (s : State) (f : QRun → QRun) {q p : Nat} (h : p ≠ q) : (s.onQueue q f).queue p = s.queue p :=
  smGet_upd_other _ _ _ _ _ h

theorem RecordFrame.queue {s t : State} (h : RecordFrame s t) (q : Nat) : t.queue q = s.queue q := by
  rw [State.queue, h.rest, State.queue]

theorem State.raise_hbm (s : State) (f vec : Nat) : (s.raise f vec).hbm = s.hbm := by
  unfold State.raise
  dsimp only
  split <;> rfl

theorem State.queueIrq_queue (s : State) (q : Nat) : (s.queueIrq q).queue q = { s.queue q with uncovered := 0 } := by
  rw [State.queueIrq, State.onQueue_queue_same, (s.raise_frame _ _).queue]

theorem State.queueIrq_hbm (s : State) (q : Nat) : (s.queueIrq q).hbm = s.hbm := s.raise_hbm _ _

-- A completion of a queue that takes them.

/-- R266: the place at which the next completion of queue `q` is written. -/
def State.tailAddr (s : State) (q : Nat) : Addr :=
  (s.queue q).desc.cqBase.add ((32 * ((s.queue q).cqTail.toNat % 2 ^ (s.queue q).desc.cqLog2) : Nat) : Int)

/-- R266: the entry is written and the tail moves on. -/
def State.writeEntry (s : State) (q : Nat) (c : Compl) : State :=
  (s.writeAddr (s.queue q).desc.function (s.tailAddr q) (c.bytes (s.queue q))).onQueue q fun r => { r with cqTail := r.cqTail + 1, uncovered := r.uncovered + 1 }

/-- The queue's stand, where it has one, counts the completion in its heartbeat. -/
def State.countCompletion (s : State) (i : Nat) : State := if i < 4 then s.onStand i fun d => { d with hbComplete := d.hbComplete + 1 } else s

theorem State.countCompletion_queue (s : State) (i q : Nat) : (s.countCompletion i).queue q = s.queue q := by
  unfold State.countCompletion
  split <;> rfl

theorem State.countCompletion_hbm (s : State) (i : Nat) : (s.countCompletion i).hbm = s.hbm := by
  unfold State.countCompletion
  split <;> rfl

theorem State.writeEntry_queue (s : State) (q : Nat) (c : Compl) :
    (s.writeEntry q c).queue q = { s.queue q with cqTail := (s.queue q).cqTail + 1, uncovered := (s.queue q).uncovered + 1 } := by
  rw [State.writeEntry, State.onQueue_queue_same, (s.writeAddr_frame _ _ _).queue]

theorem State.writeEntry_hbm {s : State} {q a : Nat} (hring : s.tailAddr q = .hbm a) (c : Compl) :
    (s.writeEntry q c).hbm = memPutAll s.hbm a (c.bytes (s.queue q)) := by
  simp only [State.writeEntry, State.onQueue_hbm, hring, State.writeAddr, State.poke_hbm]

section
variable {s : State} {q : Nat} (hflr : (s.queue q).flr = false) (c : Compl)
include hflr

/-- R266, R267: a completion is its entry, the heartbeat, and the interrupt where one is due. -/
theorem State.complete_cases : s.complete q c = (s.writeEntry q c).countCompletion (s.queue q).desc.owner ∨
    s.complete q c = ((s.writeEntry q c).countCompletion (s.queue q).desc.owner).queueIrq q := by
  unfold State.complete
  dsimp only
  rw [if_neg (by simp [hflr])]
  exact (ite_eq_or_eq ..).symm

theorem State.complete_queue : ∃ n, (s.complete q c).queue q = { s.queue q with cqTail := (s.queue q).cqTail + 1, uncovered := n } := by
  rcases State.complete_cases hflr c with h | h
  · exact ⟨_, by rw [h, State.countCompletion_queue, State.writeEntry_queue]⟩
  · exact ⟨_, by rw [h, State.queueIrq_queue, State.countCompletion_queue, State.writeEntry_queue]⟩

/-- R266: a ring in HBM gets the entry's bytes, and no other byte is written. -/
theorem State.complete_hbm {a : Nat} (hring : s.tailAddr q = .hbm a) : (s.complete q c).hbm = memPutAll s.hbm a (c.bytes (s.queue q)) := by
  rcases State.complete_cases hflr c with h | h
  · rw [h, State.countCompletion_hbm, State.writeEntry_hbm hring]
  · rw [h, State.queueIrq_hbm, State.countCompletion_hbm, State.writeEntry_hbm hring]

end

-- The entry's bytes.

theorem Compl.bytes_length (c : Compl) (r : QRun) : (c.bytes r).length = 32 := by
  simp [Compl.bytes]

theorem nth_eq_getElem {α : Type} (d : α) (l : List α) {i : Nat} (h : i < l.length) : nth d l i = l[i] := by
  simp [nth, h]

/-- Bit 0 of a byte whose other flags stand above it. -/
theorem byteOf_phase (n : Nat) (x y z : Bool) :
    (byteOf (1 - n % 2 + at_ (b2n x) 1 + at_ (b2n y) 2 + at_ (b2n z) 3)).getLsbD 0 = decide (n % 2 = 0) := by
  simp only [byteOf, BitVec.getLsbD_ofNat, at_, Nat.shiftLeft_eq, Nat.testBit_zero, Nat.reducePow, Nat.zero_lt_succ, decide_true, Bool.true_and, decide_eq_decide]
  omega

/-- R266: the phase bit is 1 on the even passes counted from 0, which are the first, the third and so on. -/
theorem Compl.bytes_phase (c : Compl) (r : QRun) : (nth 0 (c.bytes r) 22).getLsbD 0 = decide (r.cqTail.toNat / 2 ^ r.desc.cqLog2 % 2 = 0) := by
  rw [← byteOf_phase _ c.nonfinite c.saturation c.yielded]
  simp [Compl.bytes, nth]

/-- Settles O42: the entry is written at the tail's place, and heartbeat and interrupt touch neither memory nor the tail. -/
theorem completionWrite : Obligations.CompletionWrite := by
  unfold Obligations.CompletionWrite
  intro q c a s hflr hring
  obtain ⟨n, hqueue⟩ := State.complete_queue hflr c
  have hlen := c.bytes_length (s.queue q)
  rw [hqueue, State.complete_hbm hflr c hring]
  refine ⟨hlen, c.bytes_phase _, rfl, rfl, fun hwf o ho => ?_, fun x hx => memGet_putAll_other _ _ _ _ (hlen ▸ hx)⟩
  rw [memGet_putAll_same _ _ _ _ hwf (hlen ▸ ho), nth_eq_getElem]

-- The slot of an accepted operation.

theorem State.freeSlot_lowest {s : State} {h : Nat} (hfree : s.freeSlot = some h) :
    smFind s.trunk.ops h = none ∧ ∀ h' < h, (smFind s.trunk.ops h').isSome := by
  obtain ⟨hnone, -, hbelow⟩ := List.find?_range_eq_some.mp hfree
  exact ⟨by simpa using hnone, fun h' hlt => by simpa [← Option.not_isSome] using hbelow h' hlt⟩

theorem State.acceptOp_queue {s : State} {h q : Nat} (hfree : s.freeSlot = some h) (hflr : (s.queue q).flr = false) (t : TaskRec) (i : Word) (body : OpBody) :
    ∃ n, ((s.acceptOp q t i body).1.queue q) = { s.queue q with owed := (s.queue q).owed + 1, cqTail := (s.queue q).cqTail + 1, uncovered := n } := by
  let s1 := (s.onTrunk fun x => { x with ops := smSet x.ops h (s.newOp h q t i body), opGen := smSet x.opGen h (smGet 0 s.trunk.opGen h + 1) }).onQueue q
    fun r => { r with owed := r.owed + 1 }
  have hqueue : s1.queue q = { s.queue q with owed := (s.queue q).owed + 1 } := State.onQueue_queue_same _ _ _
  obtain ⟨n, hn⟩ := State.complete_queue (s := s1) (q := q) (by rw [hqueue, hflr])
    { userTag := t.userTag, sqIndex := i, status := 6, detail := wordOf ((s.newOp h q t i body).handle h), irq := bit t.flags 0 }
  refine ⟨n, ?_⟩
  rw [State.acceptOp, hfree]
  rw [hqueue] at hn
  exact hn

/-- Settles O22: the trunk changes as the acceptance says, the queue as its ACCEPTED completion says, and the completion leaves the rest alone. -/
theorem acceptedOperation : Obligations.AcceptedOperation := by
  unfold Obligations.AcceptedOperation
  intro q h t i body s hfree hflr
  obtain ⟨hslot, hframe⟩ := State.acceptOp_frame hfree q t i body
  obtain ⟨hnone, hbelow⟩ := State.freeSlot_lowest hfree
  obtain ⟨n, hqueue⟩ := State.acceptOp_queue hfree hflr t i body
  dsimp only
  rw [hqueue, hframe.trunk, hframe.rest]
  exact ⟨hslot, hbelow, hnone, ⟨s.newOp h q t i body, smFind_set_same _ _ _, rfl, rfl, rfl, rfl, rfl, rfl⟩, fun h' hne => smFind_set_other _ _ _ _ hne,
    smGet_set_same _ _ _ _, rfl, rfl, rfl, rfl, rfl, rfl⟩

end Sys2Proof.Machine
end

section
/-! SUPPORT. Doorbells: what a touched descriptor, a head that is asked for and a doorbell that is acted on leave of a queue (R252, R253, R256), and a doorbell by its offset, form and queue (R252, R286); from these O37. -/

namespace Sys2Proof.Machine

-- The scheduler's descriptor cache and the read of a head.

/-- R253, R256: from `s` to `t` descriptors were fetched or evicted (in the order of log entry 61, DEDUCED) and heads asked for: queues keep all but their place in the cache and their reads. -/
structure FetchFrame (s t : State) : Prop where
  queue : ∀ p, t.queue p = { s.queue p with cached := (t.queue p).cached, used := (t.queue p).used, reading := (t.queue p).reading }
  que : t.que = { s.que with queues := t.que.queues, useCtr := t.que.useCtr }
  rest : t = { s with que := t.que, stands := t.stands, hbm := t.hbm, hbmBad := t.hbmBad, out := t.out }

namespace FetchFrame
variable {s t u : State}

theorem refl (s : State) : FetchFrame s s := ⟨fun _ => rfl, rfl, rfl⟩

theorem trans (a : FetchFrame s t) (b : FetchFrame t u) : FetchFrame s u :=
  ⟨fun p => by rw [b.queue p, a.queue p], by rw [b.que, a.que], by rw [b.rest, a.rest]⟩

/-- A change of one queue's place in the cache or of its read. -/
theorem onQueue (h : FetchFrame s t) (q : Nat) {f : QRun → QRun} (hf : ∀ r, f r = { r with cached := (f r).cached, used := (f r).used, reading := (f r).reading }) :
    FetchFrame s (t.onQueue q f) := by
  refine h.trans ⟨fun p => ?_, rfl, rfl⟩
  by_cases hp : p = q
  · subst hp
    rw [State.onQueue_queue_same]
    exact hf _
  · rw [State.onQueue_queue_other _ _ hp]

theorem onStand (h : FetchFrame s t) (i : Nat) (f : Stand → Stand) : FetchFrame s (t.onStand i f) := h.trans ⟨fun _ => rfl, rfl, rfl⟩

theorem poke (h : FetchFrame s t) (a : Nat) (bs : List Byte) : FetchFrame s (t.poke a bs) := h.trans ⟨fun _ => rfl, rfl, rfl⟩

theorem evictOne (h : FetchFrame s t) (i : Nat) : FetchFrame s (t.evictOne i) := by
  unfold State.evictOne
  dsimp only
  split
  · exact h
  · exact (h.poke _ _).onQueue _ fun _ => rfl

theorem touchQueue (h : FetchFrame s t) (q : Nat) : FetchFrame s (t.touchQueue q) := by
  have hfetched : FetchFrame s (if (t.queue q).cached then t
      else (if 4096 ≤ (t.cachedOf (t.queue q).desc.owner).length then t.evictOne (t.queue q).desc.owner else t).onStand (t.queue q).desc.owner
        fun d => { d with missCnt := satInc d.missCnt }) := by
    split
    · exact h
    · split
      · exact (h.evictOne _).onStand _ _
      · exact h.onStand _ _
  unfold State.touchQueue
  dsimp only
  split
  · exact h
  · exact (hfetched.onQueue _ fun _ => rfl).trans ⟨fun _ => rfl, rfl, rfl⟩

theorem askHead (h : FetchFrame s t) (q : Nat) : FetchFrame s (t.askHead q) := by
  unfold State.askHead
  split
  · split
    · exact h
    · exact List.foldlRecOn _ _ (h.onQueue _ fun _ => rfl) fun u hu _ _ => hu.trans ⟨fun _ => rfl, rfl, rfl⟩
  · exact h

end FetchFrame

-- A doorbell that is acted on.

/-- R252: the doorbell's values do not fit the queue's rings. -/
def QRun.implausible (r : QRun) (tail head : Word) : Prop :=
  2 ^ r.desc.sqLog2 < (tail - r.sqHead).toNat ∨ (r.cqTail - r.cqHead).toNat < (head - r.cqHead).toNat

/-- R252, R260: a queue takes a doorbell's values, and an edge it held releases a record. -/
def QRun.takeDoorbell (r : QRun) (tail head : Word) : QRun :=
  let y := { r with sqTail := tail, cqHead := head, pendingDb := none }
  if y.heldEdge ∧ y.releases < y.undispatched then { y with releases := y.releases + 1, heldEdge := false } else y

theorem QRun.takeDoorbell_eq (r : QRun) (tail head : Word) : r.takeDoorbell tail head =
    { r with sqTail := tail, cqHead := head, pendingDb := none, releases := (r.takeDoorbell tail head).releases, heldEdge := (r.takeDoorbell tail head).heldEdge } := by
  unfold QRun.takeDoorbell
  dsimp only
  split <;> rfl

/-- R256: the scheduler of the queue's stand, where it has one, looks at the queue. -/
def State.scheduled (s : State) (q : Nat) : State :=
  if (s.queue q).desc.owner < 4 then (s.touchQueue q).onStand (s.queue q).desc.owner fun d => { d with schedStopped := false } else s

theorem State.scheduled_frame (s : State) (q : Nat) : FetchFrame s (s.scheduled q) := by
  unfold State.scheduled
  split
  · exact ((FetchFrame.refl s).touchQueue q).onStand _ _
  · exact .refl s

/-- R252: the state in which queue `q` has taken a doorbell, before a flush goes on. -/
def State.takeDoorbell (s : State) (q : Nat) (tail head : Word) : State := (s.scheduled q).onQueue q fun r => r.takeDoorbell tail head

/-- R252: what a plausible doorbell with its values `tail` and `head` leaves of queue `q` and of the device. -/
structure State.TookDoorbell (s t : State) (q : Nat) (tail head : Word) : Prop where
  queue : t.queue q = { s.queue q with sqTail := tail, cqHead := head, pendingDb := none, releases := (t.queue q).releases, heldEdge := (t.queue q).heldEdge,
                                       cached := (t.queue q).cached, used := (t.queue q).used, reading := (t.queue q).reading }
  dbErr : t.que.dbErr = s.que.dbErr
  rest : t = { s with que := t.que, stands := t.stands, hbm := t.hbm, hbmBad := t.hbmBad, out := t.out }

section
variable (s : State) (q : Nat) (tail head : Word)

theorem State.takeDoorbell_took : s.TookDoorbell (s.takeDoorbell q tail head) q tail head := by
  obtain ⟨hkept, hque, hrest⟩ := s.scheduled_frame q
  have hqueue : (s.takeDoorbell q tail head).queue q = ((s.scheduled q).queue q).takeDoorbell tail head := State.onQueue_queue_same _ _ _
  refine ⟨?_, ?_, ?_⟩
  · rw [hqueue, QRun.takeDoorbell_eq, hkept q]
  · rw [State.takeDoorbell, State.onQueue_que, hque]
  · rw [State.takeDoorbell, State.onQueue, State.onQue, hrest]

variable {s q tail head}

theorem State.TookDoorbell.fetched {t u : State} (h : s.TookDoorbell t q tail head) (hf : FetchFrame t u) : s.TookDoorbell u q tail head :=
  ⟨by rw [hf.queue q, h.queue], by rw [hf.que, h.dbErr], by rw [hf.rest, h.rest]⟩

theorem State.actDoorbell_implausible (h : (s.queue q).implausible tail head) : s.actDoorbell q tail head =
    ((s.onQueue q fun r => { r with pendingDb := none }).haltQueue q 0x10).onQue fun x => { x with dbErr := satInc x.dbErr } := if_pos h

theorem State.actDoorbell_plausible (h : ¬(s.queue q).implausible tail head) : s.actDoorbell q tail head =
    let u := (s.takeDoorbell q tail head).flushOn q
    if (u.queue q).undispatched = 0 then u else u.askHead q := if_neg h

theorem State.actDoorbell_halts (h : (s.queue q).implausible tail head) :
    (s.actDoorbell q tail head).queue q = { s.queue q with pendingDb := none, halted := true, haltCause := byteOf 0x10 } := by
  have hhalted : ((s.onQueue q fun r => { r with pendingDb := none }).haltQueue q 0x10).queue q =
      { s.queue q with pendingDb := none, halted := true, haltCause := byteOf 0x10 } := by
    rw [State.haltQueue, State.onQueue_queue_same, State.onQueue_queue_same]
  rw [State.actDoorbell_implausible h, ← hhalted]
  rfl

/-- A queue that no FLUSH empties only takes the values, and its head is asked for. -/
theorem State.actDoorbell_took (h : ¬(s.queue q).implausible tail head) (hflush : (s.queue q).flushing = false) :
    s.TookDoorbell (s.actDoorbell q tail head) q tail head := by
  have htook := s.takeDoorbell_took q tail head
  have hkept : (s.takeDoorbell q tail head).flushOn q = s.takeDoorbell q tail head := if_pos (by rw [htook.queue]; simp [hflush])
  rw [State.actDoorbell_plausible h, hkept]
  dsimp only
  split
  · exact htook
  · exact htook.fetched ((FetchFrame.refl _).askHead q)

theorem State.actDoorbell_flushes (h : ¬(s.queue q).implausible tail head) :
    s.actDoorbell q tail head = (s.takeDoorbell q tail head).flushOn q ∨ s.actDoorbell q tail head = ((s.takeDoorbell q tail head).flushOn q).askHead q := by
  rw [State.actDoorbell_plausible h]
  exact ite_eq_or_eq ..

end

-- An access of BAR4.

section
variable {fn off len : Nat} {data : DWord} {s : State}

section
variable (hlive : s.live = true) (hd0 : s.pcie.d3hot = false) (hfn : s.hasFunc fn = true)
include hlive hd0 hfn

theorem exec_doorbell_read : exec (.doorbell fn off len none) s = .next (s.emit (.readData (List.replicate len 0) false)) :=
  congrArg ok (if_neg (by simp [hlive, hd0, hfn]))

theorem exec_doorbell_write : exec (.doorbell fn off len (some data)) s = .next (s.doorbell fn off len data) :=
  congrArg ok (if_neg (by simp [hlive, hd0, hfn]))

end

theorem State.doorbell_past (hoff : 0x800000 ≤ off) :
    s.doorbell fn off len data = (s.onQue fun x => { x with dbErr := satInc x.dbErr }).pciError 5 fn off := if_pos hoff

section
variable (hoff : off < 0x800000)
include hoff

theorem State.doorbell_counted (hbad : len ≠ 8 ∨ off % 8 ≠ 0 ∨ (s.queue (off / 8)).enabled = false ∨ (s.queue (off / 8)).desc.function ≠ fn) :
    s.doorbell fn off len data = s.onQue fun x => { x with dbErr := satInc x.dbErr } :=
  (if_neg (by omega)).trans (if_pos (by simpa using hbad))

variable (hlen : len = 8) (halign : off % 8 = 0) (henabled : (s.queue (off / 8)).enabled = true) (hfunction : (s.queue (off / 8)).desc.function = fn)
  (hflr : (s.queue (off / 8)).flr = false)
include hlen halign henabled hfunction hflr

/-- R252: of a queue that is enabled and not in FLR; that it is kept too while the queue's stand is in reset is log entry 64 (DEDUCED). -/
theorem State.doorbell_taken : s.doorbell fn off len data =
    if s.doorbellsActed (off / 8) then (s.actDoorbell (off / 8) (wordOf data.toNat) (wordOf (data.toNat / 2 ^ 32))).settleQueues
    else (s.wakeEvent .doorbell).onQueue (off / 8) fun r => { r with pendingDb := some (wordOf data.toNat, wordOf (data.toNat / 2 ^ 32)) } := by
  refine (if_neg (by omega)).trans ((if_neg ?_).trans (if_neg ?_))
  · simp [hlen, halign, henabled, hfunction]
  · simp [hflr]

end
end

/-- Settles O37: an access of BAR4 by its offset, form and queue, and a doorbell acted on by its values and by whether a FLUSH empties the queue. -/
theorem doorbells : Obligations.Doorbells := by
  unfold Obligations.Doorbells
  refine ⟨fun fn off len data s hlive hd0 hfn => ?access, fun q tail head s => ?acted⟩
  case access =>
    rw [exec_doorbell_write hlive hd0 hfn]
    refine ⟨exec_doorbell_read hlive hd0 hfn, fun hoff => congrArg ok (State.doorbell_past hoff), fun hoff => ⟨fun hbad => congrArg ok (State.doorbell_counted hoff hbad), ?_⟩⟩
    intro hlen halign henabled hfunction hflr
    rw [State.doorbell_taken hoff hlen halign henabled hfunction hflr]
    exact ⟨fun hacted => congrArg ok (if_pos hacted), fun hkept => congrArg ok (if_neg (by simp [hkept]))⟩
  case acted =>
    refine ⟨fun hbad => ?_, fun hfits hflush => ?_, fun hfits _ => ?_⟩
    · rw [State.actDoorbell_halts hbad, State.actDoorbell_implausible hbad]
      exact ⟨rfl, rfl, rfl, rfl, rfl, rfl, rfl⟩
    · obtain ⟨hqueue, hdbErr, hrest⟩ := State.actDoorbell_took hfits hflush
      rw [hqueue, hdbErr, hrest]
      exact ⟨rfl, rfl, rfl, rfl, rfl, rfl, rfl, rfl, rfl⟩
    · obtain ⟨hqueue, -, hrest⟩ := s.takeDoorbell_took q tail head
      exact ⟨s.takeDoorbell q tail head, by rw [hqueue], by rw [hqueue], by rw [hqueue], by rw [hqueue], by rw [hrest], by rw [hrest], by rw [hrest],
        State.actDoorbell_flushes hfits⟩

end Sys2Proof.Machine
end

section
/-! SUPPORT. Knots: a signal by the pending count and the tokens it reaches (R262), and the knot commands by the knot that is selected (R262, R263, R265, R285); from these O39 and O40. -/

namespace Sys2Proof.Machine

-- One signal at a knot whose T and L are not 0.

section
variable {x : Knot}

theorem Knot.signal_pending (ht : x.t ≠ 0) (hlast : x.p.toNat + 1 ≠ x.t.toNat) : x.signal = { x with p := x.p + 1 } := by
  have hpos : 0 < x.t.toNat := BitVec.toNat_pos_of_ne_zero ht
  exact if_neg (by omega)

section
variable (hlast : x.p.toNat + 1 = x.t.toNat)
include hlast

theorem Knot.signal_fires (hl : x.l ≠ 0) : x.signal =
    if 65535 < x.k.toNat + x.l.toNat then { x with p := 0, f := x.f + 1, k := 0xFFFF#16, overflow := true }
    else { x with p := 0, f := x.f + 1, k := BitVec.ofNat 16 (x.k.toNat + x.l.toNat) } := by
  rw [Knot.signal, if_pos (by omega), Nat.max_eq_right (BitVec.toNat_pos_of_ne_zero hl)]

theorem Knot.signal_tokens (hl : x.l ≠ 0) (hfits : x.k.toNat + x.l.toNat ≤ 65535) :
    x.signal.p = 0 ∧ x.signal.f = x.f + 1 ∧ x.signal.k.toNat = x.k.toNat + x.l.toNat ∧ x.signal.overflow = x.overflow := by
  rw [Knot.signal_fires hlast hl, if_neg (by omega)]
  exact ⟨rfl, rfl, Nat.mod_eq_of_lt (by omega), rfl⟩

theorem Knot.signal_saturates (hl : x.l ≠ 0) (hover : 65535 < x.k.toNat + x.l.toNat) :
    x.signal.p = 0 ∧ x.signal.f = x.f + 1 ∧ x.signal.k.toNat = 65535 ∧ x.signal.overflow = true := by
  rw [Knot.signal_fires hlast hl, if_pos hover]
  exact ⟨rfl, rfl, rfl, rfl⟩

end

/-- A signal leaves the configuration and those who wait. -/
theorem Knot.signal_frame (x : Knot) : x.signal.t = x.t ∧ x.signal.l = x.l ∧ x.signal.waiters = x.waiters := by
  unfold Knot.signal
  split
  · split <;> exact ⟨rfl, rfl, rfl⟩
  · exact ⟨rfl, rfl, rfl⟩

end

/-- Settles O39, by whether the pending count reaches T, and then by whether the tokens pass 65,535. -/
theorem knotSignalCounts : Obligations.KnotSignalCounts := by
  unfold Obligations.KnotSignalCounts
  exact fun x ht hl => ⟨Knot.signal_pending ht, fun hlast => Knot.signal_tokens hlast hl, fun hlast => Knot.signal_saturates hlast hl, x.signal_frame⟩

-- The knot commands.

theorem State.onKnot_null (s : State) (f : Knot → Knot) : s.onKnot 0 f = s := if_pos rfl

section
variable (s : State) {n : Nat} (hn : n ≠ 0) (f : Knot → Knot)
include hn

theorem State.onKnot_eq : s.onKnot n f = s.onQue fun x => { x with knots := smUpd {} x.knots n f } := if_neg hn

theorem State.onKnot_knot_same : (s.onKnot n f).knot n = f (s.knot n) := by
  rw [State.onKnot_eq s hn]
  exact smGet_upd_same _ _ _ _

theorem State.onKnot_knot_other {m : Nat} (hm : m ≠ n) : (s.onKnot n f).knot m = s.knot m := by
  rw [State.onKnot_eq s hn]
  exact smGet_upd_other _ _ _ _ _ hm

end

/-- R265: a knot as QUE_KNOT_CFG configures it. -/
def Knot.configured (x : Knot) (v : Word) : Knot := { x with t := BitVec.ofNat 16 (fld v 15 0), l := BitVec.ofNat 16 (fld v 31 16), p := 0 }

theorem exec_knotSignal_running {n : Nat} {s : State} (hfw : s.trunk.fwRunning = true) (hn : n < 65536) :
    exec (.knotSignal n) s = .next (s.settleQueues.signalKnot n).settleQueues := congrArg ok (if_pos ⟨hfw, hn⟩)

theorem exec_queKnotSignal_idle {v : Word} {s : State} (hbit : bit v 0 = false) : exec (.queKnotSignal v) s = .next s :=
  congrArg ok (if_pos (by simp [hbit]))

section
variable {v : Word} {s : State} (hlive : s.regLive = true)
include hlive

section
variable (hbit : bit v 0 = true)
include hbit

theorem exec_queKnotSignal_served (hheld : s.pcie.heldAcc = []) :
    exec (.queKnotSignal v) s = .next (s.settleQueues.signalKnot s.que.knotSel.toNat).settleQueues :=
  congrArg ok ((if_neg (by simp [hlive, hbit])).trans (if_pos (by simp [hheld])))

theorem exec_queKnotSignal_held (hheld : s.pcie.heldAcc ≠ []) :
    exec (.queKnotSignal v) s = .next (s.onPcie fun p => { p with heldAcc := p.heldAcc ++ [.signal s.que.knotSel.toNat] }) :=
  congrArg ok ((if_neg (by simp [hlive, hbit])).trans (if_neg (by simpa using hheld)))

end

theorem exec_queKnotCfg_live : exec (.queKnotCfg v) s = .next (s.onKnot s.que.knotSel.toNat (·.configured v)) := congrArg ok (if_pos hlive)

theorem exec_queKnotState_live : exec (.queKnotState v) s = .next (
    if s.que.knotSel.toNat = 0 then s
    else ((s.settleQueues.onKnot s.que.knotSel.toNat fun x => { x with k := BitVec.ofNat 16 (fld v 15 0) }).serveKnot s.que.knotSel.toNat).settleQueues) :=
  congrArg ok (if_pos hlive)

theorem exec_queKnotCfg_configures (hsel : s.que.knotSel.toNat ≠ 0) : ∃ u, exec (.queKnotCfg v) s = .next u ∧ u = { s with que := u.que } ∧
    u.knot s.que.knotSel.toNat = (s.knot s.que.knotSel.toNat).configured v ∧ ∀ m, m ≠ s.que.knotSel.toNat → u.knot m = s.knot m := by
  refine ⟨_, exec_queKnotCfg_live hlive, ?_, State.onKnot_knot_same s hsel _, fun m => State.onKnot_knot_other s hsel _⟩
  rw [State.onKnot_eq s hsel]
  rfl

end

/-- Settles O40: each command by whether the registers are served, by the bit it writes and by whether the null knot is selected. -/
theorem knotCommands : Obligations.KnotCommands := by
  unfold Obligations.KnotCommands
  refine ⟨fun n s => exec_knotSignal_running, fun v s hlive => ⟨exec_queKnotSignal_served hlive, exec_queKnotSignal_held hlive,
    exec_queKnotSignal_idle, fun hsel => ?configures, fun hsel => ?tokens, fun hnull => ?null⟩⟩
  case configures => exact exec_queKnotCfg_configures hlive (BitVec.toNat_pos_of_ne_zero hsel).ne'
  case tokens => rw [exec_queKnotState_live hlive, if_neg (BitVec.toNat_pos_of_ne_zero hsel).ne']
  case null =>
    have hzero : s.que.knotSel.toNat = 0 := congrArg BitVec.toNat hnull
    refine ⟨?_, ?_, if_pos rfl⟩
    · rw [exec_queKnotCfg_live hlive, hzero, State.onKnot_null]
    · rw [exec_queKnotState_live hlive, if_pos hzero]

end Sys2Proof.Machine
end

section
/-! SUPPORT. QUE_CMD and QUE_CTRL by the command and by what the queue's state is (R251, R252, R269), and what the end of a DISABLE leaves; from these O38. -/

namespace Sys2Proof.Machine

/-- Bytes 32 to 63 of a descriptor. -/
theorem QRun.ownBytes_length (r : QRun) : r.ownBytes.length = 32 := by simp [QRun.ownBytes]

theorem State.finishDisable_queue (s : State) (q : Nat) : ((s.finishDisable q).queue q).enabled = false :=
  congrArg QRun.enabled (s.onQueue_queue_same q fun r =>
    { r with enabled := false, disabling := false, cached := false, waitsKnot := false, pendingDb := none, fetched := none, reading := false })

theorem State.memGet_writeBack_other (s : State) {q a : Nat} (ha : a < s.descAddr q + 32 ∨ s.descAddr q + 64 ≤ a) :
    memGet (s.writeBack q).hbm a = memGet s.hbm a := by
  rw [State.writeBack, State.poke_hbm, memGet_putAll_other _ _ _ _ (by rw [QRun.ownBytes_length]; omega)]

/-- R251: only the device's half of the queue's descriptor is written. -/
theorem State.finishDisable_hbm (s : State) (q a : Nat) (ha : a < s.descAddr q + 32 ∨ s.descAddr q + 64 ≤ a) :
    memGet (s.finishDisable q).hbm a = memGet s.hbm a := by
  simp only [State.finishDisable, State.onQue_hbm]
  exact State.memGet_writeBack_other _ ha

-- The four commands, where no other is in progress.

section
variable {q : Nat} {s : State} (hlive : s.regLive = true) (hfree : s.que.cmdBusy = false) (hq : q < 2 ^ 20)
include hlive hfree hq

theorem State.command_open : ¬(!s.regLive ∨ s.que.cmdBusy ∨ 2 ^ 20 ≤ q) := by
  simp [hlive, hfree]
  exact hq

theorem exec_queEnable_open : exec (.queEnable q) s = .next (
    if (!(s.queue q).enabled ∨ (s.queue q).flr) ∧ (s.flrHolds q ∨ s.shut (hbmStand (s.descAddr q))) then s.onQue fun x => { x with cmdBusy := true, cmdOp := 1, cmdQueue := q }
    else (s.enableQueue q).settleQueues) := congrArg ok (if_neg (State.command_open hlive hfree hq))

theorem exec_queEnable_again (henabled : (s.queue q).enabled = true) (hflr : (s.queue q).flr = false) :
    exec (.queEnable q) s = .next (s.queResult 0).settleQueues := by
  have hsame : s.enableQueue q = s.queResult 0 := if_pos henabled
  rw [exec_queEnable_open hlive hfree hq, if_neg (by simp [henabled, hflr]), hsame]

theorem exec_queEnable_reads (hholds : s.flrHolds q = false) (hread : s.shut (hbmStand (s.descAddr q)) = false) :
    exec (.queEnable q) s = .next (s.enableQueue q).settleQueues := by
  rw [exec_queEnable_open hlive hfree hq, if_neg (by simp [hholds, hread])]

theorem exec_queEnable_waits (hdisabled : (s.queue q).enabled = false) (hwaits : s.flrHolds q = true ∨ s.shut (hbmStand (s.descAddr q)) = true) :
    exec (.queEnable q) s = .next (s.onQue fun x => { x with cmdBusy := true, cmdOp := 1, cmdQueue := q }) := by
  rw [exec_queEnable_open hlive hfree hq, if_pos ⟨.inl (by simp [hdisabled]), hwaits⟩]

/-- What DISABLE, RESUME and FLUSH, which differ in `u`, make of a queue that is not enabled: result 3 of Table 11-9. -/
theorem State.command_disabled (hdisabled : (s.queue q).enabled = false) (u : State) :
    (if !s.regLive ∨ s.que.cmdBusy ∨ 2 ^ 20 ≤ q then s else if !(s.queue q).enabled then s.queResult 3 else u) = s.queResult 3 :=
  (if_neg (State.command_open hlive hfree hq)).trans (if_pos (by simp [hdisabled]))

section
variable (henabled : (s.queue q).enabled = true)
include henabled

theorem State.command_enabled (u : State) :
    (if !s.regLive ∨ s.que.cmdBusy ∨ 2 ^ 20 ≤ q then s else if !(s.queue q).enabled then s.queResult 3 else u) = u :=
  (if_neg (State.command_open hlive hfree hq)).trans (if_neg (by simp [henabled]))

theorem exec_queDisable_idle (hidle : (s.queue q).idle = true) : exec (.queDisable q) s = .next (s.finishDisable q) :=
  congrArg ok ((State.command_enabled hlive hfree hq henabled _).trans (if_pos hidle))

/-- R251; that the completions owed by long operations are waited for too is log entry 66 (DEDUCED). -/
theorem exec_queDisable_waits (hbusy : (s.queue q).idle = false) : ∃ u, exec (.queDisable q) s = .next u ∧
    (u.queue q).disabling = true ∧ (u.queue q).enabled = true ∧ u.que.cmdBusy = true ∧ u = { s with que := u.que } := by
  have hqueue : (s.onQueue q fun r => { r with disabling := true }).queue q = { s.queue q with disabling := true } := State.onQueue_queue_same _ _ _
  refine ⟨_, congrArg ok ((State.command_enabled hlive hfree hq henabled _).trans (if_neg (by simp [hbusy]))), ?_, ?_, rfl, rfl⟩
  · exact congrArg QRun.disabling hqueue
  · exact (congrArg QRun.enabled hqueue).trans henabled

end
end

-- QUE_CTRL.

theorem exec_queCtrlWrite_live {s : State} (hlive : s.regLive = true) (v : Word) : exec (.queCtrlWrite v) s = .next (
    let s1 := s.onQue fun x => { x with ctrl := bit v 0 }
    if bit v 0 then s1.actPending.settleQueues else s1) := congrArg ok (if_neg (by simp [hlive]))

theorem exec_queCtrlWrite_off {s : State} (hlive : s.regLive = true) {v : Word} (hbit : bit v 0 = false) :
    exec (.queCtrlWrite v) s = .next (s.onQue fun x => { x with ctrl := false }) := by
  rw [exec_queCtrlWrite_live hlive, hbit]
  rfl

theorem exec_queCtrlWrite_on {s : State} (hlive : s.regLive = true) {v : Word} (hbit : bit v 0 = true) :
    exec (.queCtrlWrite v) s = .next (s.onQue fun x => { x with ctrl := true }).actPending.settleQueues := by
  rw [exec_queCtrlWrite_live hlive, hbit]
  rfl

/-- Settles O38: each command by whether its queue is enabled, ENABLE also by what holds it and DISABLE by what is in flight. -/
theorem queueCommands : Obligations.QueueCommands := by
  unfold Obligations.QueueCommands
  refine fun q s hlive => ⟨fun hfree hq => ⟨exec_queEnable_again hlive hfree hq, fun _ => exec_queEnable_reads hlive hfree hq, exec_queEnable_waits hlive hfree hq,
    fun hdisabled => ?disabled, fun henabled hidle => ?idle, exec_queDisable_waits hlive hfree hq,
    fun henabled => congrArg ok (State.command_enabled hlive hfree hq henabled _), fun henabled => congrArg ok (State.command_enabled hlive hfree hq henabled _)⟩,
    fun v => ⟨exec_queCtrlWrite_off hlive, exec_queCtrlWrite_on hlive⟩⟩
  case disabled =>
    have hrefused := State.command_disabled hlive hfree hq hdisabled
    exact ⟨congrArg ok (hrefused _), congrArg ok (hrefused _), congrArg ok (hrefused _)⟩
  case idle =>
    exact ⟨_, exec_queDisable_idle hlive hfree hq henabled hidle, s.finishDisable_queue q, rfl, rfl, s.finishDisable_hbm q, rfl, rfl, rfl⟩

end Sys2Proof.Machine
end

section
/-! SUPPORT. SUSPEND, RESUME and CANCEL at the head of their queue, and their outcomes by the kind of the operation named (R81, R109, R273); from these O21. -/

namespace Sys2Proof.Machine

-- The three commands where their head is served.

section
variable {q : Nat} {t : TaskRec} {s : State}

theorem exec_suspend_served (hserve : s.ServesHead q 0x10 1 [(0, 2)] t) : exec (.suspend q) s = .next (
    let r := match s.opOfHandle t.handle with | some h => s.suspendOp h | none => (1, s)
    r.2.refuseCommand q t r.1 (wordOf t.handle)) := congrArg ok (hserve.serve _)

theorem exec_resume_served (hserve : s.ServesHead q 0x11 1 [(0, 2)] t) : exec (.resume q) s = .next (
    let r := match s.opOfHandle t.handle with | some h => s.resumeOp h | none => (1, s)
    r.2.refuseCommand q t r.1 (wordOf t.handle)) := congrArg ok (hserve.serve _)

theorem exec_cancel_served (hserve : s.ServesHead q 0x12 1 [(0, 2)] t) : exec (.cancel q) s = .next (
    let r := match s.opOfHandle t.handle with | some h => s.cancelOp h | none => (1, id)
    r.2 (s.refuseCommand q t r.1 (wordOf t.handle))) := congrArg ok (hserve.serve _)

end

-- The outcomes on the operation in slot `h`.

section
variable {h : Nat} {o : LongOp} {s : State} (hop : s.op h = some o)
include hop

/-- R273: a DUMP is not suspended. -/
theorem State.suspendOp_dump (hbody : o.body = .dump) : s.suspendOp h = (2, s) := by
  simp only [State.suspendOp, hop, hbody]

theorem State.resumeOp_dump (hbody : o.body = .dump) : s.resumeOp h = (2, s) := by
  simp only [State.resumeOp, hop, hbody]

theorem State.cancelOp_dump (hbody : o.body = .dump) : (s.cancelOp h).1 = 0 := by
  simp only [State.cancelOp, hop, hbody]

section
variable (hbody : o.body ≠ .dump)
include hbody

theorem State.suspendOp_suspended (hsusp : o.suspended = true) : s.suspendOp h = (3, s) := by
  cases hkind : o.body
  case dump => exact absurd hkind hbody
  all_goals simp [State.suspendOp, hop, hkind, hsusp]

/-- R109, R273; that a program operation at step 9 or later answers 0 too is log entry 78 (DEDUCED). -/
theorem State.suspendOp_running (hsusp : o.suspended = false) : (s.suspendOp h).1 = 0 := by
  cases hkind : o.body
  case dump => exact absurd hkind hbody
  all_goals simp [State.suspendOp, hop, hkind, hsusp]

theorem State.resumeOp_running (hsusp : o.suspended = false) : s.resumeOp h = (3, s) := by
  cases hkind : o.body
  case dump => exact absurd hkind hbody
  all_goals simp [State.resumeOp, hop, hkind, hsusp]

theorem State.resumeOp_suspended (hsusp : o.suspended = true) : (s.resumeOp h).1 = 0 := by
  cases hkind : o.body
  case dump => exact absurd hkind hbody
  all_goals simp [State.resumeOp, hop, hkind, hsusp]

end

theorem State.onOp_eq (f : LongOp → LongOp) : s.onOp h f = s.onTrunk fun t => { t with ops := smSet t.ops h (f o) } := by
  rw [State.onOp, hop]

-- FIELD_TEST and CALIBRATE.

theorem State.suspendOp_ftest {f : FTestOp} (hbody : o.body = .ftest f) (hsusp : o.suspended = false) :
    (s.suspendOp h).2 = s.onOp h fun o => { o with suspended := true } := by
  simp [State.suspendOp, hop, hbody, hsusp]

theorem State.resumeOp_ftest {f : FTestOp} (hbody : o.body = .ftest f) (hsusp : o.suspended = true) :
    (s.resumeOp h).2 = (s.onOp h fun o => { o with suspended := false }).settleTests := by
  simp [State.resumeOp, hop, hbody, hsusp]

theorem State.cancelOp_ftest {f : FTestOp} (hbody : o.body = .ftest f) : s.cancelOp h = (0, fun u => (u.ftestForget f).endOp h 4) := by
  simp only [State.cancelOp, hop, hbody]

theorem State.cancelOp_calib {c : CalibOp} (hbody : o.body = .calib c) :
    s.cancelOp h = (0, fun u => (c.leaves.filter c.waits).foldl (fun (v : State) k => (v.leaveMeas h k).calibLeaf h k 5) u) := by
  simp only [State.cancelOp, hop, hbody]

-- A program operation, by whether its map write is issued (R109).

section
variable {pid : Nat} {p : Prog} (hbody : o.body = .program pid) (hprog : s.prog pid = some p)
include hbody hprog

/-- R109: a group that is no longer there has had its map write. -/
theorem State.cancelOp_program : s.cancelOp h =
    if 10 ≤ p.step ∨ (p.step = 9 ∧ (!(s.group p.group).isSome || s.mapIssued p.group) = true) then (3, id)
    else (0, fun u => u.failMember pid 0x0A false) := by
  simp only [State.cancelOp, hop, hbody, hprog]
  cases s.group p.group <;> rfl

theorem State.cancelOp_program_open (hopen : p.step < 9 ∨ (p.step = 9 ∧ (s.group p.group).isSome = true ∧ s.mapIssued p.group = false)) :
    s.cancelOp h = (0, fun u => u.failMember pid 0x0A false) := by
  rw [State.cancelOp_program hop hbody hprog]
  refine if_neg ?_
  rcases hopen with hearly | ⟨hnine, hgroup, hissued⟩
  · omega
  · simp [hnine, hgroup, hissued]

theorem State.cancelOp_program_issued (hissued : 10 ≤ p.step ∨ (p.step = 9 ∧ s.mapIssued p.group = true)) : s.cancelOp h = (3, id) := by
  rw [State.cancelOp_program hop hbody hprog]
  exact if_pos (hissued.imp_right fun ⟨hnine, hwritten⟩ => ⟨hnine, by simp [hwritten]⟩)

end

/-- R231, R249: a load or a fold, by whether its last map write is issued. -/
theorem State.cancelOp_rounds {r : Rounds} (hbody : (∃ l, o.body = .load l) ∨ ∃ f, o.body = .fold f) (hrounds : s.rounds h = some r) :
    s.cancelOp h = if r.switchIssued s then (3, id) else (0, fun u => (u.failRun h 0x0C 7).1) := by
  rcases hbody with ⟨l, hbody⟩ | ⟨f, hbody⟩
  · simp only [State.cancelOp, hop, hbody, hrounds]
  · simp only [State.cancelOp, hop, hbody, hrounds]

end

/-- Settles O21: the commands by whether the handle names an operation, and the outcomes by the operation's kind and its flag. -/
theorem longOperationCommands : Obligations.LongOperationCommands := by
  unfold Obligations.LongOperationCommands
  refine ⟨fun q t s => ⟨fun hserve => ?suspend, fun hserve => ?resume, fun hserve => ?cancel⟩,
    fun h o s hop => ⟨fun hdump => ?dump, fun hother => ⟨State.suspendOp_suspended hop hother, State.suspendOp_running hop hother⟩,
      fun hother => ⟨State.resumeOp_running hop hother, State.resumeOp_suspended hop hother⟩, fun f hftest => ?ftest, fun c hcalib => ?calib,
      fun pid p hprogram hprog => ?program, fun r hbody hrounds => ?rounds⟩⟩
  case suspend =>
    rw [exec_suspend_served hserve]
    exact ⟨fun hnone => by rw [hnone], fun h hsome => by rw [hsome]⟩
  case resume =>
    rw [exec_resume_served hserve]
    exact ⟨fun hnone => by rw [hnone], fun h hsome => by rw [hsome]⟩
  case cancel =>
    rw [exec_cancel_served hserve]
    exact ⟨fun hnone => by rw [hnone]; rfl, fun h hsome => by rw [hsome]⟩
  case dump =>
    rw [State.suspendOp_dump hop hdump, State.resumeOp_dump hop hdump]
    exact ⟨rfl, rfl, rfl, rfl, State.cancelOp_dump hop hdump⟩
  case ftest =>
    rw [State.cancelOp_ftest hop hftest]
    refine ⟨fun hrunning => ?_, fun hsusp => ?_, rfl, fun _ => rfl⟩
    · rw [State.suspendOp_ftest hop hftest hrunning, State.onOp_eq hop]
      rfl
    · rw [State.resumeOp_ftest hop hftest hsusp, State.onOp_eq hop]
      rfl
  case calib =>
    rw [State.cancelOp_calib hop hcalib]
    exact ⟨rfl, fun _ => rfl⟩
  case program =>
    refine ⟨fun hopen => ?_, fun hissued => ?_⟩
    · rw [State.cancelOp_program_open hop hprogram hprog hopen]
      exact ⟨rfl, fun _ => rfl⟩
    · rw [State.cancelOp_program_issued hop hprogram hprog hissued]
      exact ⟨rfl, fun _ => rfl⟩
  case rounds =>
    rw [State.cancelOp_rounds hop hbody hrounds]
    exact ⟨fun hopen => by simp [hopen], fun hissued => by simp [hissued]⟩

end Sys2Proof.Machine
end

section
/-! SUPPORT. Accesses of BAR2 in Full power: what the enabled bytes of a string leave of memory, when a masked write has nothing to report, and the accesses that are flagged (R284, R318); from these O44. -/

namespace Sys2Proof.Machine

theorem memPutSome_cons (m : List Host.Cell) (a : Nat) (b : Option Byte) (r : List (Option Byte)) :
    memPutSome m a (b :: r) = memPutSome (b.elim m (memPut m a)) (a + 1) r := by
  cases b <;> rfl

/-- A byte of a string reads back where it is enabled; where it is not, memory keeps its own. -/
theorem memGet_putSome_same {m : List Host.Cell} (hm : Memory.wf m = true) (a : Nat) {bs : List (Option Byte)} {k : Nat} {b : Option Byte}
    (hb : bs[k]? = some b) : memGet (memPutSome m a bs) (a + k) = b.getD (memGet m (a + k)) := by
  induction bs generalizing m a k with
  | nil => simp at hb
  | cons c r ih =>
    rw [memPutSome_cons]
    cases k with
    | zero =>
      obtain rfl : c = b := by simpa using hb
      rw [memGet_putSome_other _ _ _ _ (Or.inl (by omega))]
      cases c with
      | none => rfl
      | some v => exact memGet_put_same m a v hm
    | succ j =>
      have hwf : Memory.wf (c.elim m (memPut m a)) = true := by
        cases c with
        | none => exact hm
        | some v => exact Memory.wf_put m a v hm
      have hkept : memGet (c.elim m (memPut m a)) (a + (j + 1)) = memGet m (a + (j + 1)) := by
        cases c with
        | none => rfl
        | some v => exact memGet_put_other m _ _ v (by omega)
      rw [show a + (j + 1) = a + 1 + j by omega] at hkept ⊢
      rw [ih hwf (a + 1) (by simpa using hb), hkept]

theorem foldl_filter_of_none {α β : Type} {l : List α} {p : α → Bool} {f : β → α → β} {b : β} (h : ∀ x ∈ l, ¬p x = true) : (l.filter p).foldl f b = b := by
  rw [List.filter_eq_nil_iff.mpr h, List.foldl_nil]

/-- R318: a write that touches no uncorrectable word has no partial write to report. -/
theorem State.maskedWrite_clean {s : State} {a : Nat} {bytes : List (Option Byte)} (hclean : ∀ w ∈ s.hbmBad, 8 * w + 8 ≤ a ∨ a + bytes.length ≤ 8 * w) :
    ∃ bad, s.maskedWrite a bytes = { s with hbm := memPutSome s.hbm a bytes, hbmBad := bad } := by
  refine ⟨_, foldl_filter_of_none fun w hw hpart => ?_⟩
  simp only [Bool.and_eq_true, List.any_eq_true, List.mem_range, decide_eq_true_eq] at hpart
  obtain ⟨⟨i, hi, hle, hon⟩, -⟩ := hpart
  have hout := hclean w hw
  simp [List.getElem?_eq_none (show bytes.length ≤ 8 * w + i - a by omega)] at hon

theorem State.wakeEvent_full {s : State} (hfull : s.bud.power = .full) (k : WakeKind) : s.wakeEvent k = s := by
  simp [State.wakeEvent, hfull]

section
variable {s : State} {a n : Nat} {bytes : List (Option Byte)}

/-- The first row of R284's table. -/
theorem State.bar2Flag_past (hpast : hbmSize < a + n) : s.bar2Flag a n = some 2 := if_pos hpast

theorem State.readBar2_flagged {k : Nat} (hn : 0 < n) (hflag : s.bar2Flag a n = some k) :
    s.readBar2 a n = (s.pciError k 0 a).emit (.readData (List.replicate n 0) false) := by
  simp [State.readBar2, Nat.ne_of_gt hn, hflag]

theorem State.readBar2_clean (hn : 0 < n) (hflag : s.bar2Flag a n = none)
    (hclean : s.firstUe (a / 64 * 64) ((a + n - 1) / 64 * 64 + 64 - a / 64 * 64) = none) :
    s.readBar2 a n = s.emit (.readData (s.hbmBytes a n) false) := by
  simp [State.readBar2, Nat.ne_of_gt hn, hflag, hclean]

theorem State.writeBar2_flagged {k : Nat} (hflag : s.bar2Flag a bytes.length = some k) : s.writeBar2 a bytes = s.pciError k 0 a := by
  simp only [State.writeBar2, hflag]

theorem State.writeBar2_open (hflag : s.bar2Flag a bytes.length = none) : s.writeBar2 a bytes = s.maskedWrite a bytes := by
  simp only [State.writeBar2, hflag]

section
variable (hfull : s.bud.power = .full)
include hfull

/-- In Full power no access waits for a wake. -/
theorem State.accessBar2_full (h : HeldAcc) : s.accessBar2 h = h.run s := by
  simp [State.accessBar2, hfull, State.wakeEvent_full hfull]

variable (hlive : s.live = true) (hd0 : s.pcie.d3hot = false)
include hlive hd0

theorem exec_bar2Read_full : exec (.bar2Read a n) s = .next (s.readBar2 a n) :=
  congrArg ok ((if_pos ⟨hlive, by simp [hd0]⟩).trans (State.accessBar2_full hfull _))

theorem exec_bar2Write_full (hne : bytes ≠ []) : exec (.bar2Write a bytes) s = .next (s.writeBar2 a bytes) :=
  congrArg ok ((if_pos ⟨hlive, by simp [hd0], by simp [hne]⟩).trans (State.accessBar2_full hfull _))

end
end

/-- Settles O44: an access in Full power is made at once; a write by which of its bytes are enabled, a read by its length and its flag. -/
theorem bar2Accesses : Obligations.Bar2Accesses := by
  unfold Obligations.Bar2Accesses
  refine fun a s hlive hd0 hfull => ⟨fun bytes hne hflag hclean hwf => ?write, fun n hn hflag hclean => ?read, exec_bar2Read_full hfull hlive hd0,
    fun n hn hpast => ⟨State.bar2Flag_past hpast, ?readPast⟩, fun bytes hne hpast => ?writePast⟩
  case write =>
    obtain ⟨bad, hwrite⟩ := State.maskedWrite_clean hclean
    refine ⟨{ s with hbm := memPutSome s.hbm a bytes, hbmBad := bad }, ?_, fun k v hk => memGet_putSome_same hwf a hk, fun k hk => memGet_putSome_same hwf a hk,
      fun x hx => memGet_putSome_other _ _ _ _ hx, rfl⟩
    rw [exec_bar2Write_full hfull hlive hd0 hne, State.writeBar2_open hflag, hwrite]
  case read => rw [exec_bar2Read_full hfull hlive hd0, State.readBar2_clean hn hflag hclean]
  case readPast => rw [exec_bar2Read_full hfull hlive hd0, State.readBar2_flagged hn (State.bar2Flag_past hpast)]
  case writePast => rw [exec_bar2Write_full hfull hlive hd0 hne, State.writeBar2_flagged (State.bar2Flag_past hpast)]

end Sys2Proof.Machine
end

section
/-! SUPPORT. Events of the host and of PCIe: the queues of a function in reset, a failed ring read, and configuration requests by what the device answers (R276, R277, R279, R280, R287, R288); from these O45. -/

namespace Sys2Proof.Machine

theorem State.haltQueue_queue_same (s : State) (q cause : Nat) : (s.haltQueue q cause).queue q = { s.queue q with halted := true, haltCause := byteOf cause } :=
  State.onQueue_queue_same _ _ _

-- The queues of a virtual function in reset (R280).

/-- Queue of a function in reset: it is halted and discards. -/
def QRun.InFlr (r : QRun) : Prop := r.flr = true ∧ r.halted = true

/-- One queue's part of a function reset. -/
def State.flrQueue (s : State) (q : Nat) : State := (s.haltQueue q 0x0F).onQueue q fun r => { r with flr := true, pendingDb := none }

/-- The enabled queues of function `v`. -/
def State.queuesOfFn (s : State) (v : Nat) : List Nat :=
  (s.que.queues.filter fun (p : Nat × QRun) => p.2.enabled && p.2.desc.function == v).map (·.1)

theorem State.flrQueue_same (s : State) (q : Nat) : ((s.flrQueue q).queue q).InFlr := by
  rw [State.flrQueue, State.onQueue_queue_same, State.haltQueue_queue_same]
  exact ⟨rfl, rfl⟩

theorem State.flrQueue_other (s : State) {q p : Nat} (h : q ≠ p) : (s.flrQueue p).queue q = s.queue q :=
  (State.onQueue_queue_other _ _ h).trans (State.onQueue_queue_other _ _ h)

theorem State.flrQueue_keeps {s : State} {q : Nat} (h : (s.queue q).InFlr) (p : Nat) : ((s.flrQueue p).queue q).InFlr := by
  by_cases hp : q = p
  · exact hp ▸ s.flrQueue_same q
  · rwa [State.flrQueue_other s hp]

theorem State.foldl_flrQueue (s : State) {l : List Nat} {q : Nat} (hq : q ∈ l) : ((l.foldl State.flrQueue s).queue q).InFlr := by
  induction l generalizing s with
  | nil => cases hq
  | cons p r ih =>
    rcases List.mem_cons.mp hq with rfl | hr
    · exact List.foldlRecOn (motive := fun u : State => (u.queue q).InFlr) r _ (s.flrQueue_same q) fun _ hu p _ => State.flrQueue_keeps hu p
    · exact ih _ hr

theorem State.mem_queuesOfFn {s : State} {q v : Nat} (henabled : (s.queue q).enabled = true) (hfunction : (s.queue q).desc.function = v) : q ∈ s.queuesOfFn v := by
  have hlisted : (q, s.queue q) ∈ s.que.queues := by
    cases hfind : smFind s.que.queues q with
    | none => simp [State.queue, smGet, hfind] at henabled
    | some r => exact smFind_mem _ _ _ (by rw [State.queue, smGet, hfind]; rfl)
  exact List.mem_map.mpr ⟨_, List.mem_filter.mpr ⟨hlisted, by simp [henabled, hfunction]⟩, rfl⟩

/-- The tasks that are discarded and the function's configuration leave the queues as they are. -/
theorem State.resetVf_queue (s : State) (v q : Nat) : (s.resetVf v).queue q = ((s.queuesOfFn v).foldl State.flrQueue s).queue q :=
  List.foldlRecOn (motive := fun u : State => u.queue q = ((s.queuesOfFn v).foldl State.flrQueue s).queue q) _ _ rfl fun _ hu _ _ => hu

theorem bit_or_wordOf_two_pow (w : Word) {i : Nat} (hi : i < 32) : bit (w ||| wordOf (2 ^ i)) i = true := by
  rw [bit, wordOf, BitVec.getLsbD_or, BitVec.getLsbD_ofNat]
  simp [hi]

theorem State.resetVf_busy (s : State) {v : Nat} (hv : v < 32) : bit (s.resetVf v).pcie.vfFlr v = true :=
  bit_or_wordOf_two_pow _ hv

theorem State.hasFunc_lt {s : State} {f : Nat} (h : s.hasFunc f = true) : f < 32 := by
  simp only [State.hasFunc, Bool.or_eq_true, Bool.and_eq_true, beq_iff_eq, decide_eq_true_eq] at h
  omega

theorem State.endVfFlr_idle {s : State} {v : Nat} (h : bit s.pcie.vfFlr v = false) : s.endVfFlr v = s := if_pos (Or.inl (by simp [h]))

-- The commands.

section
variable {s : State}

theorem exec_vfFlr_live {v : Nat} (hlive : s.live = true) (hv : 1 ≤ v) (hfn : s.hasFunc v = true) : exec (.vfFlr v) s = .next (s.resetVf v) :=
  congrArg ok (if_pos ⟨hlive, hv, hfn⟩)

/-- R280; that the payload size and ASPM control are kept is log entry 155 (PRESUMED). -/
theorem exec_pfFlr_live (hlive : s.live = true) : exec .pfFlr s = .next ((s.onPcie fun p =>
    { p with vfEnable := false, numVfs := 0, funcs := [], vfFlr := 0, d3hot := false, pmeEnable := false, pmeStatus := false,
             cfg := { payload := p.cfg.payload, aspmL1 := p.cfg.aspmL1 } }).beginWarm 2) :=
  congrArg ok (if_neg (by simp [hlive]))

theorem exec_msixUnmask_live {fn : Nat} (hlive : s.live = true) (hfn : s.hasFunc fn = true) :
    exec (.msixUnmask fn .enable) s = .next ((s.onFunc fn fun p => { p with msixEnable := true }).raisePending fn) ∧
    exec (.msixUnmask fn .busMaster) s = .next ((s.onFunc fn fun p => { p with busMaster := true }).raisePending fn) ∧
    ∀ v, exec (.msixUnmask fn (.unmask v)) s = .next ((s.onFunc fn fun p => { p with msix := smUpd {} p.msix v fun e => { e with masked := false } }).raisePending fn) :=
  ⟨congrArg ok (if_pos ⟨hlive, hfn⟩), congrArg ok (if_pos ⟨hlive, hfn⟩), fun _ => congrArg ok (if_pos ⟨hlive, hfn⟩)⟩

/-- R288: a ring read that fails halts its queue. -/
theorem State.failRequest_ring {q : Nat} (hreading : (s.queue q).reading = true) (addr : Nat) : s.failRequest (.ring q) addr =
    ((s.onQueue q fun r => { r with reading := false }).haltQueue q 3).dmaFailed (s.queue q).desc.function addr :=
  if_neg (by simp [hreading])

theorem State.failRequest_ring_queue {q : Nat} (hreading : (s.queue q).reading = true) (addr : Nat) :
    (s.failRequest (.ring q) addr).queue q = { s.queue q with reading := false, halted := true, haltCause := 3 } := by
  have hhalted : ((s.onQueue q fun r => { r with reading := false }).haltQueue q 3).queue q =
      { s.queue q with reading := false, halted := true, haltCause := 3 } := by
    rw [State.haltQueue_queue_same, State.onQueue_queue_same]
    rfl
  rw [State.failRequest_ring hreading, ← hhalted]
  rfl

theorem exec_refclkLoss_external (hext : s.pcie.refclkExt = true) :
    exec .refclkLoss s = .next { s with pcie := { s.pcie with refclkIn := false, linkState := 0, rate := 0, width := 0, flit := false } } :=
  congrArg ok (if_pos hext)

theorem exec_refclkLoss_internal (hint : s.pcie.refclkExt = false) : exec .refclkLoss s = .next { s with pcie := { s.pcie with refclkIn := false } } :=
  congrArg ok (if_neg (by simp [hint]))

-- Configuration requests (R275, R277).

theorem exec_configurationRequest_early {fn : Nat} {act : CfgAct} (hready : s.pcie.ready = false) (hboot : s.trunk.boot ≠ .off) (hperst : s.bud.perst = false) :
    exec (.configurationRequest fn act) s = .next (s.emit .cfgRetry) :=
  (if_pos (by simp [hready])).trans (congrArg ok (if_neg (by simp [hboot, hperst])))

section
variable (hready : s.pcie.ready = true) (hlive : s.live = true)
include hready hlive

theorem exec_configurationRequest_unsupported {fn : Nat} (hfn : s.hasFunc fn = false) (act : CfgAct) :
    exec (.configurationRequest fn act) s = .next (s.emit .cfgUnsupported) :=
  (if_neg (by simp [hready])).trans ((if_neg (by simp [hlive])).trans (if_pos (by simp [hfn])))

theorem exec_configurationRequest_read {fn : Nat} (hfn : s.hasFunc fn = true) (f : CfgField) :
    exec (.configurationRequest fn (.read f)) s = .next (s.emit (.cfgData (s.cfgValue fn f))) :=
  (if_neg (by simp [hready])).trans ((if_neg (by simp [hlive])).trans (if_neg (by simp [hfn])))

theorem exec_configurationRequest_vfEnable (on : Bool) (num : Nat) :
    exec (.configurationRequest 0 (.vfEnable on num)) s = .next ((s.emit .cfgDone).cfgWrite 0 (.vfEnable on num)) :=
  (if_neg (by simp [hready])).trans ((if_neg (by simp [hlive])).trans (if_neg (by simp [State.hasFunc])))

end

/-- The virtual functions that a write of VF Enable asks for, up to TotalVFs. -/
theorem State.cfgWrite_vfEnable (num : Nat) : s.cfgWrite 0 (.vfEnable true num) =
    s.onPcie fun p => { p with vfEnable := decide (0 < min num s.totalVfs), numVfs := min num s.totalVfs,
                               funcs := p.funcs.filter fun x => decide (x.1 ≤ min num s.totalVfs) } := by
  simp [State.cfgWrite]

theorem State.totalVfs_of_part (hpart : fld s.trunk.partId 15 0 ≠ 0) : s.totalVfs = 31 := if_neg hpart

theorem State.totalVfs_of_no_part (hpart : fld s.trunk.partId 15 0 = 0) : s.totalVfs = 0 := if_pos hpart

end

/-- Settles O45, event by event; a function reset by the queues it names, a failed ring read by the queue that it halts, a configuration request by readiness, function and field. -/
theorem hostEvents : Obligations.HostEvents := by
  unfold Obligations.HostEvents
  refine ⟨fun vf s hlive hvf hfn => ⟨exec_vfFlr_live hlive hvf hfn, s.resetVf_busy (State.hasFunc_lt hfn), fun q henabled hfunction => ?queues⟩,
    fun vf s => ⟨rfl, State.endVfFlr_idle⟩, fun s => exec_pfFlr_live, fun fn s => exec_msixUnmask_live, fun q addr s hreading => ?ring,
    fun t data s => rfl, fun s => ⟨exec_refclkLoss_external, exec_refclkLoss_internal⟩, fun fn act s => exec_configurationRequest_early,
    fun fn s hready hlive => ⟨exec_configurationRequest_unsupported hready hlive, exec_configurationRequest_read hready hlive,
      fun hpart num hpos hmax => ⟨_, exec_configurationRequest_vfEnable hready hlive true num, ?_⟩,
      fun hpart num => ⟨_, exec_configurationRequest_vfEnable hready hlive true num, ?_⟩⟩⟩
  case queues =>
    rw [State.resetVf_queue]
    exact s.foldl_flrQueue (State.mem_queuesOfFn henabled hfunction)
  case ring =>
    refine ⟨s.failRequest (.ring q) addr, rfl, ?_⟩
    rw [State.failRequest_ring_queue hreading, State.failRequest_ring hreading]
    exact ⟨rfl, rfl, rfl, rfl⟩
  case refine_1 =>
    have htotal : min num (s.emit .cfgDone).totalVfs = num := by rw [State.totalVfs_of_part (s := s.emit .cfgDone) hpart]; omega
    rw [State.cfgWrite_vfEnable, htotal]
    exact ⟨decide_eq_true hpos, rfl, rfl⟩
  case refine_2 =>
    rw [State.cfgWrite_vfEnable, State.totalVfs_of_no_part (s := s.emit .cfgDone) hpart, Nat.min_zero]
    exact ⟨rfl, rfl⟩

end Sys2Proof.Machine
end

section
/-! SUPPORT. The Aetholo links: a port and its links after a change of one of them, what a bad flit, a flit out of sequence and a message's last flit leave, and the link events by their conditions (R291 to R298); from these O52. -/

namespace Sys2Proof.Machine

theorem nth_modAt_same {α : Type} (d : α) {l : List α} {i : Nat} (h : i < l.length) (f : α → α) : nth d (modAt l i f) i = f (nth d l i) := by
  simp [nth, modAt, h]

@[simp] theorem Port.settle_link (q : Port) (b : Bool) : q.settle.link b = q.link b := by cases b <;> rfl

@[simp] theorem Port.link_retrain (q : Port) (b : Bool) (n : Word) : ({ q with retrain := n } : Port).link b = q.link b := by cases b <;> rfl

@[simp] theorem Port.settle_replay (q : Port) : q.settle.replay = q.replay := rfl

@[simp] theorem Port.settle_retrain (q : Port) : q.settle.retrain = q.retrain := rfl

-- A port that the device has, after a change of it.

section
variable {s : State} {p : Nat} {b : Bool} (hp : p < s.ael.ports.length)

@[simp] theorem State.onPort_ports_length (f : Port → Port) : (s.onPort p f).ael.ports.length = s.ael.ports.length := List.length_modify f _ _

@[simp] theorem State.onLink_ports_length (f : Link → Link) : (s.onLink p b f).ael.ports.length = s.ael.ports.length := State.onPort_ports_length _

include hp

theorem State.onPort_port_same (f : Port → Port) : (s.onPort p f).port p = f (s.port p) := nth_modAt_same ({} : Port) hp f

theorem State.onLink_link_same (f : Link → Link) : ((s.onLink p b f).port p).link b = f ((s.port p).link b) := by
  rw [State.onLink, State.onPort_port_same hp]
  cases b <;> rfl

/-- A change of a link leaves its port's counters. -/
theorem State.onLink_counters (f : Link → Link) : ((s.onLink p b f).port p).replay = (s.port p).replay ∧ ((s.onLink p b f).port p).retrain = (s.port p).retrain := by
  rw [State.onLink, State.onPort_port_same hp]
  cases b <;> exact ⟨rfl, rfl⟩

end

-- A flit whose CRC fails (R295).

/-- A bad flit is counted at its port, and as one more replay in a row at its link. -/
def State.countBad (s : State) (p : Nat) (b : Bool) : State :=
  (s.onPort p fun x => { x with replay := satInc x.replay }).onLink p b fun q => { q with replays := q.replays + 1 }

/-- A link leaves for training with the replay of its bad flit due. -/
def Link.toTraining (q : Link) : Link := { q with training := true, up := false, replays := 0, replayDue := true }

section
variable {s : State} {p : Nat} {b : Bool}

@[simp] theorem State.countBad_ports_length : (s.countBad p b).ael.ports.length = s.ael.ports.length := by simp [State.countBad]

theorem State.badFlit_replays (hfew : ((s.port p).link b).replays + 1 < 8) : s.badFlit p b = (s.countBad p b).askReplay p b := if_pos hfew

theorem State.badFlit_retrains (hmany : 8 ≤ ((s.port p).link b).replays + 1) :
    s.badFlit p b = ((s.countBad p b).onLink p b Link.toTraining).onPort p fun x => { x with retrain := satInc x.retrain }.settle :=
  if_neg (Nat.not_lt.mpr hmany)

theorem State.badFlit_frame (s : State) (p : Nat) (b : Bool) : s.badFlit p b = { s with ael := (s.badFlit p b).ael, out := (s.badFlit p b).out } := by
  rw [State.badFlit]
  split <;> rfl

variable (hp : p < s.ael.ports.length)
include hp

theorem State.countBad_link : ((s.countBad p b).port p).link b = { (s.port p).link b with replays := ((s.port p).link b).replays + 1 } := by
  rw [State.countBad, State.onLink_link_same (by simpa using hp), State.onPort_port_same hp]
  cases b <;> rfl

theorem State.countBad_counters : ((s.countBad p b).port p).replay = satInc (s.port p).replay ∧ ((s.countBad p b).port p).retrain = (s.port p).retrain := by
  have hlink := State.onLink_counters (s := s.onPort p fun x => { x with replay := satInc x.replay }) (b := b) (by simpa using hp) fun q => { q with replays := q.replays + 1 }
  rwa [State.onPort_port_same hp] at hlink

/-- While its replays in a row stay below eight, the link stays up and asks for the flit again. -/
theorem State.badFlit_asks (hfew : ((s.port p).link b).replays + 1 < 8) :
    ((s.badFlit p b).port p).link b = { (s.port p).link b with replays := ((s.port p).link b).replays + 1 } ∧
      ∃ bytes, (s.badFlit p b).out = .flit p b bytes (.replay ((s.port p).link b).rxSeq) :: s.out := by
  rw [State.badFlit_replays hfew]
  refine ⟨State.countBad_link hp, ?_⟩
  simp only [State.askReplay, State.countBad_link hp]
  exact ⟨_, rfl⟩

theorem State.badFlit_trains (hmany : 8 ≤ ((s.port p).link b).replays + 1) :
    (((s.badFlit p b).port p).link b).training = true ∧ ((s.badFlit p b).port p).retrain = satInc (s.port p).retrain := by
  have hp' : p < (s.countBad p b).ael.ports.length := by simpa using hp
  rw [State.badFlit_retrains hmany, State.onPort_port_same (by simpa using hp)]
  constructor
  · rw [Port.settle_link, Port.link_retrain, State.onLink_link_same hp', Link.toTraining]
  · rw [Port.settle_retrain, (State.onLink_counters hp' _).2, (State.countBad_counters hp).2]

/-- A bad flit is counted at its port whether its link asks for it again or retrains. -/
theorem State.badFlit_replay : ((s.badFlit p b).port p).replay = satInc (s.port p).replay := by
  by_cases hfew : ((s.port p).link b).replays + 1 < 8
  · rw [State.badFlit_replays hfew]
    exact (State.countBad_counters hp).1
  · have hp' : p < (s.countBad p b).ael.ports.length := by simpa using hp
    rw [State.badFlit_retrains (Nat.not_lt.mp hfew), State.onPort_port_same (by simpa using hp), Port.settle_replay, (State.onLink_counters hp' _).1, (State.countBad_counters hp).1]

end

-- Flits that a link takes (R294 to R296).

/-- A flit of a message in sequence is taken: the next one is awaited, its credit return is noted and its own credit is owed. -/
def State.acceptFlit (s : State) (p : Nat) (b : Bool) (f : Flit) (m : AelMsg) : State :=
  s.onLink p b fun q => { q with rxSeq := q.rxSeq + 1, replays := 0, credits := modAt q.credits f.creditVc fun c => min (fullCredits f.creditVc) (c + f.creditRet),
                                 owed := modAt q.owed m.vc (· + 1) }

section
variable {s : State} {p : Nat} {b : Bool} {f : Flit} (hup : ((s.port p).link b).up = true) (htraining : ((s.port p).link b).training = false)
  (hcorrected : f.corrected = false)
include hup htraining hcorrected

theorem State.takeFlit_badCrc (hcrc : f.crcOk = false) : s.takeFlit p b f = s.badFlit p b := by
  simp [State.takeFlit, hup, htraining, hcorrected, hcrc]

section
variable (hcrc : f.crcOk = true)
include hcrc

theorem State.takeFlit_outOfSequence (hbody : ∀ n, f.body ≠ .replay n) (hseq : f.seq ≠ ((s.port p).link b).rxSeq) : s.takeFlit p b f = s := by
  cases hf : f.body with
  | replay n => exact absurd hf (hbody n)
  | part m k last => simp [State.takeFlit, hup, htraining, hcorrected, hcrc, hf, hseq]
  | credit => simp [State.takeFlit, hup, htraining, hcorrected, hcrc, hf, hseq]

theorem State.takeFlit_last {m : AelMsg} {k : Nat} (hbody : f.body = .part m k true) (hseq : f.seq = ((s.port p).link b).rxSeq) :
    s.takeFlit p b f = (((s.acceptFlit p b f m).drainLink p b).deliver p b m).returnOwed p b := by
  simp [State.takeFlit, State.acceptFlit, hup, htraining, hcorrected, hcrc, hbody, hseq]

end

end

-- The link events.

theorem State.not_isManager_of_isWorker {s : State} (h : s.isWorker = true) : s.isManager = false := by
  simp only [State.isWorker, State.isManager, decide_eq_true_eq, decide_eq_false_iff_not] at h ⊢
  simp [h]

theorem State.myDev_worker {s : State} (h : s.isWorker = true) : s.myDev = 1 + 16 * s.ael.role.ring + s.ael.role.position := by
  simp only [State.isWorker, decide_eq_true_eq] at h
  simp [State.myDev, h]

theorem State.myDev_other {s : State} (h : s.isWorker = false) : s.myDev = 0 := by
  simp only [State.isWorker, decide_eq_false_iff_not] at h
  rw [State.myDev]
  split
  · contradiction
  · rfl

section
variable {s : State} {p : Nat} {b : Bool} (hwired : s.wired p b = true)
include hwired

section
variable (hlive : s.aelLive = true)
include hlive

theorem exec_discoveryMessage_discovery (n : Nat) : exec (.discoveryMessage p b (.discovery n)) s = .next (s.deliver p b (.discovery n)) :=
  congrArg ok (if_neg (by simp [hlive, hwired]))

theorem exec_discoveryMessage_answer (r q : Nat) (sys : Word) (hops : Nat) :
    exec (.discoveryMessage p b (.discoveryAnswer r q sys hops)) s = .next (s.deliver p b (.discoveryAnswer r q sys hops)) :=
  congrArg ok (if_neg (by simp [hlive, hwired]))

theorem exec_aetholoFlitReceive_wired (f : Flit) : exec (.aetholoFlitReceive p b f) s = .next (s.takeFlit p b f) := congrArg ok (if_pos ⟨hlive, hwired⟩)

end

theorem exec_linkRetrainDone_wired : exec (.linkRetrainDone p b) s = .next (s.linkUp p b) := congrArg ok (if_pos hwired)

theorem exec_linkRetrainTimeout_training (htraining : ((s.port p).link b).training = true) : exec (.linkRetrainTimeout p b) s =
    .next (((s.onLink p b fun q => { q with training := false, up := false, waiting := [] }).onPort p Port.settle).breakLink (s.linkNo p b).1 (s.linkNo p b).2) :=
  congrArg ok (if_pos ⟨hwired, htraining⟩)

end

theorem exec_linkDown_manager {s : State} {p link : Nat} (hmanager : s.isManager = true) (hp : p < 4) (hlink : link ≤ s.ringLen p) (hring : 0 < s.ringLen p) :
    exec (.linkDown p link) s = .next (s.breakLink p link) :=
  congrArg ok (if_pos ⟨hmanager, hp, hlink, hring⟩)

theorem exec_linkDown_worker {s : State} (p : Nat) {link : Nat} (hworker : s.isWorker = true) (hlink : link ≤ 16) :
    exec (.linkDown p link) s = .next (s.breakLink s.ael.role.ring link) :=
  congrArg ok ((if_neg (by simp [State.not_isManager_of_isWorker hworker])).trans (if_pos ⟨hworker, hlink⟩))

/-- Settles O52, event by event; a received flit by its CRC, then by its place in the sequence. -/
theorem aetholoLinks : Obligations.AetholoLinks := by
  unfold Obligations.AetholoLinks
  refine ⟨fun p b s hlive hwired => ⟨exec_discoveryMessage_discovery hwired hlive, exec_discoveryMessage_answer hwired hlive, exec_aetholoFlitReceive_wired hwired hlive,
      exec_linkRetrainDone_wired hwired, exec_linkRetrainTimeout_training hwired⟩, fun ring s hlive => congrArg ok (if_pos hlive),
    fun p link s => exec_linkDown_manager, fun p link s => exec_linkDown_worker p, fun s => State.myDev_worker, fun s => State.myDev_other,
    fun p b f s hp hup htraining hcorrected => ⟨fun hcrc => ?bad, fun hcrc => State.takeFlit_outOfSequence hup htraining hcorrected hcrc, fun m k hcrc hbody hseq => ?last⟩⟩
  case bad =>
    rw [State.takeFlit_badCrc hup htraining hcorrected hcrc]
    refine ⟨State.badFlit_replay hp, fun hfew => ?_, State.badFlit_trains hp, s.badFlit_frame p b⟩
    obtain ⟨hlink, hasks⟩ := State.badFlit_asks hp hfew
    rw [hlink]
    exact ⟨hup, rfl, hasks⟩
  case last =>
    have hlink := State.onLink_link_same (b := b) hp
    refine ⟨s.acceptFlit p b f m, ?_, ?_, rfl, State.takeFlit_last hup htraining hcorrected hcrc hbody hseq⟩ <;> rw [State.acceptFlit, hlink]

end Sys2Proof.Machine
end

section
/-! SUPPORT. Collective commands and messages: what arming and disarming answer and what a disarmed entry leaves, and the events of the runs and the notices by what the device is (R299 to R310); from these O53. -/

namespace Sys2Proof.Machine

theorem smFind_map {α β : Type} (m : SMap α) (g : α → β) (k : Nat) : smFind (m.map fun p => (p.1, g p.2)) k = (smFind m k).map g := by
  induction m with
  | nil => rfl
  | cons p r ih =>
    obtain ⟨i, v⟩ := p
    by_cases hi : i = k
    · simp [smFind, hi]
    · simpa [smFind, hi] using ih

-- A disarmed entry (R300).

/-- A knot on which entry `e` waits no longer. -/
def Knot.unwait (e : Nat) (x : Knot) : Knot := { x with waiters := x.waiters.filter (· != .coll e) }

theorem State.unwaitColl_knot (s : State) (e n : Nat) : (s.unwaitColl e).knot n = (s.knot n).unwait e := by
  have hfind : smFind (s.unwaitColl e).que.knots n = (smFind s.que.knots n).map (Knot.unwait e) := smFind_map s.que.knots (Knot.unwait e) n
  rw [State.knot, State.knot, smGet, smGet, hfind]
  cases smFind s.que.knots n <;> rfl

/-- What waits on a knot for an entry, and the entry itself, are gone. -/
def State.dropEntry (s : State) (e : Nat) : State := (s.unwaitColl e).onAel fun x => { x with armed := smErase x.armed e }

theorem State.dropEntry_armed_same (s : State) (e : Nat) : (s.dropEntry e).armed e = none := smFind_erase_same _ _

theorem State.dropEntry_armed_other (s : State) {e e' : Nat} (h : e' ≠ e) : (s.dropEntry e).armed e' = s.armed e' := smFind_erase_other _ _ _ h

-- Arming and disarming (R300, R312).

section
variable {s : State} {e : Nat}

theorem State.armEntry_badEntry (hclean : s.hbmUe (s.ael.collBase.toNat + 64 * e) 64 = false) (hbad : parseColl (s.hbmBytes (s.ael.collBase.toNat + 64 * e) 64) = none) :
    s.armEntry e = s.armResult 1 := by
  simp [State.armEntry, hclean, hbad]

theorem State.disarmEntry_none (hnone : s.armed e = none) : s.disarmEntry e = s.armResult 0 := by
  rw [State.disarmEntry, hnone]

theorem State.disarmEntry_flying {a : Armed} (harmed : s.armed e = some a) (hflying : a.inFlight = true) : s.disarmEntry e = s.armResult 3 := by
  rw [State.disarmEntry, harmed]
  exact if_pos hflying

theorem State.disarmEntry_idle {a : Armed} (harmed : s.armed e = some a) (hidle : a.inFlight = false) : s.disarmEntry e = (s.dropEntry e).armResult 0 := by
  rw [State.disarmEntry, harmed]
  exact if_neg (by simp [hidle])

variable (hlive : s.regLive = true) (hfree : s.ael.armBusy = false) (he : e < 4096)
include hlive hfree he

theorem exec_collArm_held (hheld : s.tableHeld e = true) : exec (.collArm e) s = .next { s with ael := { s.ael with armBusy := true, armOp := 1, armEntry := e } } :=
  congrArg ok ((if_neg (by simp [hlive, hfree, he])).trans (if_pos hheld))

theorem exec_collArm_reads (hread : s.tableHeld e = false) : exec (.collArm e) s = .next (s.armEntry e) :=
  congrArg ok ((if_neg (by simp [hlive, hfree, he])).trans (if_neg (by simp [hread])))

theorem exec_collDisarm_free : exec (.collDisarm e) s = .next (s.disarmEntry e) := congrArg ok (if_neg (by simp [hlive, hfree, he]))

end

-- Messages, the end of a run, and notices (R299 to R310).

section
variable {s : State} (hlive : s.aelLive = true)
include hlive

theorem exec_collectiveTransfer_wired {p : Nat} {b : Bool} (x : Xfer) (hwired : s.wired p b = true) :
    exec (.collectiveTransfer p b x) s = .next (s.takeTransfer p b x) :=
  congrArg ok (if_pos ⟨hlive, hwired⟩)

theorem exec_collectiveArrival_live (dev e stand : Nat) (sig : List Byte) : exec (.collectiveArrival dev e stand sig) s = .next (s.arrive dev e stand sig) :=
  congrArg ok (if_pos hlive)

theorem exec_collectiveRelease_released (e dev stand : Nat) :
    exec (.collectiveRelease e 0 dev stand) s = .next ((s.relay (.release e)).takeRelease e 0 dev stand) :=
  congrArg ok (if_pos hlive)

theorem exec_collectiveRelease_failed {status : Byte} (e dev stand : Nat) (hstatus : status ≠ 0) :
    exec (.collectiveRelease e status dev stand) s = .next ((s.relay (.endRun e status dev stand)).takeRelease e status dev stand) :=
  congrArg ok ((if_pos hlive).trans (by rw [if_neg hstatus]))

theorem exec_collectiveRunEnd_live (e : Nat) : exec (.collectiveRunEnd e) s = .next (s.settleQueues.endCollRun e) := congrArg ok (if_pos hlive)

theorem exec_aetholoKnotSignal_role {n : Nat} (hrole : s.hasRole = true) (hn : n < 65536) :
    exec (.aetholoKnotSignal n) s = .next (s.settleQueues.signalKnot n).settleQueues :=
  congrArg ok (if_pos ⟨hlive, hrole, hn⟩)

theorem exec_sysResetNotice_worker (hworker : s.isWorker = true) : exec .sysResetNotice s = .next ((s.relay .sysReset).beginWarm 3) :=
  congrArg ok ((if_pos hlive).trans (if_pos hworker))

theorem exec_resetNotice_manager {dev stand : Nat} {warm : Bool} {inc : BitVec 16} (hmanager : s.isManager = true) :
    exec (.resetNotice dev stand warm inc) s = .next (s.broadcastNotice dev stand (if warm then 2 else 1) inc).mgrAll :=
  congrArg ok ((if_pos hlive).trans (if_pos hmanager))

theorem exec_peerNotice_worker {dev stand reason : Nat} {inc : BitVec 16} (hworker : s.isWorker = true) :
    exec (.peerNotice dev stand reason inc) s = .next ((s.relay (.peerNotice dev stand reason inc)).applyNotice dev stand reason inc) :=
  congrArg ok ((if_pos hlive).trans (if_pos hworker))

end

theorem exec_aelSysReset_manager {s : State} {v : Word} (hlive : s.regLive = true) (hmanager : s.isManager = true) (hv : bit v 0 = true) :
    exec (.aelSysReset v) s = .next ((s.sendAll .sysReset).beginWarm 3) :=
  congrArg ok (if_pos ⟨hlive, hmanager, hv⟩)

/-- Settles O53, event by event; an arming by whether its table can be read and holds an entry, a disarming by what the entry is. -/
theorem collectiveEvents : Obligations.CollectiveEvents := by
  unfold Obligations.CollectiveEvents
  refine ⟨fun e s hlive hfree he => ?arming, fun s hlive => ⟨fun p b x => exec_collectiveTransfer_wired hlive x, exec_collectiveArrival_live hlive,
      exec_collectiveRelease_released hlive, fun e status dev stand => exec_collectiveRelease_failed hlive e dev stand, exec_collectiveRunEnd_live hlive,
      fun n => exec_aetholoKnotSignal_role hlive, exec_sysResetNotice_worker hlive, fun dev stand warm inc => exec_resetNotice_manager hlive,
      fun dev stand reason inc => exec_peerNotice_worker hlive⟩, fun v s => exec_aelSysReset_manager⟩
  case arming =>
    rw [exec_collDisarm_free hlive hfree he]
    refine ⟨exec_collArm_held hlive hfree he, exec_collArm_reads hlive hfree he, fun hread hclean hbad => ?_, fun hnone => ?_, fun a harmed hflying => ?_, fun a harmed hidle => ?_⟩
    · rw [exec_collArm_reads hlive hfree he hread, State.armEntry_badEntry hclean hbad]
      rfl
    · rw [State.disarmEntry_none hnone]
      rfl
    · rw [State.disarmEntry_flying harmed hflying]
      rfl
    · rw [State.disarmEntry_idle harmed hidle]
      exact ⟨_, rfl, s.dropEntry_armed_same e, rfl, fun e' => s.dropEntry_armed_other, fun n => congrArg Knot.waiters (s.unwaitColl_knot e n), rfl⟩

end Sys2Proof.Machine
end

section
/-! SUPPORT. The test access port (R425): an instruction that drives the pins by PERST_N, and BYPASS by its code; from these O60. -/

namespace Sys2Proof.Machine

variable {s : State}

theorem State.tapPins_perst (halive : s.tapAlive = true) (hperst : s.bud.perst = true) (f : Tap → Tap) : s.tapPins f = s.onTap f := by
  simp [State.tapPins, halive, hperst]

theorem State.tapPins_running (halive : s.tapAlive = true) (hperst : s.bud.perst = false) (f : Tap → Tap) : s.tapPins f = s.tapBypass := by
  simp [State.tapPins, halive, hperst]

/-- BYPASS has no described effect: the rails are up and its code is a vendor's that a debug grant, or Manufacturing, admits. -/
def State.VendorCode (s : State) (code : Byte) : Prop :=
  s.tapAlive = true ∧ 0x80 ≤ code.toNat ∧ code.toNat ≤ 0xFE ∧ (s.trunk.debugActive = true ∨ s.store.counters.lifecycle = 0)

theorem exec_bypass_vendor {code : Byte} (hcode : s.VendorCode code) : exec (.bypass code) s = .refused (.vendorInstruction code) := if_pos hcode

theorem exec_bypass_plain {code : Byte} (hcode : ¬ s.VendorCode code) : exec (.bypass code) s = .next (if s.tapAlive then s.tapBypass else s) := if_neg hcode

/-- Settles O60: PERST_N selects an instruction's own effect on the port or BYPASS's, and BYPASS goes on exactly where its code is no vendor's. That a vendor code is refused is log entry 138. -/
theorem testPortCommands : Obligations.TestPortCommands := by
  unfold Obligations.TestPortCommands
  intro s hboot
  have halive : s.tapAlive = true := decide_eq_true hboot
  refine ⟨fun hperst => ?_, fun hperst bits c hc => ?_, ?_, fun pins bits => ?_, fun code hcode => ?_, fun code hlow hhigh hgrant => ?_⟩
  · have hpins (f : Tap → Tap) : ok (s.tapPins f) = .next (s.onTap f) := congrArg ok (State.tapPins_perst halive hperst f)
    exact ⟨fun bits => hpins _, hpins _, hpins _, hpins _, hpins _⟩
  · have hpins (f : Tap → Tap) : ok (s.tapPins f) = .next s.tapBypass := congrArg ok (State.tapPins_running halive hperst f)
    simp only [List.mem_cons, List.not_mem_nil, or_false] at hc
    obtain rfl | rfl | rfl | rfl | rfl := hc <;> exact hpins _
  · exact ⟨_, congrArg ok (if_neg (by simp [halive])), rfl, rfl, rfl⟩
  · exact congrArg ok (if_neg (by simp [halive]))
  · have hplain : ¬ s.VendorCode code := by
      rintro ⟨-, hlow, hhigh, hgrant⟩
      rcases hcode with h | h | ⟨hdebug, hlife⟩
      · omega
      · omega
      · simp [hdebug, hlife] at hgrant
    rw [exec_bypass_plain hplain, if_pos halive]
    rfl
  · exact exec_bypass_vendor ⟨halive, hlow, hhigh, hgrant⟩

end Sys2Proof.Machine
end

section
/-! SUPPORT. Every command and every step: a command answers a next state unless it is a vendor's TAP code (R425), it keeps the canonical form of memory and the waiting commands, and a step is the front command on the queue's rest (log entry 1); from these O1 to O5. -/

namespace Sys2Proof.Machine

variable {s : State}

/-- Settles O1: a step on a queue with a front is, by definition, its command. -/
theorem stepRunsFrontCommand : Obligations.StepRunsFrontCommand := by
  unfold Obligations.StepRunsFrontCommand
  intro c rest s
  rfl

/-- Settles O2: a step on an empty queue, and a table whose rows have no bits. -/
theorem emptyQueueIdlesAndNoWordSpells : Obligations.EmptyQueueIdlesAndNoWordSpells := by
  unfold Obligations.EmptyQueueIdlesAndNoWordSpells
  refine ⟨fun s hempty => ?_, fun nbits w s => ⟨rfl, rfl⟩⟩
  unfold step
  rw [hempty]

/-- Settles O3: BYPASS by its code, and every other command, whose meaning is a next state in each of its branches. The refusal of a vendor code is log entry 138, and that an event that is not enabled answers the state unchanged is log entry 7. -/
theorem everyCommandAnswers : Obligations.EveryCommandAnswers := by
  unfold Obligations.EveryCommandAnswers
  intro c s
  cases c
  case bypass code =>
    by_cases hcode : s.VendorCode code
    · obtain ⟨-, hlow, hhigh, hgrant⟩ := id hcode
      exact .inr ⟨code, rfl, hlow, hhigh, hgrant, exec_bypass_vendor hcode⟩
    · exact .inl ⟨_, exec_bypass_plain hcode⟩
  case configurationRequest fn act =>
    left
    change ∃ t, execConfigurationRequest fn act s = .next t
    unfold execConfigurationRequest
    split_ifs <;> exact ⟨_, rfl⟩
  all_goals exact .inl ⟨_, rfl⟩

/-- Every command keeps the canonical form of memory and the commands that wait: its own lemma, by its name. -/
theorem exec_kept (c : Instr) {s : State} {pq : List Instr} (hs : State.Kept pq s) {s' : State} (hexec : exec c s = .next s') : State.Kept pq s' :=
  match c, hexec with
  | .vinApplied straps, hexec => execVinApplied_kept straps s hs s' hexec
  | .storeRecoveryDone timeUs, hexec => execStoreRecoveryDone_kept timeUs s hs s' hexec
  | .lossOf12V kept, hexec => execLossOf12V_kept kept s hs s' hexec
  | .railFault kept, hexec => execRailFault_kept kept s hs s' hexec
  | .perstNAssert, hexec => execPerstNAssert_kept s hs s' hexec
  | .perstNDeassert refclk puf, hexec => execPerstNDeassert_kept refclk puf s hs s' hexec
  | .startupStageDone o, hexec => execStartupStageDone_kept o s hs s' hexec
  | .fwSlotConfirm, hexec => execFwSlotConfirm_kept s hs s' hexec
  | .xmssSubtreeBuildDone, hexec => execXmssSubtreeBuildDone_kept s hs s' hexec
  | .refSelfCheck b l o, hexec => execRefSelfCheck_kept b l o s hs s' hexec
  | .leafPhase b l o, hexec => execLeafPhase_kept b l o s hs s' hexec
  | .governorInterval o, hexec => execGovernorInterval_kept o s hs s' hexec
  | .refDriftBlockEnd b l, hexec => execRefDriftBlockEnd_kept b l s hs s' hexec
  | .recalSpacingEnd b l, hexec => execRecalSpacingEnd_kept b l s hs s' hexec
  | .calMeasurementDone b l o, hexec => execCalMeasurementDone_kept b l o s hs s' hexec
  | .calCommit b l, hexec => execCalCommit_kept b l s hs s' hexec
  | .calibrate q, hexec => execCalibrate_kept q s hs s' hexec
  | .calibrateLoadTimeout h, hexec => execCalibrateLoadTimeout_kept h s hs s' hexec
  | .programLeaf q, hexec => execProgramLeaf_kept q s hs s' hexec
  | .progStepDone pid o, hexec => execProgStepDone_kept pid o s hs s' hexec
  | .spareLeafFreed b, hexec => execSpareLeafFreed_kept b s hs s' hexec
  | .leafSwap b, hexec => execLeafSwap_kept b s hs s' hexec
  | .suspend q, hexec => execSuspend_kept q s hs s' hexec
  | .resume q, hexec => execResume_kept q s hs s' hexec
  | .cancel q, hexec => execCancel_kept q s hs s' hexec
  | .nop b, hexec => execNop_kept b s hs s' hexec
  | .fetch b, hexec => execFetch_kept b s hs s' hexec
  | .store b, hexec => execStore_kept b s hs s' hexec
  | .drive b, hexec => execDrive_kept b s hs s' hexec
  | .combine3 b, hexec => execCombine3_kept b s hs s' hexec
  | .rescale b, hexec => execRescale_kept b s hs s' hexec
  | .table b, hexec => execTable_kept b s hs s' hexec
  | .cvt b, hexec => execCvt_kept b s hs s' hexec
  | .add b, hexec => execAdd_kept b s hs s' hexec
  | .sub b, hexec => execSub_kept b s hs s' hexec
  | .mul b, hexec => execMul_kept b s hs s' hexec
  | .fma b, hexec => execFma_kept b s hs s' hexec
  | .vmin b, hexec => execVmin_kept b s hs s' hexec
  | .vmax b, hexec => execVmax_kept b s hs s' hexec
  | .vabs b, hexec => execVabs_kept b s hs s' hexec
  | .select b, hexec => execSelect_kept b s hs s' hexec
  | .shl b, hexec => execShl_kept b s hs s' hexec
  | .shr b, hexec => execShr_kept b s hs s' hexec
  | .cmul b, hexec => execCmul_kept b s hs s' hexec
  | .cmulc b, hexec => execCmulc_kept b s hs s' hexec
  | .vsum b, hexec => execVsum_kept b s hs s' hexec
  | .rmax b, hexec => execRmax_kept b s hs s' hexec
  | .mac b, hexec => execMac_kept b s hs s' hexec
  | .graftApply b, hexec => execGraftApply_kept b s hs s' hexec
  | .graftGrad b, hexec => execGraftGrad_kept b s hs s' hexec
  | .graftStep b, hexec => execGraftStep_kept b s hs s' hexec
  | .cone b, hexec => execCone_kept b s hs s' hexec
  | .xsend b, hexec => execXsend_kept b s hs s' hexec
  | .xrecv b, hexec => execXrecv_kept b s hs s' hexec
  | .ksig b, hexec => execKsig_kept b s hs s' hexec
  | .kwait b, hexec => execKwait_kept b s hs s' hexec
  | .loop b, hexec => execLoop_kept b s hs s' hexec
  | .lbnd b, hexec => execLbnd_kept b s hs s' hexec
  | .endOp b, hexec => execEndOp_kept b s hs s' hexec
  | .pointerValueArrival b, hexec => execPointerValueArrival_kept b s hs s' hexec
  | .holdLinesFreed b, hexec => execHoldLinesFreed_kept b s hs s' hexec
  | .epochRetire b, hexec => execEpochRetire_kept b s hs s' hexec
  | .heldLineRelease b accepted parityBad, hexec => execHeldLineRelease_kept b accepted parityBad s hs s' hexec
  | .drainEnd b, hexec => execDrainEnd_kept b s hs s' hexec
  | .rangeRestoreWindow b l second, hexec => execRangeRestoreWindow_kept b l second s hs s' hexec
  | .biasWindowEnd b l g, hexec => execBiasWindowEnd_kept b l g s hs s' hexec
  | .xferLand b route sender, hexec => execXferLand_kept b route sender s hs s' hexec
  | .hbmReadResponse b o, hexec => execHbmReadResponse_kept b o s hs s' hexec
  | .patrolScrub ch o, hexec => execPatrolScrub_kept ch o s hs s' hexec
  | .diagnosisDone b l o, hexec => execDiagnosisDone_kept b l o s hs s' hexec
  | .leafTestDue b l, hexec => execLeafTestDue_kept b l s hs s' hexec
  | .leafPartDone b l o, hexec => execLeafPartDone_kept b l o s hs s' hexec
  | .logicTestDue b, hexec => execLogicTestDue_kept b s hs s' hexec
  | .testDeferralLimit b, hexec => execTestDeferralLimit_kept b s hs s' hexec
  | .logicPartDone b d1 d2 d3, hexec => execLogicPartDone_kept b d1 d2 d3 s hs s' hexec
  | .fullVerifyDone b l levels, hexec => execFullVerifyDone_kept b l levels s hs s' hexec
  | .fieldTest q, hexec => execFieldTest_kept q s hs s' hexec
  | .fieldTestSchedule q, hexec => execFieldTestSchedule_kept q s hs s' hexec
  | .loadCanopy q, hexec => execLoadCanopy_kept q s hs s' hexec
  | .canopyValidateDone h, hexec => execCanopyValidateDone_kept h s hs s' hexec
  | .canopyQuiesceDone h, hexec => execCanopyQuiesceDone_kept h s hs s' hexec
  | .quiesceTimeout h, hexec => execQuiesceTimeout_kept h s hs s' hexec
  | .foldGraft q, hexec => execFoldGraft_kept q s hs s' hexec
  | .foldEntryReadbackDone h levels, hexec => execFoldEntryReadbackDone_kept h levels s hs s' hexec
  | .doorbell fn off len data, hexec => execDoorbell_kept fn off len data s hs s' hexec
  | .queEnable q, hexec => execQueEnable_kept q s hs s' hexec
  | .queDisable q, hexec => execQueDisable_kept q s hs s' hexec
  | .queResume q, hexec => execQueResume_kept q s hs s' hexec
  | .queFlush q, hexec => execQueFlush_kept q s hs s' hexec
  | .queCtrlWrite v, hexec => execQueCtrlWrite_kept v s hs s' hexec
  | .taskDispatch b, hexec => execTaskDispatch_kept b s hs s' hexec
  | .taskCompletion b, hexec => execTaskCompletion_kept b s hs s' hexec
  | .coalTimer q, hexec => execCoalTimer_kept q s hs s' hexec
  | .syncInEdge rising, hexec => execSyncInEdge_kept rising s hs s' hexec
  | .knotSignal n, hexec => execKnotSignal_kept n s hs s' hexec
  | .queKnotSignal v, hexec => execQueKnotSignal_kept v s hs s' hexec
  | .queKnotCfg v, hexec => execQueKnotCfg_kept v s hs s' hexec
  | .queKnotState v, hexec => execQueKnotState_kept v s hs s' hexec
  | .registerWrite acc v, hexec => execRegisterWrite_kept acc v s hs s' hexec
  | .registerReadClear acc, hexec => execRegisterReadClear_kept acc s hs s' hexec
  | .loRegisterRead off, hexec => execLoRegisterRead_kept off s hs s' hexec
  | .bar0AccessTimeout acc isWrite, hexec => execBar0AccessTimeout_kept acc isWrite s hs s' hexec
  | .bar2Read addr len, hexec => execBar2Read_kept addr len s hs s' hexec
  | .bar2Write addr bytes, hexec => execBar2Write_kept addr bytes s hs s' hexec
  | .vfFlr vf, hexec => execVfFlr_kept vf s hs s' hexec
  | .vfFlrDone vf, hexec => execVfFlrDone_kept vf s hs s' hexec
  | .pfFlr, hexec => execPfFlr_kept s hs s' hexec
  | .msixUnmask fn act, hexec => execMsixUnmask_kept fn act s hs s' hexec
  | .dmaRequestFailed t addr, hexec => execDmaRequestFailed_kept t addr s hs s' hexec
  | .pfD3hotEntry, hexec => execPfD3hotEntry_kept s hs s' hexec
  | .pfD0Transition, hexec => execPfD0Transition_kept s hs s' hexec
  | .pmeTurnOff, hexec => execPmeTurnOff_kept s hs s' hexec
  | .pwrReqDormant, hexec => execPwrReqDormant_kept s hs s' hexec
  | .pwrReqWake, hexec => execPwrReqWake_kept s hs s' hexec
  | .dormantEntryStepDone, hexec => execDormantEntryStepDone_kept s hs s' hexec
  | .entryTimeout, hexec => execEntryTimeout_kept s hs s' hexec
  | .wakeEvent kind, hexec => execWakeEvent_kept kind s hs s' hexec
  | .wakeStepDone o, hexec => execWakeStepDone_kept o s hs s' hexec
  | .shadeIdleTimeout island, hexec => execShadeIdleTimeout_kept island s hs s' hexec
  | .islandRestart island, hexec => execIslandRestart_kept island s hs s' hexec
  | .clockLock island, hexec => execClockLock_kept island s hs s' hexec
  | .budPwrCap v, hexec => execBudPwrCap_kept v s hs s' hexec
  | .standReset j v, hexec => execStandReset_kept j v s hs s' hexec
  | .standResetStepDone j o, hexec => execStandResetStepDone_kept j o s hs s' hexec
  | .selfRefreshTimeout j, hexec => execSelfRefreshTimeout_kept j s hs s' hexec
  | .standResetEscalation j, hexec => execStandResetEscalation_kept j s hs s' hexec
  | .dumpUnitTimeout, hexec => execDumpUnitTimeout_kept s hs s' hexec
  | .dump q, hexec => execDump_kept q s hs s' hexec
  | .dumpUnitRead us payload, hexec => execDumpUnitRead_kept us payload s hs s' hexec
  | .replayAttemptEnd j, hexec => execReplayAttemptEnd_kept j s hs s' hexec
  | .replayBudgetExpiry j, hexec => execReplayBudgetExpiry_kept j s hs s' hexec
  | .warmReset v, hexec => execWarmReset_kept v s hs s' hexec
  | .warmResetStepDone o, hexec => execWarmResetStepDone_kept o s hs s' hexec
  | .warmDumpTimeout, hexec => execWarmDumpTimeout_kept s hs s' hexec
  | .warmNoticeTimeout, hexec => execWarmNoticeTimeout_kept s hs s' hexec
  | .coldReset, hexec => execColdReset_kept s hs s' hexec
  | .discoveryMessage port sideB m, hexec => execDiscoveryMessage_kept port sideB m s hs s' hexec
  | .discoveryTimeout ring, hexec => execDiscoveryTimeout_kept ring s hs s' hexec
  | .aetholoFlitReceive port sideB f, hexec => execAetholoFlitReceive_kept port sideB f s hs s' hexec
  | .linkRetrainDone port sideB, hexec => execLinkRetrainDone_kept port sideB s hs s' hexec
  | .linkRetrainTimeout port sideB, hexec => execLinkRetrainTimeout_kept port sideB s hs s' hexec
  | .linkDown port link, hexec => execLinkDown_kept port link s hs s' hexec
  | .collArm e, hexec => execCollArm_kept e s hs s' hexec
  | .collDisarm e, hexec => execCollDisarm_kept e s hs s' hexec
  | .collectiveTransfer port sideB x, hexec => execCollectiveTransfer_kept port sideB x s hs s' hexec
  | .collectiveArrival dev e stand sig, hexec => execCollectiveArrival_kept dev e stand sig s hs s' hexec
  | .collectiveRelease e status dev stand, hexec => execCollectiveRelease_kept e status dev stand s hs s' hexec
  | .collectiveRunEnd e, hexec => execCollectiveRunEnd_kept e s hs s' hexec
  | .aetholoKnotSignal knot, hexec => execAetholoKnotSignal_kept knot s hs s' hexec
  | .aelSysReset v, hexec => execAelSysReset_kept v s hs s' hexec
  | .sysResetNotice, hexec => execSysResetNotice_kept s hs s' hexec
  | .resetNotice dev stand warm inc, hexec => execResetNotice_kept dev stand warm inc s hs s' hexec
  | .peerNotice dev stand reason inc, hexec => execPeerNotice_kept dev stand reason inc s hs s' hexec
  | .storeWriteOpStart, hexec => execStoreWriteOpStart_kept s hs s' hexec
  | .storeWriteOpDone fails, hexec => execStoreWriteOpDone_kept fails s hs s' hexec
  | .storeBackgroundStep ok, hexec => execStoreBackgroundStep_kept ok s hs s' hexec
  | .poweredHourTick, hexec => execPoweredHourTick_kept s hs s' hexec
  | .getIdentity r, hexec => execGetIdentity_kept r s hs s' hexec
  | .getStatus r, hexec => execGetStatus_kept r s hs s' hexec
  | .getTelemetry r, hexec => execGetTelemetry_kept r s hs s' hexec
  | .readRecords r, hexec => execReadRecords_kept r s hs s' hexec
  | .clearAlert r, hexec => execClearAlert_kept r s hs s' hexec
  | .mgmtStandReset r, hexec => execMgmtStandReset_kept r s hs s' hexec
  | .mgmtWarmReset r, hexec => execMgmtWarmReset_kept r s hs s' hexec
  | .mgmtColdReset r, hexec => execMgmtColdReset_kept r s hs s' hexec
  | .mgmtPowerDormant r, hexec => execMgmtPowerDormant_kept r s hs s' hexec
  | .mgmtPowerWake r, hexec => execMgmtPowerWake_kept r s hs s' hexec
  | .setPowerCap r, hexec => execSetPowerCap_kept r s hs s' hexec
  | .writeRole r, hexec => execWriteRole_kept r s hs s' hexec
  | .getQuote r, hexec => execGetQuote_kept r s hs s' hexec
  | .getDebugNonce r nonce, hexec => execGetDebugNonce_kept r nonce s hs s' hexec
  | .provision r, hexec => execProvision_kept r s hs s' hexec
  | .installOwner r, hexec => execInstallOwner_kept r s hs s' hexec
  | .transferOwner r, hexec => execTransferOwner_kept r s hs s' hexec
  | .setPolicy r, hexec => execSetPolicy_kept r s hs s' hexec
  | .svnCommit r, hexec => execSvnCommit_kept r s hs s' hexec
  | .release r, hexec => execRelease_kept r s hs s' hexec
  | .debugGrant r, hexec => execDebugGrant_kept r s hs s' hexec
  | .fwBegin r, hexec => execFwBegin_kept r s hs s' hexec
  | .fwData r, hexec => execFwData_kept r s hs s' hexec
  | .fwEnd r, hexec => execFwEnd_kept r s hs s' hexec
  | .setEndpointId via eid, hexec => execSetEndpointId_kept via eid s hs s' hexec
  | .getEndpointId via, hexec => execGetEndpointId_kept via s hs s' hexec
  | .getEndpointUuid via, hexec => execGetEndpointUuid_kept via s hs s' hexec
  | .getMctpVersionSupport via, hexec => execGetMctpVersionSupport_kept via s hs s' hexec
  | .getMessageTypeSupport via, hexec => execGetMessageTypeSupport_kept via s hs s' hexec
  | .getVendorDefinedMsgSupport via, hexec => execGetVendorDefinedMsgSupport_kept via s hs s' hexec
  | .smbusAlertResponse, hexec => execSmbusAlertResponse_kept s hs s' hexec
  | .extest bits, hexec => execExtest_kept bits s hs s' hexec
  | .idcode, hexec => execIdcode_kept s hs s' hexec
  | .samplePreload pins bits, hexec => execSamplePreload_kept pins bits s hs s' hexec
  | .clamp, hexec => execClamp_kept s hs s' hexec
  | .highz, hexec => execHighz_kept s hs s' hexec
  | .extestPulse, hexec => execExtestPulse_kept s hs s' hexec
  | .extestTrain, hexec => execExtestTrain_kept s hs s' hexec
  | .bypass code, hexec => execBypass_kept code s hs s' hexec
  | .refclkLoss, hexec => execRefclkLoss_kept s hs s' hexec
  | .heartbeatTick core, hexec => execHeartbeatTick_kept core s hs s' hexec
  | .hostReadCompletion t data, hexec => execHostReadCompletion_kept t data s hs s' hexec
  | .configurationRequest fn act, hexec => execConfigurationRequest_kept fn act s hs s' hexec

/-- A step from canonical memory leaves memory canonical and the queue without its front. -/
theorem step_kept {t : State} (hmem : Memory.wf s.hbm = true) (hstep : step s = .next t) : State.Kept s.pending.tail t := by
  unfold step at hstep
  split at hstep
  next hempty =>
    cases hstep
    exact ⟨hmem, by rw [hempty]; rfl⟩
  next c rest hfront =>
    rw [hfront]
    exact exec_kept c (s := { s with pending := rest }) ⟨hmem, rfl⟩ hstep

/-- Settles O4: what every command keeps, for the command at the front. -/
theorem stepKeepsMemoryCanonical : Obligations.StepKeepsMemoryCanonical := by
  unfold Obligations.StepKeepsMemoryCanonical
  exact fun _ _ hmem hstep => (step_kept hmem hstep).1

/-- Settles O5: the rest of the queue waits on, for the command at the front. -/
theorem stepTakesFrontCommand : Obligations.StepTakesFrontCommand := by
  unfold Obligations.StepTakesFrontCommand
  exact fun _ _ hmem hstep => (step_kept hmem hstep).2

end Sys2Proof.Machine
end

section
/-! SUPPORT. A table all of whose values are changed, byte memory without some addresses, and what a queued write, a record and the choices of the boot ROM leave (R336, R382, R396, R403). -/

namespace Sys2Proof.Machine

section
variable {α β : Type} {d : α} {g : Nat × α → α} {f : α → β}

theorem smFind_map_pair (m : SMap α) (k : Nat) : smFind (m.map fun p => (p.1, g p)) k = (smFind m k).map fun v => g (k, v) := by
  induction m with
  | nil => rfl
  | cons p r ih =>
    obtain ⟨i, v⟩ := p
    by_cases hi : i = k
    · simp [smFind, hi]
    · simpa [smFind, hi] using ih

theorem smGet_map_or (m : SMap α) (k : Nat) :
    smGet d (m.map fun p => (p.1, g p)) k = g (k, smGet d m k) ∨ smGet d (m.map fun p => (p.1, g p)) k = d ∧ smGet d m k = d := by
  unfold smGet
  rw [smFind_map_pair]
  cases smFind m k <;> simp

/-- What `g` keeps of a value, the table keeps at each key. -/
theorem smGet_map_keeps (m : SMap α) (k : Nat) (hf : ∀ p, f (g p) = f p.2 := by intro; rfl) : f (smGet d (m.map fun p => (p.1, g p)) k) = f (smGet d m k) := by
  obtain h | ⟨h, h'⟩ := smGet_map_or (d := d) (g := g) m k
  · rw [h, hf]
  · rw [h, h']

/-- What `g` returns to its value by default has that value at each key. -/
theorem smGet_map_resets (m : SMap α) (k : Nat) (hf : ∀ p, f (g p) = f d := by intro; rfl) : f (smGet d (m.map fun p => (p.1, g p)) k) = f d := by
  obtain h | ⟨h, -⟩ := smGet_map_or (d := d) (g := g) m k
  · rw [h, hf]
  · rw [h]

end

/-- A byte that a filter by address takes away reads as unlisted, and the others keep their values. -/
theorem memGet_filter (m : List Host.Cell) (p : Nat → Bool) (a : Nat) : memGet (m.filter fun c => p c.1) a = if p a then memGet m a else memDefault := by
  induction m with
  | nil => simp [memGet]
  | cons c r ih =>
    obtain ⟨i, v⟩ := c
    by_cases hi : i = a
    · subst hi
      cases hp : p i <;> simp_all [memGet]
    · cases hp : p i <;> simp [memGet, hp, hi, ih]

/-- What a record and queued writes leave alone (R336, R382): everything but a record's own fields and the store's queue. -/
structure NoteFrame (s t : State) : Prop where
  trunk : t.trunk = { s.trunk with recSeq := t.trunk.recSeq, onDie := t.trunk.onDie, spacing := t.trunk.spacing, lost := t.trunk.lost,
                                   recLost := t.trunk.recLost, recHead := t.trunk.recHead }
  store : t.store = { s.store with queue := t.store.queue }
  pcie : t.pcie = { s.pcie with funcs := t.pcie.funcs }
  mgmt : t.mgmt = { s.mgmt with alert := t.mgmt.alert }
  rest : t = { s with trunk := t.trunk, store := t.store, pcie := t.pcie, mgmt := t.mgmt, hbm := t.hbm, hbmBad := t.hbmBad, out := t.out, freeCtr := t.freeCtr }

variable {s t u : State}

namespace NoteFrame

theorem refl (s : State) : NoteFrame s s := ⟨rfl, rfl, rfl, rfl, rfl⟩

theorem trans (a : NoteFrame s t) (b : NoteFrame t u) : NoteFrame s u := by
  obtain ⟨a1, a2, a3, a4, a5⟩ := a
  obtain ⟨b1, b2, b3, b4, b5⟩ := b
  exact ⟨by rw [b1, a1], by rw [b2, a2], by rw [b3, a3], by rw [b4, a4], by rw [b5, a5]⟩

theorem of_record (h : RecordFrame s t) : NoteFrame s t := by
  obtain ⟨h1, h2, h3, h4⟩ := h
  exact ⟨h1, by rw [h4], h2, h3, by rw [h4]⟩

theorem foldl {α : Type} (l : List α) (f : State → α → State) (hf : ∀ s a, NoteFrame s (f s a)) (s : State) : NoteFrame s (l.foldl f s) := by
  induction l generalizing s with
  | nil => exact refl s
  | cons a r ih => exact (hf s a).trans (ih _)

variable (h : NoteFrame s t)
include h

theorem bud : t.bud = s.bud := by rw [h.rest]
theorem leaves : t.leaves = s.leaves := by rw [h.rest]
theorem boughs : t.boughs = s.boughs := by rw [h.rest]
theorem stands : t.stands = s.stands := by rw [h.rest]
theorem que : t.que = s.que := by rw [h.rest]
theorem ael : t.ael = s.ael := by rw [h.rest]
theorem tap : t.tap = s.tap := by rw [h.rest]
theorem boot : t.trunk.boot = s.trunk.boot := by rw [h.trunk]
theorem runningSlot : t.trunk.runningSlot = s.trunk.runningSlot := by rw [h.trunk]
theorem otherSlot : t.trunk.otherSlot = s.trunk.otherSlot := by rw [h.trunk]
theorem puf : t.trunk.puf = s.trunk.puf := by rw [h.trunk]
theorem xmssNext : t.trunk.xmssNext = s.trunk.xmssNext := by rw [h.trunk]
theorem mgmtPending : t.mgmt.pending = s.mgmt.pending := by rw [h.mgmt]
theorem refclkExt : t.pcie.refclkExt = s.pcie.refclkExt := by rw [h.pcie]
theorem recRing : t.recRing = s.recRing := by
  unfold State.recRing
  rw [h.trunk]

end NoteFrame

theorem State.record_note (s : State) (k : RKind) (unit : Word) (i : RecInfo) : NoteFrame s (s.record k unit i) := .of_record (s.record_frame k unit i)

theorem State.storeWrite_readOnly (hro : s.store.state = .readOnly) (w : WriteReq) : s.storeWrite w = s := if_pos hro

theorem State.storeWrite_queued (hrw : s.store.state ≠ .readOnly) (w : WriteReq) :
    s.storeWrite w = { s with store := { s.store with queue := enqueue s.store.queue w } } := if_neg hrw

theorem State.storeWrite_hbm (s : State) (w : WriteReq) : (s.storeWrite w).hbm = s.hbm := by
  unfold State.storeWrite
  split <;> rfl

theorem State.storeWrite_note (s : State) (w : WriteReq) : NoteFrame s (s.storeWrite w) := by
  by_cases hro : s.store.state = .readOnly
  · rw [State.storeWrite_readOnly hro]
    exact .refl s
  · rw [State.storeWrite_queued hro]
    exact ⟨rfl, rfl, rfl, rfl, rfl⟩

/-- A record without a ring leaves memory alone (R337). -/
theorem State.record_ringless (hring : s.recRing = none) (k : RKind) (unit : Word) (i : RecInfo) : (s.record k unit i).hbm = s.hbm := by
  have hgo (reps : BitVec 16) (rest : List Spacing) : (State.record.go s k unit i reps rest).hbm = s.hbm := by
    have halert (t : State) (sev : Nat) : (t.recordAlert k sev).hbm = t.hbm := by
      unfold State.recordAlert
      dsimp only
      split <;> split <;> rfl
    have hdeliver (t : State) (need : Nat) (bs : List Byte) (ht : t.recRing = none) : t.deliverRecord need bs = t := by
      unfold State.deliverRecord
      rw [ht]
    unfold State.record.go
    dsimp only
    rw [halert, hdeliver]
    · rfl
    · exact hring
  unfold State.record
  dsimp only
  split
  · split
    · rfl
    · exact hgo _ _
  · exact hgo _ _

/-- The boot ROM's choice of a slot (R396). -/
theorem State.chooseSlot_note (s : State) :
    NoteFrame (s.onTrunk fun t => { t with runningSlot := s.bootChoice.1, otherSlot := s.bootChoice.2.1, fwFails := [], bootResult := if s.bootChoice.2.2 then 2 else 0 }) s.chooseSlot := by
  unfold State.chooseSlot
  dsimp only
  split
  · exact (State.storeWrite_note _ _).trans (State.record_note _ _ _ _)
  · split
    · exact State.storeWrite_note _ _
    · exact .refl _

/-- A slot is chosen without a record ring: memory is left alone. -/
theorem State.chooseSlot_hbm (hring : s.recRing = none) : s.chooseSlot.hbm = s.hbm := by
  unfold State.chooseSlot
  dsimp only
  split
  · refine (State.record_ringless ?_ _ _ _).trans (State.storeWrite_hbm _ _)
    exact (State.storeWrite_note _ _).recRing.trans hring
  · split
    · exact State.storeWrite_hbm _ _
    · rfl

/-- The identity is derived from the PUF, or is noted as unavailable (R403). -/
theorem State.deriveIdentity_note (s : State) (puf : List Byte) :
    ∃ ok pk, NoteFrame (s.onTrunk fun t => { t with puf := puf, identityOk := ok, identityPk := pk }) (s.deriveIdentity puf) := by
  unfold State.deriveIdentity
  dsimp only
  split
  · exact ⟨_, _, .refl _⟩
  · exact ⟨_, _, State.record_note _ _ _ _⟩

/-- The factory record is copied, or is noted as invalid (R2, R3). -/
theorem State.copyFactory_note (s : State) : ∃ part map, NoteFrame (s.onTrunk fun t => { t with partId := part, coreMap := map }) s.copyFactory := by
  unfold State.copyFactory
  split
  · exact ⟨_, _, .refl _⟩
  · exact ⟨_, _, State.record_note _ _ _ _⟩

/-- The boot ROM runs: its stage, its slots and its PUF response, and the supply and the clock choice as they were. -/
theorem State.bootRom_fields (s : State) : s.bootRom.trunk.boot = .verifying ∧ s.bootRom.trunk.runningSlot = s.bootChoice.1 ∧ s.bootRom.trunk.otherSlot = s.bootChoice.2.1 ∧
    s.bootRom.trunk.puf = s.trunk.puf ∧ s.bootRom.bud = s.bud ∧ s.bootRom.pcie.refclkExt = s.pcie.refclkExt := by
  unfold State.bootRom
  have h1 := (s.onTrunk fun t => { t with boot := .verifying }).chooseSlot_note
  obtain ⟨ok, pk, h2⟩ := (s.onTrunk fun t => { t with boot := .verifying }).chooseSlot.deriveIdentity_note s.trunk.puf
  obtain ⟨part, map, h3⟩ := ((s.onTrunk fun t => { t with boot := .verifying }).chooseSlot.deriveIdentity s.trunk.puf).copyFactory_note
  exact ⟨h3.boot.trans (h2.boot.trans h1.boot), h3.runningSlot.trans (h2.runningSlot.trans h1.runningSlot), h3.otherSlot.trans (h2.otherSlot.trans h1.otherSlot),
    h3.puf.trans h2.puf, h3.bud.trans (h2.bud.trans h1.bud), h3.refclkExt.trans (h2.refclkExt.trans h1.refclkExt)⟩

end Sys2Proof.Machine
end

section
/-! SUPPORT. The supply and PERST_N: what a loss of power and a cold reset leave of the leaves, and the release of the boot ROM (R276, R349, R386, R387, R394, R415); from these O7, O8 and O9. -/

namespace Sys2Proof.Machine

variable {s : State}

/-- A loss of power leaves the cells and the marker of each leaf, and takes its derived configuration (R89, R415). -/
theorem State.powerOff_leaf (s : State) (kept k : Nat) :
    ((s.powerOff kept).leaf k).cells = (s.leaf k).cells ∧ ((s.powerOff kept).leaf k).marker = (s.leaf k).marker ∧ ((s.powerOff kept).leaf k).derivedOk = false :=
  ⟨smGet_map_keeps (f := Leaf.cells) _ _, smGet_map_keeps (f := Leaf.marker) _ _,
    smGet_map_resets (f := Leaf.derivedOk) _ _⟩

/-- A cold reset leaves the cells, the marker and the record of each leaf (Table 15-2). -/
theorem State.coldReset_leaf (s : State) (k : Nat) :
    (s.coldReset.leaf k).cells = (s.leaf k).cells ∧ (s.coldReset.leaf k).marker = (s.leaf k).marker ∧ (s.coldReset.leaf k).record = (s.leaf k).record :=
  ⟨smGet_map_keeps (f := Leaf.cells) _ _, smGet_map_keeps (f := Leaf.marker) _ _,
    smGet_map_keeps (f := Leaf.record) _ _⟩

/-- 12 V is applied (R394, R412). -/
theorem exec_vinApplied_off (hboot : s.trunk.boot = .off) (hrail : s.bud.railFault = false) (straps : BitVec 2) :
    exec (.vinApplied straps) s =
      .next ((s.onTrunk fun t => { t with boot := .recovering }).onMgmt fun m => { m with smbAddr := BitVec.ofNat 7 (0x64 + straps.toNat) }) :=
  congrArg ok (if_neg (by simp [hboot, hrail]))

theorem exec_lossOf12V_up (hboot : s.trunk.boot ≠ .off) (kept : Nat) : exec (.lossOf12V kept) s = .next (s.powerOff kept) := congrArg ok (if_neg hboot)

theorem exec_railFault_up (hboot : s.trunk.boot ≠ .off) (kept : Nat) :
    exec (.railFault kept) s = .next ((s.powerOff kept).onBud fun b => { b with railFault := true }) := congrArg ok (if_neg hboot)

/-- Settles O7: the rails come up, and a loss of 12 V or a rail fault is a loss of power. The reset values it leaves, and HBM that reads 0, are log entries 2 and 121. -/
theorem supplyEvents : Obligations.SupplyEvents := by
  unfold Obligations.SupplyEvents
  exact ⟨fun straps s hboot hrail => exec_vinApplied_off hboot hrail straps,
    fun kept s hboot => ⟨_, _, exec_lossOf12V_up hboot kept, exec_railFault_up hboot kept, rfl, rfl, rfl, rfl, rfl, rfl, fun _ => rfl, s.powerOff_leaf kept, rfl⟩⟩

/-- Settles O8: a recovered store is ready, so the power-on count is queued first. -/
theorem storeRecoveryReleasesPower : Obligations.StoreRecoveryReleasesPower := by
  unfold Obligations.StoreRecoveryReleasesPower
  intro us s hboot
  have hready : (s.store.recover us).state ≠ .readOnly := by
    have h : (s.store.recover us).state = .ready := rfl
    rw [h]
    decide
  exact ⟨_, congrArg ok ((if_neg (by simp [hboot])).trans (State.storeWrite_queued hready _)), rfl, rfl, rfl, rfl, rfl, rfl, rfl, rfl⟩

/-- PERST_N is asserted while the boot ROM or firmware may run (R349). -/
theorem exec_perstNAssert_up (hoff : s.trunk.boot ≠ .off) (hrec : s.trunk.boot ≠ .recovering) :
    exec .perstNAssert s = .next (s.coldReset.onBud fun b => { b with perst := true }) :=
  congrArg (fun u : State => ok (u.onBud fun b => { b with perst := true })) (if_neg (by simp [hoff, hrec]))

theorem exec_perstNAssert_early (hboot : s.trunk.boot = .off ∨ s.trunk.boot = .recovering) :
    exec .perstNAssert s = .next (s.onBud fun b => { b with perst := true }) :=
  congrArg (fun u : State => ok (u.onBud fun b => { b with perst := true })) (if_pos hboot)

section
variable (hperst : s.bud.perst = true) (hboot : s.trunk.boot = .waiting) (refclk : Bool) (puf : List Byte)
include hperst hboot

theorem exec_perstNDeassert_waiting :
    exec (.perstNDeassert refclk puf) s = .next ((s.onBud fun b => { b with perst := false }).releaseBoot refclk puf) := congrArg ok (if_pos ⟨hperst, hboot⟩)

/-- The store works, so the boot ROM is held (R386, log entry 88). -/
theorem exec_perstNDeassert_held (hbusy : s.store.busy ≠ .idle) :
    exec (.perstNDeassert refclk puf) s = .next { s with bud := { s.bud with perst := false }, trunk := { s.trunk with puf := puf, boot := .held },
                                                         pcie := { s.pcie with refclkExt := refclk, refclkIn := refclk } } :=
  (exec_perstNDeassert_waiting hperst hboot refclk puf).trans (congrArg ok (if_neg hbusy))

/-- The store is idle, so the boot ROM runs (R394). -/
theorem exec_perstNDeassert_boots (hidle : s.store.busy = .idle) :
    exec (.perstNDeassert refclk puf) s =
      .next ({ s with bud := { s.bud with perst := false }, trunk := { s.trunk with puf := puf }, pcie := { s.pcie with refclkExt := refclk, refclkIn := refclk } } : State).bootRom :=
  (exec_perstNDeassert_waiting hperst hboot refclk puf).trans (congrArg ok (if_pos hidle))

end

/-- Settles O9: PERST_N low is a cold reset once the store has recovered, over which the trunk's time goes on (log entry 91), and its release goes by whether the store works. -/
theorem perstEdges : Obligations.PerstEdges := by
  unfold Obligations.PerstEdges
  refine ⟨fun s hoff hrec => ?_, fun s hboot => exec_perstNAssert_early hboot, fun refclk puf s hperst hboot hbusy => exec_perstNDeassert_held hperst hboot refclk puf hbusy,
    fun refclk puf s hperst hboot hidle => ?_⟩
  · exact ⟨_, exec_perstNAssert_up hoff hrec, rfl, rfl, rfl, rfl, rfl, rfl, fun _ => rfl, s.coldReset_leaf, rfl, rfl, rfl, rfl⟩
  · obtain ⟨hstage, hslot, hother, hpuf, hbud, hclock⟩ :=
      ({ s with bud := { s.bud with perst := false }, trunk := { s.trunk with puf := puf }, pcie := { s.pcie with refclkExt := refclk, refclkIn := refclk } } : State).bootRom_fields
    exact ⟨_, exec_perstNDeassert_boots hperst hboot refclk puf hidle, congrArg Bud.perst hbud, hclock, hpuf, hstage, hslot, hother⟩

end Sys2Proof.Machine
end

section
/-! SUPPORT. The start of trunk firmware: what reading the leaf map, the records of the boot and the fences leave of the trunk (R88, R95, R329, R397), and the stages of start-up by what the boot ROM finds; from these O10. -/

namespace Sys2Proof.Machine

/-- Of the trunk, only the leaf map and a record's own fields may differ. -/
def MapFrame (s t : State) : Prop :=
  t.trunk = { s.trunk with map := t.trunk.map, recSeq := t.trunk.recSeq, onDie := t.trunk.onDie, spacing := t.trunk.spacing, lost := t.trunk.lost,
                           recLost := t.trunk.recLost, recHead := t.trunk.recHead }

variable {s t u : State}

namespace MapFrame

theorem of_trunk (h : t.trunk = s.trunk) : MapFrame s t := by
  unfold MapFrame
  rw [h]

theorem refl (s : State) : MapFrame s s := of_trunk rfl

theorem trans (a : MapFrame s t) (b : MapFrame t u) : MapFrame s u := by
  unfold MapFrame at *
  rw [b, a]

theorem of_note (h : NoteFrame s t) : MapFrame s t := by
  unfold MapFrame
  rw [h.trunk]

theorem record (h : MapFrame s t) (k : RKind) (unit : Word) (i : RecInfo) : MapFrame s (t.record k unit i) := h.trans (of_note (t.record_note k unit i))

theorem foldl {α : Type} (l : List α) (f : State → α → State) (s : State) (hf : ∀ s a, MapFrame s (f s a) := by exact fun _ _ => .of_trunk rfl) : MapFrame s (l.foldl f s) := by
  induction l generalizing s with
  | nil => exact refl s
  | cons a r ih => exact (hf s a).trans (ih _)

variable (h : MapFrame s t)
include h

theorem fwRunning : t.trunk.fwRunning = s.trunk.fwRunning := by rw [h]
theorem recovery : t.trunk.recovery = s.trunk.recovery := by rw [h]
theorem runningSlot : t.trunk.runningSlot = s.trunk.runningSlot := by rw [h]
theorem bootResult : t.trunk.bootResult = s.trunk.bootResult := by rw [h]
theorem fwDigest : t.trunk.fwDigest = s.trunk.fwDigest := by rw [h]

end MapFrame

/-- A record is written or it is not. -/
theorem MapFrame.record_if (c : Prop) [Decidable c] (k : RKind) (unit : Word) (i : RecInfo) (h : MapFrame s t) : MapFrame s (if c then t.record k unit i else t) := by
  split
  · exact h.record k unit i
  · exact h

theorem State.bootRecords_map (s : State) : MapFrame s s.bootRecords := by
  unfold State.bootRecords
  have h1 := MapFrame.foldl s.trunk.fwFails (fun (s : State) p => s.record .fwVerifyFail uDevice { detail := p.1 + 256 * p.2, detail2 := le (s.slotBytes p.1) 8 1 })
    s fun s _ => (MapFrame.refl s).record _ _ _
  have hnote {t : State} (h : MapFrame s t) (i : RecInfo) :
      MapFrame s (if t.store.recNote then (t.record .storeRecovery uDevice i).onStore fun d => { d with recNote := false } else t) := by
    split
    · exact (h.record _ _ _).trans (.of_trunk rfl)
    · exact h
  have htrip {t : State} (h : MapFrame s t) (i : RecInfo) :
      MapFrame s (if t.bud.tripped ∧ !t.bud.tripNoted then (t.record .thermalTrip uDevice i).onBud fun b => { b with tripNoted := true } else t) := by
    split
    · exact (h.record _ _ _).trans (.of_trunk rfl)
    · exact h
  exact htrip ((hnote (h1.record_if _ _ _ _) _ |>.record_if _ _ _ _).record_if _ _ _ _) _

theorem State.powerBoughs_map (s : State) : MapFrame s s.powerBoughs := MapFrame.foldl _ _ s

theorem State.applyFences_map (s : State) : MapFrame s s.applyFences := by
  unfold State.applyFences
  refine (MapFrame.foldl _ _ s ?_).trans (MapFrame.foldl _ _ _ ?_)
  all_goals
    intro _ _
    split <;> exact .of_trunk rfl

theorem State.dropMarked_map (s : State) (k : Nat) : MapFrame s (s.dropMarked k) := by
  unfold State.dropMarked
  split
  · exact MapFrame.record (by exact rfl) _ _ _
  · exact .refl s

theorem State.markInvalid_map (s : State) (k : Nat) : MapFrame s (s.markInvalid k) := by
  unfold State.markInvalid
  split <;> exact .of_trunk rfl

theorem State.readLeaves_map (s : State) : MapFrame s s.readLeaves := by
  have hread : MapFrame s s.readMap := by
    unfold State.readMap
    split <;> rfl
  unfold State.readLeaves
  exact ((hread.trans (MapFrame.foldl _ _ _ State.dropMarked_map)).trans (MapFrame.foldl _ _ _)).trans (MapFrame.foldl _ _ _ State.markInvalid_map)

/-- What the start of firmware sets in the trunk (R397, R406, Table 18-1). -/
def State.firmwareSet (s : State) (slot : Nat) (recovery : Bool) : State :=
  s.onTrunk fun t =>
    { t with fwRunning := true, recovery := recovery, runningSlot := if recovery then 0 else slot, bootResult := if recovery then 3 else t.bootResult,
             slotASvn := s.slotSvn 1, slotBSvn := s.slotSvn 2, fwDigest := if recovery then [] else Machine.fwDigest (s.slotBytes slot),
             xmssNext := s.xmssRec, xmssLimit := s.xmssRec, subtree := none }

theorem State.startFirmware_map (s : State) (slot : Nat) (recovery : Bool) : MapFrame (s.firmwareSet slot recovery) (s.startFirmware slot recovery) := by
  have hfences := ((s.firmwareSet slot recovery).bootRecords_map.trans (State.powerBoughs_map _)).trans (State.applyFences_map _)
  unfold State.startFirmware
  exact (hfences.trans (MapFrame.foldl _ _ _)).trans (State.readLeaves_map _)

theorem State.trainPorts_trunk (s : State) : s.trainPorts.trunk = s.trunk := by
  have hport {β : Type} (l : List β) (f : State → β → State) (t : State) (hf : ∀ s b, (f s b).trunk = s.trunk := by exact fun _ _ => rfl) : (l.foldl f t).trunk = t.trunk := by
    induction l generalizing t with
    | nil => rfl
    | cons b r ih => exact (ih _).trans (hf t b)
  unfold State.trainPorts
  dsimp only
  split
  · rfl
  · exact hport _ _ _
  · exact hport _ _ _

end Sys2Proof.Machine
end

section
/-! SUPPORT. STARTUP_STAGE_DONE in each stage (R394, R396, R397, Table 18-1), the confirmation of a slot and a built subtree (R396, R404); from these O10 and O11. -/

namespace Sys2Proof.Machine

variable {s : State} {o : StartObs}

/-- The time that the verification of a slot took is counted. -/
def State.slotTimed (s : State) (o : StartObs) : State := s.onTrunk fun t => { t with verifyTime := t.verifyTime + o.timeUs }

/-- The slot that was verified has failed its check. -/
def State.slotFailed (s : State) (o : StartObs) : State :=
  (s.slotTimed o).onTrunk fun t => { t with fwFails := t.fwFails ++ [(s.trunk.runningSlot, s.fwCheck (s.slotBytes s.trunk.runningSlot))] }

/-- Firmware runs from the slot that verified, and HBM is trained next. -/
def State.slotStarted (s : State) (o : StartObs) : State :=
  (((s.slotTimed o).startFirmware s.trunk.runningSlot false).onTrunk fun t => { t with boot := .training }).trainPorts

section
variable (hboot : s.trunk.boot = .verifying)
include hboot

/-- A slot-state write that is not durable holds the stage (R396, log entry 88). -/
theorem exec_startupStageDone_held (hwrite : s.slotWriteOn = true) : exec (.startupStageDone o) s = .next s := by
  change execStartupStageDone o s = _
  unfold execStartupStageDone
  simp only [hboot]
  rw [if_pos hwrite]

theorem exec_startupStageDone_fails (hwrite : s.slotWriteOn = false) (hcheck : s.fwCheck (s.slotBytes s.trunk.runningSlot) ≠ 0) :
    exec (.startupStageDone o) s = .next ((s.slotFailed o).onTrunk fun t =>
      { t with boot := .verifyOther, runningSlot := t.otherSlot, bootResult := if t.bootResult = 0 then 1 else t.bootResult }) := by
  change execStartupStageDone o s = _
  unfold execStartupStageDone
  simp only [hboot]
  rw [if_neg (by simp [hwrite]), if_neg hcheck]
  rfl

theorem exec_startupStageDone_verifies (hwrite : s.slotWriteOn = false) (hcheck : s.fwCheck (s.slotBytes s.trunk.runningSlot) = 0) :
    exec (.startupStageDone o) s = .next (s.slotStarted o) := by
  change execStartupStageDone o s = _
  unfold execStartupStageDone
  simp only [hboot]
  rw [if_neg (by simp [hwrite]), if_pos hcheck]
  rfl

end

section
variable (hboot : s.trunk.boot = .verifyOther)
include hboot

theorem exec_startupStageDone_verifiesOther (hcheck : s.fwCheck (s.slotBytes s.trunk.runningSlot) = 0) :
    exec (.startupStageDone o) s = .next (s.slotStarted o) := by
  change execStartupStageDone o s = _
  unfold execStartupStageDone
  simp only [hboot]
  rw [if_pos hcheck]
  rfl

theorem exec_startupStageDone_recovers (hcheck : s.fwCheck (s.slotBytes s.trunk.runningSlot) ≠ 0) :
    exec (.startupStageDone o) s = .next (((s.slotFailed o).startFirmware s.trunk.runningSlot true).onTrunk fun t => { t with boot := .training }) := by
  change execStartupStageDone o s = _
  unfold execStartupStageDone
  simp only [hboot]
  rw [if_neg hcheck]
  rfl

end

/-- Leaves of which the trained state `u` lost the derived configuration. -/
def State.crcFailed (u : State) (ks : List Nat) : State := ks.foldl (fun (u : State) k => u.onLeaf k fun l => { l with derivedOk := false }) u

theorem exec_startupStageDone_training (hboot : s.trunk.boot = .training) :
    exec (.startupStageDone o) s = .next ((((s.trainHbm o.untrained).recoverLeaves s.allLeaves).crcFailed o.crcFail).onTrunk fun t =>
      { t with boot := if (((s.trainHbm o.untrained).recoverLeaves s.allLeaves).crcFailed o.crcFail).needReadback = [] then .selfCheck else .readback }) := by
  change execStartupStageDone o s = _
  unfold execStartupStageDone
  simp only [hboot, List.isEmpty_iff]
  rfl

theorem exec_startupStageDone_readback (hboot : s.trunk.boot = .readback) :
    exec (.startupStageDone o) s =
      .next ((s.needReadback.foldl (fun (u : State) k => u.readBackLeaf k (smGet [] o.levels k)) s).onTrunk fun t => { t with boot := .selfCheck }) := by
  change execStartupStageDone o s = _
  unfold execStartupStageDone
  simp only [hboot]

theorem exec_startupStageDone_selfCheck (hboot : s.trunk.boot = .selfCheck) :
    exec (.startupStageDone o) s = .next ((s.checkLeaves s.activeLeaves o.refs o.refMon).onTrunk fun t => { t with boot := .calibrating }) := by
  change execStartupStageDone o s = _
  unfold execStartupStageDone
  simp only [hboot]

theorem exec_startupStageDone_calibrating (hboot : s.trunk.boot = .calibrating) :
    exec (.startupStageDone o) s = .next ((s.startCals o.meas).becomeReady o) := by
  change execStartupStageDone o s = _
  unfold execStartupStageDone
  simp only [hboot]

/-- Firmware that runs from a verified slot: what the trunk holds of it. -/
theorem State.slotStarted_fields (s : State) (o : StartObs) :
    (s.slotStarted o).trunk.boot = .training ∧ (s.slotStarted o).trunk.fwRunning = true ∧ (s.slotStarted o).trunk.recovery = false ∧
      (s.slotStarted o).trunk.runningSlot = s.trunk.runningSlot ∧ (s.slotStarted o).trunk.bootResult = s.trunk.bootResult ∧
      (s.slotStarted o).trunk.fwDigest = fwDigest (s.slotBytes s.trunk.runningSlot) := by
  have h := (s.slotTimed o).startFirmware_map s.trunk.runningSlot false
  unfold State.slotStarted
  rw [State.trainPorts_trunk]
  exact ⟨rfl, h.fwRunning, h.recovery, h.runningSlot, h.bootResult, h.fwDigest⟩

/-- Settles O10: each stage by its boot value, and firmware's start by what it leaves in the trunk. -/
theorem startupStages : Obligations.StartupStages := by
  unfold Obligations.StartupStages
  intro o s check timed failed
  refine ⟨exec_startupStageDone_held, exec_startupStageDone_fails, fun hboot hcheck => ?_, fun hboot hcheck => ?_, fun hboot => ⟨_, rfl, exec_startupStageDone_training hboot⟩,
    fun hboot => ⟨_, rfl, exec_startupStageDone_readback hboot⟩, fun hboot => ⟨_, rfl, exec_startupStageDone_selfCheck hboot⟩,
    fun hboot => ⟨_, rfl, exec_startupStageDone_calibrating hboot⟩⟩
  · have hexec : exec (.startupStageDone o) s = .next (s.slotStarted o) := by
      obtain ⟨hboot, hwrite⟩ | hboot := hboot
      · exact exec_startupStageDone_verifies hboot hwrite hcheck
      · exact exec_startupStageDone_verifiesOther hboot hcheck
    exact ⟨_, hexec, rfl, s.slotStarted_fields o⟩
  · have h := (s.slotFailed o).startFirmware_map s.trunk.runningSlot true
    exact ⟨_, exec_startupStageDone_recovers hboot hcheck, rfl, rfl, h.fwRunning, h.recovery, h.runningSlot, h.bootResult, h.fwDigest⟩

section
variable (hboot : s.trunk.boot = .ready) (hrun : s.trunk.fwRunning = true) (hwarm : s.trunk.warmBusy = false)
include hboot hrun hwarm

/-- A confirmation that is due queues the running slot as the active one (R396), unless the store is read-only. -/
theorem exec_fwSlotConfirm_due (hdue : s.trunk.confirmDue = true) :
    exec .fwSlotConfirm s = .next ((s.onTrunk fun t => { t with confirmDue := false }).storeRec slotKey (.slotState { active := s.trunk.runningSlot }) .none) :=
  congrArg ok (if_pos ⟨hboot, hrun, by simp [hwarm], hdue⟩)

omit hboot hrun hwarm in
theorem exec_fwSlotConfirm_done (hdue : s.trunk.confirmDue = false) : exec .fwSlotConfirm s = .next s :=
  congrArg ok (if_neg (by simp [hdue]))

end

/-- The subtree of the next index is built. -/
def State.subtreeBuilt (s : State) : State := s.onTrunk fun t => { t with subtree := some (subtreeOf t.xmssNext) }

/-- A request that waits for the store or a subtree is taken up again. -/
def State.unpend (s : State) (p : MgmtReq) : State := s.onMgmt fun m => { m with pending := m.pending.filter fun q => !decide (q = p) }

/-- Quotes that waited for the build go on in order (R404). -/
theorem exec_xmssSubtreeBuildDone_live (hrun : s.trunk.fwRunning = true) (hwarm : s.trunk.warmBusy = false) (hid : s.trunk.identityOk = true) (hawake : s.awake = true) :
    exec .xmssSubtreeBuildDone s =
      .next ((s.mgmt.pending.filter fun p => p.after == 6).foldl (fun (u : State) p => (u.unpend p).quote p.via p.answer) s.subtreeBuilt) :=
  congrArg ok (if_neg (by simp [hrun, hwarm, hid, hawake]))

/-- The signature of a quote uses its index, and may note that few are left (R405, R406). -/
theorem State.signQuote_note (s : State) (via : Transport) (nonce : List Byte) :
    ∃ st u, NoteFrame (s.onTrunk fun t => { t with xmssNext := s.trunk.xmssNext + 1, subtree := st }) u ∧
      s.signQuote via nonce = u.answer via 0x10 .success (s.quoteBody s.trunk.xmssNext nonce ++
        sub (Config.xmssSign s.trunk.identityPk s.trunk.xmssNext (shake256 (s.quoteBody s.trunk.xmssNext nonce))) 0 2820) := by
  have hlow (t : State) (c : Prop) [Decidable c] (i : RecInfo) : NoteFrame t (if c then t.record .xmssLow uDevice i else t) := by
    split
    · exact t.record_note _ _ _
    · exact .refl t
  have htree (c : Prop) [Decidable c] (t : State) : ∃ st, (if c then t.onTrunk fun x => { x with subtree := none } else t) = t.onTrunk fun x => { x with subtree := st } := by
    split
    · exact ⟨none, rfl⟩
    · exact ⟨t.trunk.subtree, rfl⟩
  obtain ⟨st, hst⟩ := htree (subtreeOf (s.trunk.xmssNext + 1) ≠ subtreeOf s.trunk.xmssNext) (s.onTrunk fun t => { t with xmssNext := s.trunk.xmssNext + 1 })
  unfold State.signQuote
  dsimp only
  rw [hst]
  exact ⟨st, _, hlow _ _ _, rfl⟩

/-- A quote whose subtree is built and whose index is reserved is signed (R404, R406). -/
theorem State.quote_signs (hid : s.trunk.identityOk = true) (hleft : s.trunk.xmssNext < 1048576) (htree : s.trunk.subtree = some (subtreeOf s.trunk.xmssNext))
    (hlimit : s.trunk.xmssNext < s.trunk.xmssLimit) (via : Transport) (nonce : List Byte) : s.quote via nonce = s.signQuote via nonce := by
  unfold State.quote
  dsimp only
  rw [if_neg (by simp [hid]), if_neg (by omega), if_neg (by simp [htree]), if_neg (by omega)]

/-- Settles O11: R396's confirmation, due or not, and the quotes that the built subtree releases. -/
theorem firmwareConfirms : Obligations.FirmwareConfirms := by
  unfold Obligations.FirmwareConfirms
  refine ⟨fun s hboot hrun hwarm => ⟨fun hdue hrw => ?_, fun hdue hro => ?_, exec_fwSlotConfirm_done⟩, fun s hrun hwarm hid hawake => ?_⟩
  · rw [exec_fwSlotConfirm_due hboot hrun hwarm hdue]
    exact congrArg ok (State.storeWrite_queued (by exact hrw) _)
  · rw [exec_fwSlotConfirm_due hboot hrun hwarm hdue]
    exact congrArg ok (State.storeWrite_readOnly (by exact hro) _)
  · intro built
    have hexec := exec_xmssSubtreeBuildDone_live hrun hwarm hid hawake
    refine ⟨hexec, fun hnone => ?_, fun p hone hafter hlimit hleft => ?_⟩
    · have hempty : (s.mgmt.pending.filter fun p => p.after == 6) = [] := List.filter_eq_nil_iff.2 fun p hp => by simp [hnone p hp]
      rw [hexec, hempty]
      rfl
    · have hwaits : (s.mgmt.pending.filter fun p => p.after == 6) = [p] := by simp [hone, hafter]
      have hgone : (s.subtreeBuilt.unpend p).mgmt.pending = [] := by
        change s.mgmt.pending.filter _ = []
        simp [hone]
      have hsigns : (s.subtreeBuilt.unpend p).quote p.via p.answer = (s.subtreeBuilt.unpend p).signQuote p.via p.answer :=
        State.quote_signs (s := s.subtreeBuilt.unpend p) hid (Nat.lt_succ_of_lt hleft) rfl hlimit _ _
      obtain ⟨st, u, hnote, hsigned⟩ := (s.subtreeBuilt.unpend p).signQuote_note p.via p.answer
      have hsent := hexec.trans (congrArg ok ((congrArg (List.foldl _ s.subtreeBuilt) hwaits).trans (hsigns.trans hsigned)))
      exact ⟨_, hsent, hnote.mgmtPending.trans hgone, hnote.xmssNext, rfl⟩

end Sys2Proof.Machine
end

section
/-! SUPPORT. The store's events (R382, R383, R389 to R391): the requests that a write operation takes, and an operation on a read-only store; from these O54. -/

namespace Sys2Proof.Machine

variable {s : State}

/-- A write operation takes a front of the queue it is offered (R382). -/
theorem takePages_prefix (q : List WriteReq) (off left : Nat) : takePages q off left <+: q := by
  induction q generalizing off left with
  | nil => exact List.prefix_refl []
  | cons w r ih =>
    have hif (c : Prop) [Decidable c] (r' : List WriteReq) (h : r' <+: r) : (if c then w :: r' else []) <+: w :: r := by
      split
      · exact (List.cons_prefix_cons).2 ⟨rfl, h⟩
      · exact List.nil_prefix
    exact hif _ _ (ih _ _)

/-- The requests that the next operation takes stand in the queue, in its order. -/
theorem Store.nextWrites_sublist (d : Store) : d.nextWrites.Sublist d.queue := by
  have h : (if d.erasedCount < 4 then d.queue.filter fun w => w.prio == 0 else d.queue).Sublist d.queue := by
    split
    · exact List.filter_sublist
    · exact List.Sublist.refl _
  exact (takePages_prefix _ _ _).sublist.trans h

/-- Erasing the members of a sublist one after another takes as many as it has. -/
theorem length_foldl_erase {q ws : List WriteReq} (h : ws.Sublist q) : (ws.foldl (fun q w => q.erase w) q).length + ws.length = q.length := by
  induction ws generalizing q with
  | nil => rfl
  | cons w r ih =>
    have hmem : w ∈ q := h.subset List.mem_cons_self
    have hrest : r.Sublist (q.erase w) := by simpa using h.erase w
    have hlen := List.length_erase_of_mem hmem
    have hpos := List.length_pos_of_mem hmem
    have hih := ih hrest
    simp only [List.foldl_cons, List.length_cons]
    omega

/-- A write operation starts on an idle store that is ready and has a request to take (R382). -/
theorem Store.startWrite_starts {d : Store} (hidle : d.busy = .idle) (hready : d.state = .ready) (hsome : d.nextWrites ≠ []) :
    d.startWrite = { d with busy := .write d.nextWrites, queue := d.nextWrites.foldl (fun q w => q.erase w) d.queue } :=
  if_neg (by simp [hidle, hready, hsome])

theorem Store.startWrite_readOnly {d : Store} (hro : d.state = .readOnly) : d.startWrite = d := if_pos (by simp [hro])

/-- A read-only store makes no request durable (R383). -/
theorem Store.performAll_readOnly {d : Store} (hro : d.state = .readOnly) (ws : List (WriteReq × Nat)) : ∀ p ∈ (d.performAll ws).2, p.2 = false := by
  induction ws with
  | nil => simp [Store.performAll]
  | cons w r ih =>
    obtain ⟨w, f⟩ := w
    unfold Store.performAll
    rw [if_pos hro]
    simpa using ih

section
variable (hup : s.storeUp = true)
include hup

theorem exec_storeWriteOpStart_up : exec .storeWriteOpStart s = .next { s with store := s.store.startWrite } := congrArg ok (if_pos hup)

theorem exec_storeWriteOpDone_up (fails : List Nat) : exec (.storeWriteOpDone fails) s = .next (s.endWrites fails) := congrArg ok (if_pos hup)

/-- On an idle store the step that is due starts. -/
theorem exec_storeBackgroundStep_idle (hidle : s.store.busy = .idle) (good : Bool) :
    exec (.storeBackgroundStep good) s = .next { s with store := s.store.startStep } :=
  congrArg ok ((if_neg (by simp [hup])).trans (by simp only [hidle]; rfl))

/-- The step that runs, a compaction or an erase of sector `k`, ends. -/
theorem exec_storeBackgroundStep_ends {k : Nat} (hbusy : s.store.busy = .compact k ∨ s.store.busy = .erase k) (good : Bool) :
    exec (.storeBackgroundStep good) s = .next (s.endStep good).bootHeld := by
  refine congrArg ok ((if_neg (by simp [hup])).trans ?_)
  obtain h | h := hbusy <;> simp only [h]

/-- An hour is counted in ring 1 (R391). -/
theorem exec_poweredHourTick_up (hrw : s.store.state ≠ .readOnly) :
    exec .poweredHourTick s = .next { s with store := { s.store with queue := enqueue s.store.queue (.ring 1 ((nth {} s.store.rings 1).value + 1)) } } :=
  congrArg ok ((if_pos hup).trans (State.storeWrite_queued hrw _))

end

/-- Settles O54: the store by what it does and whether it is read-only (log entries 31 and 115). -/
theorem storeEvents : Obligations.StoreEvents := by
  unfold Obligations.StoreEvents
  intro s hup
  refine ⟨exec_storeWriteOpStart_up hup, fun ws hidle hready hws hsome => ?_, fun hro => ⟨Store.startWrite_readOnly hro, State.storeWrite_readOnly hro⟩,
    fun fails ws _ => ⟨exec_storeWriteOpDone_up hup fails, fun hro => Store.performAll_readOnly hro _⟩, fun good hidle => exec_storeBackgroundStep_idle hup hidle good,
    fun good k hbusy => exec_storeBackgroundStep_ends hup (.inl hbusy) good, fun good k hbusy => exec_storeBackgroundStep_ends hup (.inr hbusy) good, exec_poweredHourTick_up hup⟩
  subst hws
  rw [Store.startWrite_starts hidle hready hsome]
  exact ⟨rfl, length_foldl_erase s.store.nextWrites_sublist, fun w hw => s.store.nextWrites_sublist.subset hw, rfl⟩

end Sys2Proof.Machine
end

section
/-! SUPPORT. Management messages that are served (R421 to R423): MCTP control commands, security messages in their order of checks, and a firmware update; from these O57, O58 and O59. -/

namespace Sys2Proof.Machine

variable {s : State} {via : Transport}

theorem State.mctp_served (hserves : s.BudServes via) (go : State → State) : s.mctp via go = go s := by
  obtain ⟨hboot, hvdm, hsmbus⟩ := hserves
  refine if_neg ?_
  rintro (h | ⟨h, hlive⟩ | ⟨h, hbusy⟩)
  · exact hboot h
  · simp [hvdm h] at hlive
  · exact hbusy (hsmbus h)

/-- A request that reaches its server, on a transport with no other outstanding, is served. -/
theorem State.mgmtServe_served {r : MReq} (hserves : s.BudServes r.via) (hfree : ∀ p ∈ s.mgmt.pending, p.via ≠ r.via) (cmd : Nat) (go : State → State) :
    s.mgmtServe r cmd go = go s := by
  obtain ⟨hboot, hvdm, hsmbus⟩ := hserves
  have hreach : ¬ (s.trunk.boot = .off ∨ (r.via = .vdm ∧ (!s.live) = true)) := by
    rintro (h | ⟨h, hlive⟩)
    · exact hboot h
    · simp [hvdm h] at hlive
  have hhold : ¬ (r.via = .smbus ∧ s.store.busy ≠ .idle) := fun ⟨h, hbusy⟩ => hbusy (hsmbus h)
  have hnone : ¬ (s.mgmt.pending.any fun p => decide (p.via = r.via)) = true := by simpa using hfree
  exact (if_neg hreach).trans ((if_neg hhold).trans (if_neg hnone))

section
variable {r : MReq} (hserves : s.BudServes r.via) (hfree : ∀ p ∈ s.mgmt.pending, p.via ≠ r.via) (hrun : s.trunk.fwRunning = true) (hwarm : s.trunk.warmBusy = false)
include hserves hfree hrun hwarm

/-- The trunk serves a message that recovery mode admits. -/
theorem State.trunkServe_served (cmd : Nat) (go : State → State) : s.trunkServe r cmd true go = go s :=
  (State.mgmtServe_served hserves hfree cmd _).trans (if_neg (by simp [hrun, hwarm]))

/-- The trunk serves any message outside recovery mode. -/
theorem State.trunkServe_running (hrec : s.trunk.recovery = false) (cmd : Nat) (inRecovery : Bool) (go : State → State) : s.trunkServe r cmd inRecovery go = go s :=
  (State.mgmtServe_served hserves hfree cmd _).trans (if_neg (by simp [hrun, hwarm, hrec]))

end

/-- The UUID's version and variant bits (R421). -/
theorem State.uuid_layout (hid : s.trunk.identityOk = true) (hlen : s.idHash.length = 32) :
    s.uuid.length = 16 ∧ (nth 0 s.uuid 6).toNat / 16 = 8 ∧ (nth 0 s.uuid 8).toNat / 64 = 2 := by
  have hversion (x : Byte) : ((x &&& 0x0F#8) ||| 0x80#8).toNat / 16 = 8 := by revert x; decide
  have hvariant (x : Byte) : ((x &&& 0x3F#8) ||| 0x80#8).toNat / 64 = 2 := by revert x; decide
  unfold State.uuid
  rw [if_neg (by simp [hid])]
  refine ⟨by simp [hlen], ?_, ?_⟩
  · refine Eq.trans (congrArg (fun x : Byte => x.toNat / 16) ?_) (hversion (nth 0 s.idHash 6))
    simp [nth, hlen]
  · refine Eq.trans (congrArg (fun x : Byte => x.toNat / 64) ?_) (hvariant (nth 0 s.idHash 8))
    simp [nth, hlen]

/-- Settles O57: each command's answer on a transport that serves it, and the UUID's layout. The bodies' layout is log entry 15. -/
theorem mctpCommands : Obligations.MctpCommands := by
  unfold Obligations.MctpCommands
  refine ⟨fun via s hserves => ?_, fun s hboot halert => congrArg ok (if_pos ⟨hboot, halert⟩), fun s hid hlen => State.uuid_layout hid hlen⟩
  have hmctp (go : State → State) : ok (s.mctp via go) = .next (go s) := congrArg ok (State.mctp_served hserves go)
  refine ⟨fun e hzero hones => ?_, hmctp _, hmctp _, ⟨_, _, hmctp _, rfl, rfl⟩, hmctp _, ⟨_, _, hmctp _, rfl, rfl⟩⟩
  refine ⟨_, (hmctp _).trans (congrArg ok (if_neg (not_or.2 ⟨hzero, hones⟩))), ?_, rfl, rfl⟩
  cases via <;> rfl

section
variable {r : SecReq} (hserves : s.BudServes r.via) (hfree : ∀ p ∈ s.mgmt.pending, p.via ≠ r.via) (hrun : s.trunk.fwRunning = true) (hwarm : s.trunk.warmBusy = false)
  (hrec : s.trunk.recovery = false)
include hserves hfree hrun hwarm hrec

/-- A security message outside its lifecycles is denied before device, signature and binding are checked (log entry 21). -/
theorem State.secServe_denied {life : List Nat} (hlife : s.store.counters.lifecycle ∉ life) (good : Bool) (go : State → State) :
    s.secServe r life good go = s.answer r.via 0x12 .denied [] :=
  (State.trunkServe_running hserves hfree hrun hwarm hrec _ _ _).trans (if_pos (by simp [hlife]))

theorem State.secServe_refused {life : List Nat} (hlife : s.store.counters.lifecycle ∈ life) {good : Bool} (hbad : r.idHash ≠ s.idHash ∨ good = false) (go : State → State) :
    s.secServe r life good go = s.answer r.via 0x12 .refused [] := by
  have hcheck : (!(r.forMe s && good)) = true := by
    rcases hbad with h | h
    · simp [SecReq.forMe, h]
    · simp [h]
  exact (State.trunkServe_running hserves hfree hrun hwarm hrec _ _ _).trans ((if_neg (by simp [hlife])).trans (if_pos hcheck))

/-- A message whose checks hold is served. -/
theorem State.secServe_served {life : List Nat} (hlife : s.store.counters.lifecycle ∈ life) (hme : r.idHash = s.idHash) (hrw : s.store.state ≠ .readOnly) {good : Bool}
    (hgood : good = true) (go : State → State) : s.secServe r life good go = go s :=
  (State.trunkServe_running hserves hfree hrun hwarm hrec _ _ _).trans
    ((if_neg (by simp [hlife])).trans ((if_neg (by simp [SecReq.forMe, hme, hgood])).trans (if_neg (by simp [State.storeRefuses, hrw]))))

end

/-- Settles O58: each message's lifecycles and its own checks, in the order of log entry 21. -/
theorem securityMessages : Obligations.SecurityMessages := by
  unfold Obligations.SecurityMessages
  intro r s hserves hfree hrun hwarm hrec
  refine ⟨fun life good go hlife => State.secServe_denied hserves hfree hrun hwarm hrec hlife good go,
    fun life good go hlife hbad => State.secServe_refused hserves hfree hrun hwarm hrec hlife hbad go, fun hme hrw => ?_⟩
  have hserve {life : List Nat} (hlife : s.store.counters.lifecycle ∈ life) {good : Bool} (hgood : good = true) (go : State → State) :
      ok (s.secServe r life good go) = .next (go s) := congrArg ok (State.secServe_served hserves hfree hrun hwarm hrec hlife hme hrw hgood go)
  refine ⟨fun hlife hsig hbind => ?_, fun hlife hbind hnone => ?_, fun hlife hsig => ⟨fun hbind hleft => ?_, fun hbind hfull => ?_, fun hseq => ?_, fun hbind => ?_⟩,
    fun hlife hsig htarget hmax hmore => ?_, fun hfirst hlast hsig hnonce hbind hleft hallow => ?_⟩
  · exact hserve (by simp [hlife]) (by simp [hsig, hbind]) _
  · exact hserve (by simp [hlife]) (by simp [hbind, hnone]) _
  · exact (hserve (by simp [hlife]) (by simp [hsig, hbind]) _).trans (congrArg ok (if_neg (by omega)))
  · exact (hserve (by simp [hlife]) (by simp [hsig, hbind]) _).trans (congrArg ok (if_pos hfull))
  · exact hserve (by simp [hlife]) (by simp [hsig, hseq]) _
  · exact hserve (by simp [hlife]) (by simp [hsig, hbind]) _
  · have hin : s.store.counters.lifecycle ∈ [0, 1, 2, 3] := by
      simp only [List.mem_cons, List.not_mem_nil, or_false]
      omega
    have hgood : ((if s.store.counters.lifecycle = 2 then r.signedBy s.ownerPk else true) && r.bind == (s.slotSvn s.trunk.runningSlot).toNat) = true := by
      split
      · simp [hsig ‹_›, htarget]
      · simp [htarget]
    refine (hserve hin hgood _).trans (congrArg ok ?_)
    rw [← htarget]
    exact if_neg (by omega)
  · have hin : s.store.counters.lifecycle ∈ [1, 2, 3] := by
      simp only [List.mem_cons, List.not_mem_nil, or_false]
      omega
    refine (congrArg ok (State.secServe_served (r := { r with idHash := s.idHash }) hserves hfree hrun hwarm hrec hin rfl hrw rfl _)).trans (congrArg ok ?_)
    have hgood : (!(r.forMe s && r.signedBy (if s.store.counters.lifecycle = 2 then s.ownerPk else some Config.vendorKey) && decide (s.trunk.nonce = some r.nonce) &&
        r.bind == s.store.counters.debug)) = false := by simp [SecReq.forMe, hme, hsig, hnonce, hbind]
    have hpolicy : ¬ (s.store.counters.lifecycle = 2 ∧ (!s.policy.allowDebug) = true) := fun ⟨hlife, hdeny⟩ => by simp [hallow hlife] at hdeny
    exact (if_neg (by rw [hgood]; decide)).trans ((if_neg (by omega)).trans (if_neg hpolicy))

theorem State.onSlot_slotBytes_same (s : State) (i : Nat) (f : FwSlot → FwSlot) :
    (s.onSlot i f).slotBytes i = (f (if i = 1 then s.store.slotA else s.store.slotB)).bytes := by
  unfold State.onSlot State.slotBytes
  by_cases hi : i = 1 <;> simp [hi]

/-- A change of one of the two slots leaves the other alone. -/
theorem State.onSlot_slotBytes_other {i : Nat} (hi : i = 1 ∨ i = 2) (s : State) (f : FwSlot → FwSlot) : (s.onSlot i f).slotBytes (3 - i) = s.slotBytes (3 - i) := by
  obtain rfl | rfl := hi <;> rfl

section
variable {r : MReq} (hserves : s.BudServes r.via) (hfree : ∀ p ∈ s.mgmt.pending, p.via ≠ r.via) (hrun : s.trunk.fwRunning = true) (hwarm : s.trunk.warmBusy = false)
include hserves hfree hrun hwarm

/-- BEGIN with a size in range erases the slot that is not running and opens the update. -/
theorem exec_fwBegin_opens (hlen : r.payload.length = 4) (hpos : 0 < le r.payload 0 4) (hmax : le r.payload 0 4 ≤ 2 ^ 20) :
    exec (.fwBegin r) s = .next (((s.onSlot s.updateSlot fun _ => {}).onTrunk fun t =>
      if s.updateSlot = 1 then { t with fwUpdate := some [], slotASvn := 0xFF } else { t with fwUpdate := some [], slotBSvn := 0xFF }).answer r.via 0x20 .success []) :=
  congrArg ok ((State.trunkServe_served hserves hfree hrun hwarm _ _).trans (if_neg (by omega)))

variable {got : List Byte} (hgot : s.trunk.fwUpdate = some got)
include hgot

/-- DATA that follows on, in a payload of a length that R422 gives, is appended to the slot. -/
theorem exec_fwData_appends (hlow : 4 < r.payload.length) (hhigh : r.payload.length ≤ 1028) (hnext : le r.payload 0 4 = got.length)
    (hroom : got.length + (r.payload.length - 4) ≤ 2 ^ 20) :
    exec (.fwData r) s = .next (((s.onSlot s.updateSlot fun x => { x with bytes := x.bytes ++ r.payload.drop 4, erased := false }).onTrunk fun t =>
      { t with fwUpdate := some (got ++ r.payload.drop 4) }).answer r.via 0x21 .success []) := by
  refine congrArg ok ((State.trunkServe_served hserves hfree hrun hwarm _ _).trans ?_)
  simp only [hgot]
  exact if_neg (by rw [List.length_drop]; omega)

theorem exec_fwData_refused (hnext : le r.payload 0 4 ≠ got.length) : exec (.fwData r) s = .next (s.answer r.via 0x21 .badRequest []) := by
  refine congrArg ok ((State.trunkServe_served hserves hfree hrun hwarm _ _).trans ?_)
  simp only [hgot]
  exact if_pos (.inr (.inr (.inl hnext)))

/-- END closes the update, and goes on by the slot's checks and the store. -/
theorem exec_fwEnd_closes : ∃ u : State, u.trunk.fwUpdate = none ∧ u.store = s.store ∧ u.out = s.out ∧
    exec (.fwEnd r) s = .next (if s.fwCheck (s.slotBytes s.updateSlot) ≠ 0 then u.answer r.via 0x22 .success [byteOf (s.fwCheck (s.slotBytes s.updateSlot))]
      else if s.storeRefuses then u.answer r.via 0x22 .storeReadOnly []
      else (u.storeRec slotKey (.slotState { s.slotState with trial := s.updateSlot, attempts := 0 }) .mgmt).awaitStore r.via 0x22 1 0 [0]) := by
  refine ⟨s.onTrunk fun t => if s.updateSlot = 1 then { t with fwUpdate := none, slotASvn := s.slotSvn 1 } else { t with fwUpdate := none, slotBSvn := s.slotSvn 2 },
    ?_, rfl, rfl, congrArg ok ((State.trunkServe_served hserves hfree hrun hwarm _ _).trans ?_)⟩
  · rw [State.onTrunk_trunk]
    split <;> rfl
  · simp only [hgot]

end

/-- Settles O59: each message of an update by its payload, by the data that it has taken and by the slot's checks. -/
theorem firmwareUpdate : Obligations.FirmwareUpdate := by
  unfold Obligations.FirmwareUpdate
  intro r s hserves hfree hrun hwarm
  refine ⟨fun hlen hpos hmax hslot => ?_, fun got hgot hlow hhigh hnext hroom => ?_, fun got hgot hnext => exec_fwData_refused hserves hfree hrun hwarm hgot hnext,
    fun got hgot hcheck => ?_, fun got hgot hcheck hrw => ?_⟩
  · have htrunk (t : Trunk) : (if s.updateSlot = 1 then { t with fwUpdate := some [], slotASvn := 0xFF } else { t with fwUpdate := some [], slotBSvn := 0xFF } : Trunk).fwUpdate = some [] ∧
        (if s.updateSlot = 1 then { t with fwUpdate := some [], slotASvn := 0xFF } else { t with fwUpdate := some [], slotBSvn := 0xFF } : Trunk).runningSlot = t.runningSlot := by
      split <;> exact ⟨rfl, rfl⟩
    exact ⟨_, exec_fwBegin_opens hserves hfree hrun hwarm hlen hpos hmax, (htrunk _).1, s.onSlot_slotBytes_same s.updateSlot fun _ => {},
      s.onSlot_slotBytes_other hslot fun _ => {}, (htrunk _).2⟩
  · refine ⟨_, exec_fwData_appends hserves hfree hrun hwarm hgot hlow hhigh hnext hroom, rfl, ?_⟩
    refine (s.onSlot_slotBytes_same s.updateSlot fun x => { x with bytes := x.bytes ++ r.payload.drop 4, erased := false }).trans ?_
    unfold State.slotBytes
    split <;> rfl
  · obtain ⟨u, hclosed, hstore, hout, hexec⟩ := exec_fwEnd_closes hserves hfree hrun hwarm hgot
    exact ⟨_, hexec.trans (congrArg ok (if_pos hcheck)), hclosed, hstore, congrArg (List.cons _) hout⟩
  · obtain ⟨u, hclosed, hstore, -, hexec⟩ := exec_fwEnd_closes hserves hfree hrun hwarm hgot
    have hqueued := State.storeWrite_queued (s := u) (by rw [hstore]; exact hrw) (.record { key := slotKey, payload := .slotState { s.slotState with trial := s.updateSlot, attempts := 0 } } .mgmt)
    refine ⟨_, hexec.trans (congrArg ok ((if_neg (not_not.2 hcheck)).trans ((if_neg (by simp [State.storeRefuses, hrw])).trans
      (congrArg (fun v : State => v.awaitStore r.via 0x22 1 0 [0]) hqueued)))), hclosed, ?_⟩
    exact congrArg (fun d : Store => enqueue d.queue _) hstore

end Sys2Proof.Machine
end

section
/-! SUPPORT. The in-field test events (R330 to R335) and the commands of the resets (R343 to R355) where each is enabled; from these O33 and O48. -/

namespace Sys2Proof.Machine

variable {s : State} {b l p : Nat}

section
variable (hlive : s.leafLive b l = true)
include hlive

/-- A test falls due (R332, R333). -/
theorem exec_leafTestDue_active (hsched : s.trunk.sched.leafInterval ≠ 0) (hrole : (s.leaf (leafNo b l)).role = .active) (hdrain : (s.leaf (leafNo b l)).draining = false) :
    exec (.leafTestDue b l) s =
      .next (s.onLeaf (leafNo b l) fun f => { f with testDue := true, testRunning := f.meas.isNone && decide (s.bud.power = .full) }) :=
  congrArg ok (if_pos ⟨hlive, hsched, hrole, by simp [hdrain]⟩)

theorem exec_fullVerifyDone_running (hverify : (s.leaf (leafNo b l)).verifyRunning = true) (levels : SMap Nat) :
    exec (.fullVerifyDone b l levels) s = .next (s.fullVerify (leafNo b l) levels) := congrArg ok (if_pos ⟨hlive, hverify⟩)

variable (hheld : (s.testHeld fun f => f.leafParts.contains (leafNo b l) || f.unfenceLeaves.contains (leafNo b l)) = false) (o : LeafPartObs)
include hheld

theorem exec_leafPartDone_unfences (hunfence : s.unfencing (leafNo b l) = true) : exec (.leafPartDone b l o) s = .next (s.unfenceLeaf (leafNo b l) o) :=
  congrArg ok ((if_neg (by simp [hlive])).trans ((if_neg (by rw [hheld]; decide)).trans (if_pos hunfence)))

/-- The part of a leaf that is tested and does not measure ends (R330). -/
theorem exec_leafPartDone_ends (hunfence : s.unfencing (leafNo b l) = false) (hrole : (s.leaf (leafNo b l)).role = .active) (hdrain : (s.leaf (leafNo b l)).draining = false)
    (hrun : (s.leaf (leafNo b l)).testRunning = true) (hmeas : (s.leaf (leafNo b l)).meas = none) (hmid : (s.leaf (leafNo b l)).midVector = false) :
    exec (.leafPartDone b l o) s = .next (s.leafPart (leafNo b l) o) := by
  refine congrArg ok ((if_neg (by simp [hlive])).trans ((if_neg (by rw [hheld]; decide)).trans ((if_neg (by simp [hunfence])).trans ?_)))
  simp only [hmeas]
  exact if_pos ⟨hrole, by simp [hdrain], .inl hrun, by simp, by simp [hmid]⟩

end

theorem exec_logicTestDue_usable (husable : s.usable b = true) (hrun : s.trunk.fwRunning = true) (hsched : s.trunk.sched.logicInterval ≠ 0) :
    exec (.logicTestDue b) s = .next (s.onBough b fun x => { x with logicDue := true }).settleTests := congrArg ok (if_pos ⟨husable, hrun, hsched⟩)

/-- The deferral limit stops the pair at its next layer boundaries (R332). -/
theorem exec_testDeferralLimit_stops (hpair : s.partnerOf b = some p) (hdue : (s.bough b).logicDue = true) (hidle : (s.bough b).logicRunning = false) (hrun : s.trunk.fwRunning = true)
    (hfull : s.bud.power = .full) (hb : s.standQuiet (standOf b) = false) (hp : s.standQuiet (standOf p) = false) :
    exec (.testDeferralLimit b) s =
      .next ((s.onBough b fun x => { x with logicStop := true }).onBough p fun x => { x with logicStop := true }).settleTests := by
  change execTestDeferralLimit b s = _
  unfold execTestDeferralLimit
  simp only [hpair]
  exact congrArg ok (if_neg (by simp [hdue, hidle, hrun, hfull, hb, hp]))

theorem exec_logicPartDone_running (hrun : s.trunk.fwRunning = true) (hlogic : (s.bough b).logicRunning = true) (hdue : (s.bough b).logicDue = true)
    (hpartner : (s.bough (s.bough b).logicPartner).logicRunning = true) (d1 d2 d3 : DWord) :
    exec (.logicPartDone b d1 d2 d3) s = .next (s.logicPart b d1 d2 d3) := congrArg ok (if_pos ⟨hrun, hlogic, hdue, hpartner⟩)

/-- Settles O33: each event of the tests where its unit is due. -/
theorem fieldTestEvents : Obligations.FieldTestEvents := by
  unfold Obligations.FieldTestEvents
  exact ⟨fun b l s hlive hsched hrole hdrain => exec_leafTestDue_active hlive hsched hrole hdrain,
    fun b l o s hlive hheld => ⟨exec_leafPartDone_unfences hlive hheld o, exec_leafPartDone_ends hlive hheld o⟩,
    fun b s husable hrun hsched => exec_logicTestDue_usable husable hrun hsched,
    fun b p s hpair hdue hidle hrun hfull hb hp => exec_testDeferralLimit_stops hpair hdue hidle hrun hfull hb hp,
    fun b d1 d2 d3 s hrun hlogic hdue hpartner => exec_logicPartDone_running hrun hlogic hdue hpartner d1 d2 d3,
    fun b l levels s hlive hverify => exec_fullVerifyDone_running hlive hverify levels⟩

section
variable {j : Nat} (hj : j < 4)
include hj

theorem exec_standReset_live (hlive : s.regLive = true) (v : Word) : exec (.standReset j v) s = .next (s.writeRstCtrl j v) := congrArg ok (if_pos ⟨hlive, hj⟩)

theorem exec_standResetStepDone_running (hrun : s.trunk.fwRunning = true) (hwarm : s.trunk.warmBusy = false) (o : ResetObs) :
    exec (.standResetStepDone j o) s = .next (s.standStep j o) := congrArg ok (if_pos ⟨hj, hrun, by simp [hwarm]⟩)

variable (hwarm : s.trunk.warmBusy = false)
include hwarm

/-- A channel without self-refresh takes the fallback path (R345). -/
theorem exec_selfRefreshTimeout_holding (hstep : (s.stand j).rstStep = 4) :
    exec (.selfRefreshTimeout j) s = .next (s.onStand j fun d => { d with fallback := true, rstStep := 5 }) :=
  congrArg ok ((if_neg (by omega)).trans ((if_neg (by simp [hwarm])).trans (if_pos hstep)))

theorem exec_standResetEscalation_cold : exec (.standResetEscalation j) s = .next (s.escalate j) := congrArg ok (if_pos ⟨hj, by simp [hwarm]⟩)

variable (hreplay : (s.stand j).rstState = .replaying)
include hreplay

theorem exec_replayAttemptEnd_replaying : exec (.replayAttemptEnd j) s = .next (s.endAttempt j) := congrArg ok (if_pos ⟨hj, by simp [hwarm], hreplay⟩)

theorem exec_replayBudgetExpiry_replaying : exec (.replayBudgetExpiry j) s = .next (s.guilty j) := congrArg ok (if_pos ⟨hj, by simp [hwarm], hreplay⟩)

end

/-- Without go, a write of STD_RST_CTRL changes its RW fields alone (R357). -/
theorem State.writeRstCtrl_fields {v : Word} (hgo : bit v 31 = false) (j : Nat) (s : State) :
    s.writeRstCtrl j v = s.onStand j fun d => { d with rstCtrl := v &&& 0x7FE0FFFF#32 } := if_neg (by simp [hgo])

section
variable (hlive : s.budLive = true)
include hlive

theorem exec_warmReset_begins {v : Word} (hwarm : bit v 30 = true) :
    exec (.warmReset v) s = .next ({ s with trunk := { s.trunk with warmDump := bit v 0 } }.beginWarm 1) :=
  congrArg ok ((if_neg (by simp [hlive])).trans (if_pos hwarm))

theorem exec_warmReset_writes {v : Word} (hwarm : bit v 30 = false) :
    exec (.warmReset v) s = .next { s with trunk := { s.trunk with warmDump := bit v 0 } } :=
  congrArg ok ((if_neg (by simp [hlive])).trans (if_neg (by simp [hwarm])))

theorem exec_coldReset_live : exec .coldReset s = .next s.selfColdReset := congrArg ok (if_pos hlive)

end

/-- A heartbeat in Dormant, which the bud counts for both cores (R366). -/
theorem exec_heartbeatTick_dormant (hpower : s.bud.power = .dormant) (core : Nat) :
    exec (.heartbeatTick core) s = .next { s with trunk := { s.trunk with hb0 := s.trunk.hb0 + 1, hb1 := s.trunk.hb1 + 1 } } := congrArg ok (if_pos hpower)

section
variable (hpower : s.bud.power ≠ .dormant) (hrun : s.trunk.fwRunning = true)
include hpower hrun

theorem exec_heartbeatTick_core0 : exec (.heartbeatTick 0) s = .next { s with trunk := { s.trunk with hb0 := s.trunk.hb0 + 1 } } :=
  congrArg ok ((if_neg hpower).trans ((if_neg (by simp [hrun])).trans (if_pos rfl)))

theorem exec_heartbeatTick_core1 : exec (.heartbeatTick 1) s = .next { s with trunk := { s.trunk with hb1 := s.trunk.hb1 + 1 } } :=
  congrArg ok ((if_neg hpower).trans ((if_neg (by simp [hrun])).trans ((if_neg (by decide)).trans (if_pos rfl))))

end

/-- Settles O48: each command of the resets where the state admits it. -/
theorem resetCommands : Obligations.ResetCommands := by
  unfold Obligations.ResetCommands
  refine ⟨fun j v s hlive hj => ⟨exec_standReset_live hj hlive v, fun hgo => State.writeRstCtrl_fields hgo j s⟩,
    fun j o s hj hrun hwarm => exec_standResetStepDone_running hj hrun hwarm o, fun j s hj hwarm hstep => exec_selfRefreshTimeout_holding hj hwarm hstep,
    fun j s hj hwarm => ⟨exec_standResetEscalation_cold hj hwarm, fun hreplay => ⟨exec_replayAttemptEnd_replaying hj hwarm hreplay, exec_replayBudgetExpiry_replaying hj hwarm hreplay⟩⟩,
    fun v s hlive => ⟨exec_warmReset_begins hlive, exec_warmReset_writes hlive, exec_coldReset_live hlive⟩,
    fun o s hwarm => ⟨congrArg ok (if_pos hwarm), fun hstep => congrArg ok (if_pos ⟨hwarm, hstep⟩), fun hstep => congrArg ok (if_pos ⟨hwarm, hstep⟩)⟩,
    fun core s => ⟨fun hpower => exec_heartbeatTick_dormant hpower core, fun hpower hrun hcore => ?_, fun hpower hrun hcore => ?_⟩⟩
  · subst hcore
    exact exec_heartbeatTick_core0 hpower hrun
  · subst hcore
    exact exec_heartbeatTick_core1 hpower hrun

end Sys2Proof.Machine
end

section
/-! SUPPORT. The power-state commands where the state admits them (R358 to R372); from these O46. -/

namespace Sys2Proof.Machine

variable {s : State}

section
variable (hlive : s.live = true)
include hlive

section
variable (hd0 : s.pcie.d3hot = false)
include hd0

theorem exec_pfD3hotEntry_stays (hmode : fld s.bud.pwrCtrl 1 0 = 0) : exec .pfD3hotEntry s = .next { s with pcie := { s.pcie with d3hot := true } } :=
  congrArg ok ((if_neg (by simp [hlive, hd0])).trans (if_pos hmode))

/-- D3hot asks for Dormant with the target min(d3_state, 2), the model's choice (log entry 105). -/
theorem exec_pfD3hotEntry_requests (hmode : fld s.bud.pwrCtrl 1 0 ≠ 0) :
    exec .pfD3hotEntry s = .next ({ s with pcie := { s.pcie with d3hot := true } }.requestDormant (min (fld s.bud.pwrCtrl 1 0) 2)) :=
  congrArg ok ((if_neg (by simp [hlive, hd0])).trans (if_neg hmode))

end

section
variable (hd3 : s.pcie.d3hot = true)
include hd3

theorem exec_pfD0Transition_wakes (hpower : s.bud.power = .dormant) :
    exec .pfD0Transition s = .next ({ s with pcie := { s.pcie with d3hot := false } }.beginWake 5) := by
  refine congrArg ok ((if_neg (by simp [hlive, hd3])).trans ?_)
  simp only [hpower]
  rfl

theorem exec_pfD0Transition_full (hpower : s.bud.power = .full) : exec .pfD0Transition s = .next { s with pcie := { s.pcie with d3hot := false } } := by
  refine congrArg ok ((if_neg (by simp [hlive, hd3])).trans ?_)
  simp only [hpower]
  rfl

end

end

/-- PME_Turn_Off in D3hot enters Bare, which leaves of the leaves what a cold reset leaves and HBM reading 0 (R361, log entry 121). -/
theorem exec_pmeTurnOff_dormant (hpower : s.bud.power = .dormant) (hd3 : s.pcie.d3hot = true) (hmode : 2 ≤ fld s.bud.pwrCtrl 1 0) :
    exec .pmeTurnOff s = .next (s.enterBare.emit .pmeToAck) := congrArg ok (if_pos ⟨hpower, hd3, hmode⟩)

section
variable (hlive : s.budLive = true)
include hlive

theorem exec_pwrReqDormant_live : exec .pwrReqDormant s = .next (s.requestDormant 1) := congrArg ok (if_pos hlive)

theorem exec_pwrReqWake_dormant (hpower : s.bud.power = .dormant) : exec .pwrReqWake s = .next (s.beginWake 6) := by
  refine congrArg ok ((if_neg (by simp [hlive])).trans ?_)
  simp only [hpower]

theorem exec_budPwrCap_live (v : Word) : exec (.budPwrCap v) s = .next { s with bud := { s.bud with capW := BitVec.ofNat 7 (fld v 6 0) } } := congrArg ok (if_pos hlive)

end

theorem State.wakeEvent_disabled {k : WakeKind} (hoff : bit s.bud.wakeEn k.bitNo = false) : s.wakeEvent k = s := if_pos (.inl (by simp [hoff]))

/-- A bough's new frequency locks, and no other bough changes (R358). -/
theorem exec_clockLock_locks {b : Nat} {f : BitVec 11} (henabled : s.enabled b = true) (hnew : (s.bough b).newFreq = some f) :
    ∃ u, exec (.clockLock b) s = .next u ∧ OnlyBough b s u ∧ u.bough b = { s.bough b with freqMhz := f, newFreq := none } := by
  refine ⟨_, congrArg ok (if_pos henabled), (OnlyBough.refl b s).onBough _, ?_⟩
  rw [State.onBough_bough_same, hnew]

/-- Settles O46: each command of the power states where the state admits it. A target of D3hot is log entry 105, and HBM reads 0 in Bare by log entry 121. -/
theorem powerEvents : Obligations.PowerEvents := by
  unfold Obligations.PowerEvents
  exact ⟨fun s hlive hd0 => ⟨exec_pfD3hotEntry_stays hlive hd0, exec_pfD3hotEntry_requests hlive hd0⟩,
    fun s hlive hd3 => ⟨exec_pfD0Transition_wakes hlive hd3, exec_pfD0Transition_full hlive hd3⟩,
    fun s hpower hd3 hmode => ⟨_, exec_pmeTurnOff_dormant hpower hd3 hmode, rfl, rfl, rfl, fun _ => rfl, fun k => (s.coldReset_leaf k).1⟩,
    fun s hlive => ⟨exec_pwrReqDormant_live hlive, exec_pwrReqWake_dormant hlive, exec_budPwrCap_live hlive⟩,
    fun s hpower => ⟨congrArg ok (if_pos hpower), fun hstep => congrArg ok (if_pos ⟨hpower, hstep⟩)⟩,
    fun k s => ⟨rfl, State.wakeEvent_disabled⟩,
    fun o s hpower => congrArg ok (if_pos hpower),
    fun n s hpower hrun => ⟨congrArg ok (if_pos ⟨hpower, hrun⟩), congrArg ok (if_pos ⟨hpower, hrun⟩)⟩,
    fun b f s henabled hnew => exec_clockLock_locks henabled hnew⟩

end Sys2Proof.Machine
end

section
/-! SUPPORT. The governor's interval (R369 to R373): what the samples leave, the trip on a second hot sample, and the grant and the cadence (R370); from these O14 and O15. -/

namespace Sys2Proof.Machine

variable {s : State} {o : GovObs}

/-- The samples change the trunk's time, the bud and the alert alone (R369). -/
theorem State.sample_fields (s : State) (o : GovObs) :
    (s.sample o).trunk = { s.trunk with time := s.trunk.time + 1 } ∧ (s.sample o).bud.vinMv = o.vinMv ∧ (s.sample o).bud.inMa = o.inMa ∧ (s.sample o).leaves = s.leaves := by
  have hif (c : Prop) [Decidable c] (t : State) : (if c then t.alert 4 else t).trunk = t.trunk ∧ (if c then t.alert 4 else t).bud = t.bud ∧ (if c then t.alert 4 else t).leaves = t.leaves := by
    split <;> exact ⟨rfl, rfl, rfl⟩
  exact ⟨(hif _ _).1, congrArg Bud.vinMv (hif _ _).2.1, congrArg Bud.inMa (hif _ _).2.1, (hif _ _).2.2⟩

/-- A sensor at 115 °C or more in two samples in a row, which is one and the same sensor (R373, log entry 168). -/
theorem State.hotAgain_iff : s.hotAgain o = true ↔ ∃ n, n ∈ s.bud.hotLast ∧ n ∈ (s.sample o).bud.hotLast := by
  simp [State.hotAgain]

/-- A trip leaves the cells and the derived configuration of each leaf (R373). -/
theorem State.trip_leaf (s : State) (k : Nat) : (s.trip.leaf k).cells = (s.leaf k).cells ∧ (s.trip.leaf k).derivedOk = (s.leaf k).derivedOk :=
  ⟨smGet_map_keeps (f := Leaf.cells) _ _, smGet_map_keeps (f := Leaf.derivedOk) _ _⟩

section
variable (hoff : s.trunk.boot ≠ .off) (htrip : s.trunk.boot ≠ .tripped) (hbare : s.bud.power ≠ .bare)
include hoff htrip hbare

theorem exec_governorInterval_trips (hhot : s.hotAgain o = true) : exec (.governorInterval o) s = .next (s.sample o).trip :=
  congrArg ok ((if_neg (by simp [hoff, htrip, hbare])).trans (if_pos hhot))

/-- Firmware governs where the device is awake (R369, log entry 110). -/
theorem exec_governorInterval_governs (hcool : s.hotAgain o = false) (hrun : s.trunk.fwRunning = true) (hwarm : s.trunk.warmBusy = false) (hawake : s.awake = true) :
    exec (.governorInterval o) s = .next (((s.sample o).vinLow o).govern o) :=
  congrArg ok ((if_neg (by simp [hoff, htrip, hbare])).trans ((if_neg (by simp [hcool])).trans ((if_neg (by simp [hrun])).trans (if_pos ⟨hrun, by simp [hwarm], hawake⟩))))

end

/-- Settles O14: the interval by whether a sensor is hot again (log entry 168), where firmware or a warm reset keeps the bud sampling (log entry 110). -/
theorem governorInterval : Obligations.GovernorInterval := by
  unfold Obligations.GovernorInterval
  intro o s _ hoff htrip hbare
  obtain ⟨htrunk, hvin, hin, hleaves⟩ := s.sample_fields o
  refine ⟨fun hhot => ⟨_, exec_governorInterval_trips hoff htrip hbare (State.hotAgain_iff.2 hhot), rfl, rfl, rfl, rfl, rfl, rfl, fun k => ?_⟩,
    fun hcool hrun hwarm hawake => exec_governorInterval_governs hoff htrip hbare ?_ hrun hwarm hawake, htrunk, hvin, hin⟩
  · have hleaf : (s.sample o).leaf k = s.leaf k := congrArg (fun m => smGet ({} : Leaf) m k) hleaves
    rw [← hleaf]
    exact (s.sample o).trip_leaf k
  · rw [← Bool.not_eq_true, State.hotAgain_iff]
    rintro ⟨n, hlast, hnow⟩
    exact hcool n hlast hnow

/-- The grant of the next interval is at most the largest one (R370). -/
theorem State.nextGrant_le (s : State) (t : Int) (p : Rat) : s.nextGrant t p ≤ s.grantMax := by
  have hcap (x : Rat) : (if s.grantMax < x then s.grantMax else x) ≤ s.grantMax := by
    split
    · exact le_refl _
    · exact not_lt.1 ‹_›
  exact hcap _

/-- At the throttle threshold the grant is cut by 1/16 (R370). -/
theorem State.nextGrant_throttled {t : Int} (hhot : 256 * ni (clampN 85 105 (fld s.bud.thermCtrl 7 0)) ≤ t) (hmax : s.bud.grant * 15 / 16 ≤ s.grantMax) (p : Rat) :
    s.nextGrant t p = s.bud.grant * 15 / 16 := by
  unfold State.nextGrant
  dsimp only
  rw [if_pos hhot, if_neg (not_lt.2 hmax)]

/-- A cadence keeps `n` leaves within the grant. -/
def cadenceFits (n : Nat) (g : Rat) (c : Nat) : Bool := decide (nr n * 1000000000 / nr c ≤ g)

theorem cadences_eq : (List.range 57).map (· + 8) = List.range' 8 57 := by decide

/-- The cadence is the first of 8 to 64 that fits, or 64 (R370). -/
theorem cadenceOf_least (n : Nat) (g : Rat) : 8 ≤ cadenceOf n g ∧ cadenceOf n g ≤ 64 ∧ (∀ c, 8 ≤ c → c < cadenceOf n g → cadenceFits n g c = false) ∧
    (cadenceFits n g (cadenceOf n g) = true ∨ cadenceOf n g = 64) := by
  have hof : cadenceOf n g = ((List.range' 8 57).find? (cadenceFits n g)).getD 64 := by
    rw [← cadences_eq]
    rfl
  rw [hof]
  cases hfind : (List.range' 8 57).find? (cadenceFits n g) with
  | none =>
    rw [List.find?_range'_eq_none] at hfind
    refine ⟨by simp, by simp, fun c hlow hhigh => ?_, .inr rfl⟩
    simpa using hfind c hlow (by simp at hhigh; omega)
  | some c =>
    rw [List.find?_range'_eq_some] at hfind
    obtain ⟨hfits, hmem, hleast⟩ := hfind
    rw [List.mem_range'_1] at hmem
    refine ⟨hmem.1, by simp; omega, fun c' hlow hhigh => ?_, .inl hfits⟩
    simpa using hleast c' hlow hhigh

/-- Settles O15: the bound and the cut of the grant, and the least cadence within it. -/
theorem grantAndCadence : Obligations.GrantAndCadence := by
  unfold Obligations.GrantAndCadence
  refine ⟨fun s t p => ⟨s.nextGrant_le t p, fun hhot hmax => State.nextGrant_throttled hhot hmax p⟩, fun n g => ?_⟩
  obtain ⟨hlow, hhigh, hleast, hfits⟩ := cadenceOf_least n g
  exact ⟨hlow, hhigh, fun c h8 hlt => not_le.1 (of_decide_eq_false (hleast c h8 hlt)), hfits.imp_left of_decide_eq_true⟩

end Sys2Proof.Machine
end

section
/-! SUPPORT. The units that a stand reset clears, and what its steps leave of cells, fences, store and memory (Table 15-2, R17, R95, R342, R345); from these O49. -/

namespace Sys2Proof.Machine

variable {s t u : State}

theorem mem_leavesOf (b k : Nat) : k ∈ leavesOf b ↔ k / 18 = b := by
  unfold leavesOf leafNo
  rw [List.mem_map]
  constructor
  · rintro ⟨l, hl, rfl⟩
    rw [List.mem_range] at hl
    omega
  · intro hk
    exact ⟨k % 18, List.mem_range.2 (Nat.mod_lt _ (by decide)), by omega⟩

theorem State.mem_boughsOf (s : State) (j b : Nat) : b ∈ s.boughsOf j ↔ b / 4 = j ∧ s.enabled b = true := by
  unfold State.boughsOf
  rw [List.mem_filter, List.mem_map]
  constructor
  · rintro ⟨⟨i, hi, rfl⟩, hb⟩
    rw [List.mem_range] at hi
    exact ⟨by omega, hb⟩
  · rintro ⟨hj, hb⟩
    exact ⟨⟨b % 4, List.mem_range.2 (Nat.mod_lt _ (by decide)), by omega⟩, hb⟩

/-- Boughs `bs` with their leaves have been reset (R17). -/
structure UnitsReset (bs : List Nat) (s t : State) : Prop where
  leaf : ∀ k, t.leaf k = if k / 18 ∈ bs then (s.leaf k).afterReset else s.leaf k
  other : ∀ b, b ∉ bs → t.bough b = s.bough b
  fenced : ∀ b, (t.bough b).fenced = (s.bough b).fenced
  rest : t = { s with boughs := t.boughs, leaves := t.leaves }

theorem State.foldl_onLeaf_leaf {g : Leaf → Leaf} (hg : ∀ l, g (g l) = g l) (ks : List Nat) (s : State) (k : Nat) :
    (ks.foldl (fun (s : State) k => s.onLeaf k g) s).leaf k = if k ∈ ks then g (s.leaf k) else s.leaf k := by
  induction ks generalizing s with
  | nil => simp
  | cons i r ih =>
    rw [List.foldl_cons, ih]
    by_cases hi : k = i
    · subst hi
      simp [hg]
    · rw [State.onLeaf_leaf_other _ _ hi]
      simp [hi]

theorem State.foldl_onLeaf_rest (g : Leaf → Leaf) (ks : List Nat) (s : State) : ∃ m, ks.foldl (fun (s : State) k => s.onLeaf k g) s = { s with leaves := m } := by
  induction ks generalizing s with
  | nil => exact ⟨s.leaves, rfl⟩
  | cons i r ih =>
    obtain ⟨m, h⟩ := ih (s.onLeaf i g)
    exact ⟨m, h⟩

/-- One bough with its leaves is reset. -/
def State.resetBough (s : State) (b : Nat) : State := (leavesOf b).foldl (fun (s : State) k => s.onLeaf k Leaf.afterReset) (s.onBough b Bough.afterReset)

theorem State.resetBough_units (s : State) (b : Nat) : UnitsReset [b] s (s.resetBough b) := by
  obtain ⟨m, hrest⟩ := State.foldl_onLeaf_rest Leaf.afterReset (leavesOf b) (s.onBough b Bough.afterReset)
  have hleaf := State.foldl_onLeaf_leaf (g := Leaf.afterReset) (fun _ => rfl) (leavesOf b) (s.onBough b Bough.afterReset)
  unfold State.resetBough
  rw [hrest] at hleaf ⊢
  refine ⟨fun k => ?_, fun b' hb => State.onBough_bough_other _ _ (by simpa using hb), fun b' => ?_, rfl⟩
  · rw [hleaf, State.onBough_leaf]
    simp [mem_leavesOf]
  · by_cases hb : b' = b
    · subst hb
      change ((s.onBough b' Bough.afterReset).bough b').fenced = _
      rw [State.onBough_bough_same]
      rfl
    · change ((s.onBough b Bough.afterReset).bough b').fenced = _
      rw [State.onBough_bough_other _ _ hb]

theorem UnitsReset.cons {b : Nat} {bs : List Nat} (a : UnitsReset [b] s t) (r : UnitsReset bs t u) : UnitsReset (b :: bs) s u := by
  obtain ⟨aleaf, aother, afenced, arest⟩ := a
  obtain ⟨rleaf, rother, rfenced, rrest⟩ := r
  refine ⟨fun k => ?_, fun b' hb => ?_, fun b' => (rfenced b').trans (afenced b'), by rw [rrest, arest]⟩
  · rw [rleaf, aleaf]
    by_cases hfirst : k / 18 = b
    · simp [hfirst, Leaf.afterReset]
    · simp [hfirst]
  · rw [List.mem_cons, not_or] at hb
    rw [rother b' hb.2, aother b' (by simpa using hb.1)]

theorem State.foldl_resetBough_units (bs : List Nat) (s : State) : UnitsReset bs s (bs.foldl State.resetBough s) := by
  induction bs generalizing s with
  | nil => exact ⟨fun k => by simp, fun _ _ => rfl, fun _ => rfl, rfl⟩
  | cons b r ih =>
    rw [List.foldl_cons]
    exact (s.resetBough_units b).cons (ih (s.resetBough b))

theorem State.onStand_leaf (s : State) (j : Nat) (f : Stand → Stand) (k : Nat) : (s.onStand j f).leaf k = s.leaf k := rfl
theorem State.onStand_bough (s : State) (j : Nat) (f : Stand → Stand) (b : Nat) : (s.onStand j f).bough b = s.bough b := rfl

theorem State.resetUnits_eq (s : State) (j : Nat) : s.resetUnits j = ((s.boughsOf j).foldl State.resetBough s).onStand j Stand.afterReset := by
  unfold State.resetUnits State.resetBough
  rfl

/-- A reset of a stand's units resets the leaves of its enabled boughs, and no other leaf (log entry 92). -/
theorem State.resetUnits_leaf (s : State) (j k : Nat) :
    (s.resetUnits j).leaf k = if k / 18 / 4 = j ∧ s.enabled (k / 18) = true then (s.leaf k).afterReset else s.leaf k := by
  rw [State.resetUnits_eq, State.onStand_leaf, (State.foldl_resetBough_units (s.boughsOf j) s).leaf]
  simp only [State.mem_boughsOf]

theorem State.resetUnits_bough_other (s : State) {j b : Nat} (hb : b / 4 ≠ j) : (s.resetUnits j).bough b = s.bough b := by
  rw [State.resetUnits_eq, State.onStand_bough]
  exact (State.foldl_resetBough_units (s.boughsOf j) s).other b fun hmem => hb ((s.mem_boughsOf j b).1 hmem).1

theorem State.resetUnits_fenced (s : State) (j b : Nat) : ((s.resetUnits j).bough b).fenced = (s.bough b).fenced := by
  rw [State.resetUnits_eq, State.onStand_bough]
  exact (State.foldl_resetBough_units (s.boughsOf j) s).fenced b

/-- A reset of a stand's units touches stands, boughs and leaves alone. -/
theorem State.resetUnits_rest (s : State) (j : Nat) : ∃ boughs leaves, s.resetUnits j = { s with boughs := boughs, leaves := leaves }.onStand j Stand.afterReset := by
  have hrest := (State.foldl_resetBough_units (s.boughsOf j) s).rest
  exact ⟨_, _, (s.resetUnits_eq j).trans (congrArg (State.onStand · j Stand.afterReset) hrest)⟩

/-- Cells, markers and records of leaves, the fences of boughs and the store are as they were. -/
structure CellsFrame (s t : State) : Prop where
  leaf : ∀ k, (t.leaf k).cells = (s.leaf k).cells ∧ (t.leaf k).marker = (s.leaf k).marker ∧ (t.leaf k).record = (s.leaf k).record
  fenced : ∀ b, (t.bough b).fenced = (s.bough b).fenced
  store : t.store = s.store

namespace CellsFrame

theorem refl (s : State) : CellsFrame s s := ⟨fun _ => ⟨rfl, rfl, rfl⟩, fun _ => rfl, rfl⟩

theorem trans (a : CellsFrame s t) (b : CellsFrame t u) : CellsFrame s u := by
  refine ⟨fun k => ?_, fun i => (b.fenced i).trans (a.fenced i), b.store.trans a.store⟩
  obtain ⟨a1, a2, a3⟩ := a.leaf k
  obtain ⟨b1, b2, b3⟩ := b.leaf k
  exact ⟨b1.trans a1, b2.trans a2, b3.trans a3⟩

theorem foldl {α : Type} (l : List α) (f : State → α → State) (s : State) (hf : ∀ s a, CellsFrame s (f s a)) : CellsFrame s (l.foldl f s) := by
  induction l generalizing s with
  | nil => exact refl s
  | cons a r ih => exact (hf s a).trans (ih _)

theorem of_record (h : RecordFrame s t) : CellsFrame s t := by
  rw [h.rest]
  exact ⟨fun _ => ⟨rfl, rfl, rfl⟩, fun _ => rfl, rfl⟩

end CellsFrame

theorem CellsFrame.onTrunk (s : State) (f : Trunk → Trunk) : CellsFrame s (s.onTrunk f) := ⟨fun _ => ⟨rfl, rfl, rfl⟩, fun _ => rfl, rfl⟩

/-- A change of one leaf that keeps what a reset keeps. -/
theorem CellsFrame.onLeaf (s : State) (k : Nat) {f : Leaf → Leaf} (hf : ∀ l, (f l).cells = l.cells ∧ (f l).marker = l.marker ∧ (f l).record = l.record) :
    CellsFrame s (s.onLeaf k f) := by
  refine ⟨fun i => ?_, fun _ => rfl, rfl⟩
  by_cases hi : i = k
  · rw [hi, State.onLeaf_leaf_same]
    exact hf _
  · rw [State.onLeaf_leaf_other _ _ hi]
    exact ⟨rfl, rfl, rfl⟩

theorem State.dropMarked_cells (s : State) (k : Nat) : CellsFrame s (s.dropMarked k) := by
  unfold State.dropMarked
  split
  · exact (CellsFrame.onTrunk s _).trans (.of_record (State.record_frame _ _ _ _))
  · exact .refl s

theorem State.markInvalid_cells (s : State) (k : Nat) : CellsFrame s (s.markInvalid k) := by
  unfold State.markInvalid
  split
  · exact .refl s
  · exact .onLeaf s k fun l => ⟨rfl, rfl, rfl⟩

/-- Reading markers changes roles and the leaf map (R95). -/
theorem State.readMarkers_cells (s : State) (j : Nat) : CellsFrame s (s.readMarkers j) :=
  .foldl _ _ s fun s k => (s.dropMarked_cells k).trans (State.markInvalid_cells _ k)

theorem State.resetUnits_cells (s : State) (j : Nat) : CellsFrame s (s.resetUnits j) := by
  refine ⟨fun k => ?_, s.resetUnits_fenced j, ?_⟩
  · rw [State.resetUnits_leaf]
    split <;> exact ⟨rfl, rfl, rfl⟩
  · obtain ⟨m, l, h⟩ := s.resetUnits_rest j
    rw [h]
    rfl

/-- Step 5 of a stand's reset: its units are reset, its markers read, and its range zeroed on the fallback path (Table 15-3). -/
theorem State.standStep_reset {j : Nat} (hstep : (s.stand j).rstStep = 5) (o : ResetObs) : ∃ u : State, s.standStep j o = u.retryReads ∧ (u.stand j).rstStep = 6 ∧ CellsFrame s u := by
  have hunits := (s.resetUnits_cells j).trans ((s.resetUnits j).readMarkers_cells j)
  have hzero (c : Prop) [Decidable c] (t : State) : CellsFrame t (if c then t.zeroStand j else t) := by
    split
    · exact ⟨fun _ => ⟨rfl, rfl, rfl⟩, fun _ => rfl, rfl⟩
    · exact .refl t
  have hall := hunits.trans (hzero ((s.stand j).fallback = true) _)
  refine ⟨(if (s.stand j).fallback then ((s.resetUnits j).readMarkers j).zeroStand j else (s.resetUnits j).readMarkers j).onStand j fun d =>
    { d with rstStep := 6, rstState := if d.fallback then .reinit else .holding }, ?_, ?_, hall.leaf, hall.fenced, hall.store⟩
  · unfold State.standStep
    simp only [hstep]
  · rw [State.onStand_stand_same]

/-- Step 6 on the main path leaves HBM alone but for the recovery erases' records. -/
theorem State.standStep_exit {j : Nat} (hstep : (s.stand j).rstStep = 6) (hmain : (s.stand j).fallback = false) (o : ResetObs) :
    s.standStep j o = ((s.recoverLeaves ((s.boughsOf j).flatMap leavesOf)).onStand j fun d => { d with rstStep := 7, rstState := .restoring }).retryReads := by
  unfold State.standStep
  simp only [hstep, hmain]
  rfl

/-- A stand's range reads 0 once it is zeroed, and the rest of HBM as before (R18, R345). -/
theorem State.zeroStand_memGet (s : State) (j a : Nat) : memGet (s.zeroStand j).hbm a = if a / 0x300000000 = j then 0 else memGet s.hbm a := by
  have hmem := memGet_filter s.hbm (fun a => !(hbmStand a == j)) a
  refine hmem.trans ?_
  by_cases ha : a / 0x300000000 = j <;> simp [hbmStand, standSize, ha, memDefault]

/-- Settles O49: step 5 through what it keeps, step 6 on the main path, the zeroed range, and a stand's units one by one. That a leaf's registers return to their reset values is log entry 92, and what waits on the range is log entry 160. -/
theorem standResetKeeps : Obligations.StandResetKeeps := by
  unfold Obligations.StandResetKeeps
  refine ⟨fun j o s hstep => ?_, fun j o s hstep hmain => State.standStep_exit hstep hmain o, fun j a s => s.zeroStand_memGet j a, fun j s => ?_⟩
  · obtain ⟨u, hexec, hnext, hkept⟩ := State.standStep_reset hstep o
    exact ⟨u, hexec, hnext, hkept.leaf, hkept.fenced, hkept.store⟩
  · obtain ⟨m, l, hrest⟩ := s.resetUnits_rest j
    have hstand : (s.resetUnits j).stand j = (s.stand j).afterReset := by
      rw [hrest, State.onStand_stand_same]
      rfl
    have hleaf (k : Nat) : (s.resetUnits j).leaf k = (s.leaf k).afterReset ∨ (s.resetUnits j).leaf k = s.leaf k := by
      rw [State.resetUnits_leaf]
      split
      · exact .inl rfl
      · exact .inr rfl
    refine ⟨by rw [hrest]; rfl, by rw [hrest]; rfl, by rw [hrest]; rfl, by rw [hstand]; rfl, by rw [hstand]; rfl, fun k => ?_, fun k hon hk _ => ?_, fun k hk => ?_, fun j' hj => ?_,
      fun b hb => s.resetUnits_bough_other hb⟩
    · obtain h | h := hleaf k <;> rw [h] <;> exact ⟨rfl, rfl, rfl, rfl⟩
    · rw [State.resetUnits_leaf, if_pos ⟨hk, hon⟩]
      exact ⟨rfl, rfl, rfl⟩
    · rw [State.resetUnits_leaf, if_neg fun h => hk h.1]
    · rw [hrest, State.onStand_stand_other _ _ hj]
      rfl

end Sys2Proof.Machine
end

section
/-! SUPPORT. The begin of a warm reset and its reset of trunk and schedulers, and what each keeps (Table 15-2, R342, R348, R349, R386); from these O50. -/

namespace Sys2Proof.Machine

variable {s : State}

theorem State.deliverEdge_leaves (s : State) : s.deliverEdge.leaves = s.leaves := by
  unfold State.deliverEdge
  split <;> rfl

/-- The abort of a power-state entry touches no leaf (R365). -/
theorem State.abortEntry_leaves (s : State) (reason : Nat) (unit : Word) : (s.abortEntry reason unit).leaves = s.leaves := by
  unfold State.abortEntry
  split
  · rfl
  · exact (State.record_note _ _ _ _).leaves.trans (State.deliverEdge_leaves _)

theorem State.restorePower_que (s : State) : s.restorePower.que = s.que := by
  unfold State.restorePower
  split <;> rfl

/-- Power restored to the boughs costs the leaves their calibration, and no cell (R367). -/
theorem State.restorePower_cells (s : State) (k : Nat) : (s.restorePower.leaf k).cells = (s.leaf k).cells := by
  unfold State.restorePower
  split
  · exact smGet_map_keeps (f := Leaf.cells) _ _
  · rfl

/-- With the engine every queue is disabled, each at its own key. -/
theorem State.disableAll_enabled (s : State) (q : Nat) : (s.disableAll.queue q).enabled = false := smGet_map_resets (f := QRun.enabled) _ _

theorem State.beginWarm_absorbed (hbusy : s.trunk.warmBusy = true) (cause : Nat) : s.beginWarm cause = s := if_pos (.inl hbusy)

/-- The device as a warm reset begins, before the trunk notes it. -/
def State.warmHeld (s : State) : State := ((s.abortEntry 8 uDevice).dropMgmt.dropWrites).disableAll.restorePower

theorem State.beginWarm_starts (hbusy : s.trunk.warmBusy = false) (hfw : s.trunk.fwRunning = true) (cause : Nat) :
    s.beginWarm cause = s.warmHeld.onTrunk fun t => { t with warmBusy := true, warmStep := 1, warmSys := cause == 3, lastCause := BitVec.ofNat 4 cause, warmCount := satInc t.warmCount, dumps := [] } :=
  if_neg (by simp [hbusy, hfw])

theorem State.warmHeld_cells (s : State) (k : Nat) : (s.warmHeld.leaf k).cells = (s.leaf k).cells := by
  refine (State.restorePower_cells _ k).trans ?_
  change (smGet _ (s.abortEntry 8 uDevice).leaves k).cells = _
  rw [State.abortEntry_leaves]
  rfl

theorem State.warmHeld_ctrl (s : State) : s.warmHeld.que.ctrl = false := congrArg Que.ctrl (State.restorePower_que _)

theorem State.warmHeld_enabled (s : State) (q : Nat) : (s.warmHeld.queue q).enabled = false := by
  unfold State.warmHeld State.queue
  rw [State.restorePower_que]
  exact State.disableAll_enabled _ q

/-- Trunk, schedulers, knots and queues after their reset, before the boot ROM chooses a slot: no record ring is left. -/
theorem State.warmUnits_eq (s : State) : ∃ u : State, s.warmUnits = u.chooseSlot ∧ u.recRing = none ∧ u.hbm = s.hbm ∧ u.store = s.store ∧ u.bud = s.bud ∧ u.tap = s.tap ∧
    u.que = { syncCnt := s.que.syncCnt } ∧ u.ael.armed = [] ∧ u.stands = s.stands.map (fun p => (p.1, p.2.warmKept)) ∧ u.boughs = s.boughs.map (fun p => (p.1, p.2.warmKept)) ∧
    u.leaves = s.leaves.map fun p => (p.1, p.2.warmKept) := ⟨_, rfl, rfl, rfl, rfl, rfl, rfl, rfl, rfl, rfl, rfl, rfl⟩

/-- Settles O50: the begin of a warm reset, its reset of units through the boot ROM's choice of a slot, and a cold reset. That a warm reset during one is ignored is log entry 97, and that its begin disables the queues is log entry 101. -/
theorem warmAndColdKeep : Obligations.WarmAndColdKeep := by
  unfold Obligations.WarmAndColdKeep
  refine ⟨fun cause s => ⟨fun hbusy => State.beginWarm_absorbed hbusy cause, fun hbusy hfw => ?_⟩, fun s => ?_, fun s => ⟨rfl, fun _ => rfl, rfl, fun k => ?_⟩⟩
  · rw [State.beginWarm_starts hbusy hfw]
    exact ⟨rfl, rfl, rfl, s.warmHeld_ctrl, s.warmHeld_enabled, s.warmHeld_cells⟩
  · obtain ⟨u, hexec, hring, hhbm, hstore, hbud, htap, hque, harmed, hstands, hboughs, hleaves⟩ := s.warmUnits_eq
    have hchoice := u.chooseSlot_note
    have hque' : s.warmUnits.que = { syncCnt := s.que.syncCnt } := by rw [hexec, hchoice.que]; exact hque
    have hstands' : s.warmUnits.stands = s.stands.map fun p => (p.1, p.2.warmKept) := by rw [hexec, hchoice.stands]; exact hstands
    have hboughs' : s.warmUnits.boughs = s.boughs.map fun p => (p.1, p.2.warmKept) := by rw [hexec, hchoice.boughs]; exact hboughs
    have hleaves' : s.warmUnits.leaves = s.leaves.map fun p => (p.1, p.2.warmKept) := by rw [hexec, hchoice.leaves]; exact hleaves
    refine ⟨?_, ?_, ?_, ?_, congrArg Que.queues hque', congrArg Que.knots hque', by rw [hque'], ?_, fun j => ?_, fun b => ?_, fun k => ?_⟩
    · rw [hexec, State.chooseSlot_hbm hring, hhbm]
    · rw [hexec, hchoice.store]
      change u.store.log = _
      rw [hstore]
    · rw [hexec, hchoice.bud]
      exact hbud
    · rw [hexec, hchoice.tap]
      exact htap
    · rw [hexec, hchoice.ael]
      exact harmed
    · unfold State.stand
      rw [hstands']
      exact ⟨smGet_map_resets (f := Stand.canopy) _ _, smGet_map_keeps (f := Stand.fenced) _ _⟩
    · unfold State.bough
      rw [hboughs']
      exact ⟨smGet_map_resets (f := Bough.task) _ _, smGet_map_keeps (f := Bough.fenced) _ _⟩
    · unfold State.leaf
      rw [hleaves']
      exact ⟨smGet_map_keeps (f := Leaf.cells) _ _, smGet_map_keeps (f := Leaf.cal) _ _⟩
  · obtain ⟨hcells, hmarker, -⟩ := s.coldReset_leaf k
    exact ⟨hcells, hmarker⟩

end Sys2Proof.Machine
end
